-- ==== Sys2Proof/Word.lean ====
section
/-!
DEFINITION. The word types of the model. A register is kept as 64 bits whatever its width (a 32-bit register's upper
half is zero); memory is bytes; counts, indexes, addresses and keys are natural numbers. Byte order, bit fields and
every other helper that a test could show wrong stand under Machine/.
-/
namespace Sys2Proof

/-- One byte of memory. -/
abbrev Byte := BitVec 8

/-- The contents of one register. -/
abbrev Word := BitVec 64

end Sys2Proof
end

