-- ==== Sys2Proof/Syntax.lean ====
section
/-!
DEFINITION. The commands of the block: one constructor for each row of spec/opcode_table.json, with the operands that
the row's rule gives it. What an event brings with it from outside the model (a measurement, a link's verdict, a level's
duration) is an operand of its command.
-/
namespace Sys2Proof

/-- A compute die, CD0 to CD3 (Table 0-2). -/
abbrev Die := Fin 4
/-- A job slot, J0 to J63 (R369). -/
abbrev Slot := Fin 64
/-- A physical core of a die (R17). -/
abbrev Phys := Fin 100
/-- A logical core index L = r × 12 + c (R38). -/
abbrev Logical := Fin 96
/-- A queue of a die: the core queue of a logical core, or 96 for the die queue (R220). -/
abbrev QueueNo := Fin 97
/-- One of the four arrays of a core. -/
abbrev Arr := Fin 4
/-- An attic port, X0 or X1. -/
abbrev Port := Fin 2
/-- A part of a two-phase command: CD0 to CD3, then the hub as 4 (R396). -/
abbrev Part := Fin 5
/-- A bank by number: d × 816 + p × 8 + k for shelf k of physical core p of die d, d × 816 + 800 + b for bank b of its
store room (Table 13-8). -/
abbrev BankNo := Fin 3264
/-- A link: 0 to 3 the couch link from CDn to CDn+1, 4 to 7 the hub-to-die link of die n - 4 (R334). -/
abbrev LinkNo := Fin 8

/-- What the partner of an attic port shows at stage 8 (R283, Table 7-8). -/
structure PortReport where
  /-- The link trains at 64 GT/s or above. -/
  ok      : Bool
  /-- 0 for 64 GT/s, 1 for 128 GT/s. -/
  speed   : Nat
  /-- 0 x16, 1 x8, 2 x4. -/
  width   : Nat
  /-- CXL version of the partner, major in the high digit. -/
  version : Nat
  /-- Capacity in bytes. -/
  bytes   : Nat
deriving DecidableEq, Repr

/-- What a march test finds in a bank (R274, R277): spare rows that fail their own test, bit r for spare row r, and the rows in
which an operation reads another value than expected, in the order found. -/
structure MarchReport where
  bank   : Nat
  spares : Nat
  rows   : List Nat
deriving DecidableEq, Repr

/-- What the start-up stage that is running finds (Table 13-1); each stage reads the entries that concern it. -/
structure StageReport where
  /-- Stage 2: dies whose microcode fails verification, bit d for CDd. -/
  badMicrocode : Nat
  /-- Stage 3: what the march finds in banks that it finds anything in. -/
  marches      : List MarchReport
  /-- Stage 4: larder devices that fail to train, bit n for Gn. -/
  badDevices   : Nat
  /-- Stage 5: couch links that go out of service, bit n for the link CDn to CDn+1. -/
  badCouch     : Nat
  /-- Stage 6: hub-to-die links that fail, bit d for CDd. -/
  badHub       : Nat
  /-- Stage 7: the link trains below 128 GT/s or below x16. -/
  hostSlow     : Bool
  /-- Stage 8: the partners of X0 and X1. -/
  x0           : PortReport
  x1           : PortReport
deriving DecidableEq, Repr

/-- One temperature reading (R498): `die` 0 to 3 or 4 for the hub, `core` a physical core or 127 for a fabric or hub
sensor, in °C. -/
structure Reading where
  die  : Nat
  core : Nat
  degC : Nat
deriving DecidableEq, Repr

/-- The bus-master access at which a PCIe error struck (R374, R376, R382). -/
inductive BusPoint where
  | sqFetch | cqWrite | evtWrite | paramRead | copyData
deriving DecidableEq, Repr

/-- A parity error on a byte at array entry (R93): on the byte of an activation element (array, quadrant, row, k) or of a
weight element (quadrant, k, n); quadrant 0 where the array is not partitioned. -/
inductive Parity where
  | act (arr quad row k : Nat)
  | wgt (quad k n : Nat)
deriving DecidableEq, Repr

/-- A fault that strikes an array (R88): `err` is added to a lane of a pass accumulator of a row, or to the predicted residue
of the row and pass. Passes count from 1; `lane` counts from the quadrant's first. -/
structure Upset where
  arr  : Nat
  quad : Nat
  row  : Nat
  pass : Nat
  lane : Nat
  pred : Bool
  err  : Int
deriving DecidableEq, Repr

/-- A directed link: `dir` 0 towards the next die or the die, 1 the other way (R334). -/
structure LinkEnd where
  link : LinkNo
  dir  : Fin 2
deriving DecidableEq, Repr

/-- What the patrol scrub finds in a larder granule (R281). -/
inductive ScrubFind where
  | clean | corrected | uncorrectable
deriving DecidableEq, Repr

/-- What befalls a burst of a larder access, at the granule of a larder address (R280, R281): a read corrects an error or finds
one that it cannot correct; a burst is retried a number of times after bus CRC errors, or has used up its 16 retries. -/
inductive BurstErr where
  | corrected (la : Nat)
  | uncorrectable (la : Nat)
  | retried (la times : Nat)
  | exhausted (la : Nat)
deriving DecidableEq, Repr

/-- What the error logic of a bank does at a byte offset (R257, R258): a read corrects a single-bit error, finds an
uncorrectable one, or meets a granule of whose three poison copies those in the mask have changed; or a pending write-back is
made. -/
inductive EccEvent where
  | corrected (off : Nat)
  | uncorrectable (off : Nat)
  | copies (off mask : Nat)
  | writeBack (off : Nat)
deriving DecidableEq, Repr

/-- What a re-plan predicts for one island (R504): the lowest voltage in mV that gives 6 % slack, for each frequency
from 1,200 to 1,900 MHz in steps of 25 MHz (29 entries). -/
structure IslandPrediction where
  die   : Nat
  phys  : Nat
  volts : List Nat
deriving DecidableEq, Repr

/-- The three paths of the mailbox engine (R536). -/
inductive MboxPath where
  | bar0 | smbus | pcie
deriving DecidableEq, Repr

/-- The two MCTP paths (R536). -/
inductive MctpPath where
  | smbus | pcie
deriving DecidableEq, Repr

/-- A mailbox message as it reaches the engine (R537): for the BAR0 path the message waiting there is served and `tag`
and `payload` are not read. -/
structure MboxMsg where
  path    : MboxPath
  tag     : Nat
  payload : List Byte
deriving DecidableEq, Repr

/-- The commands, in the order of the opcode table. -/
inductive Instr where
  /-- POWER_INPUT_ENTRY (R471). `dv`: the input voltage in 0.1 V after its rise. -/
  | powerInputEntry (dv : Nat)
  /-- CHARGE_COMPLETE (R472). -/
  | chargeComplete
  /-- POWER_LOSS (R473). `dv`: the lowest input voltage of the dip in 0.1 V; `us`: how long it stays below 44 V. -/
  | powerLoss (dv : Nat) (us : Nat)
  /-- PWRGD_ASSERT (R475). `ns`: how long the level lasts. -/
  | pwrgdAssert (ns : Nat)
  /-- PWRGD_DEASSERT (R474). `ns`: how long the level lasts. -/
  | pwrgdDeassert (ns : Nat)
  /-- PERST_ASSERT (R480). `ns`: how long the level lasts. -/
  | perstAssert (ns : Nat)
  /-- PERST_DEASSERT (R475). `ns`: how long the level lasts. -/
  | perstDeassert (ns : Nat)
  /-- STARTUP_STAGE (R475). `rep`: what the stage found. -/
  | startupStage (rep : StageReport)
  /-- LARDER_ZEROING_DONE (R479). -/
  | larderZeroingDone
  /-- CELLAR_RECOVERY (R467). -/
  | cellarRecovery
  /-- FLR (R483). -/
  | flr
  /-- FLR_COMPLETE (R483). -/
  | flrComplete
  /-- THERMAL_READ (R499). The sensors read, and the cold plate. -/
  | thermalRead (rs : List Reading) (coolIn : Nat) (coolOut : Nat)
  /-- THROTTLE_RELEASE_STEP (R499). -/
  | throttleReleaseStep (d : Die) (p : Phys)
  /-- THERMAL_TRIP (R501). The sensor that reached 115 °C. -/
  | thermalTrip (r : Reading)
  /-- REGISTER_WRITE (R13). A BAR0 write of `size` bytes. -/
  | registerWrite (addr : Nat) (size : Nat) (data : Nat)
  /-- BAR0_HALF_READ (R43). A BAR0 read of `size` bytes. -/
  | bar0HalfRead (addr : Nat) (size : Nat)
  /-- BAR2_READ (R34). -/
  | bar2Read (off : Nat) (len : Nat) (errs : List BurstErr)
  /-- BAR2_WRITE (R282). -/
  | bar2Write (off : Nat) (data : List Byte) (poison : Bool) (errs : List BurstErr)
  /-- QP_ENABLE (R370). `cfg`: the value written to KGR_QCFGj. -/
  | qpEnable (j : Slot) (cfg : Nat)
  /-- QP_DISABLE (R370). `cfg`: the value written to KGR_QCFGj. -/
  | qpDisable (j : Slot) (cfg : Nat)
  /-- SQ_TAIL_DOORBELL (R371). -/
  | sqTailDoorbell (j : Slot) (v : Nat)
  /-- CQ_HEAD_DOORBELL (R372). -/
  | cqHeadDoorbell (j : Slot) (v : Nat)
  /-- EVT_HEAD_DOORBELL (R402). -/
  | evtHeadDoorbell (j : Slot) (v : Nat)
  /-- COMPLETION_POST (R372). -/
  | completionPost (j : Slot)
  /-- HOST_BUS_ERROR (R374). -/
  | hostBusError (j : Slot) (point : BusPoint)
  /-- KEAGER_JOB_RESET (R400). -/
  | keagerJobReset (j : Slot)
  /-- JOB_RESET_DONE (R400). -/
  | jobResetDone (j : Slot)
  /-- DEADLINE_EXPIRY (R391). -/
  | deadlineExpiry (j : Slot) (seq : Nat)
  /-- NOP (R381). -/
  | nop (j : Slot)
  /-- IDENTIFY (R381). -/
  | identify (j : Slot)
  /-- SET_WINDOWS (R384). -/
  | setWindows (j : Slot)
  /-- SET_POWER_CAP (R497). -/
  | setPowerCap (j : Slot)
  /-- SET_POWER_STATE (R487). -/
  | setPowerState (j : Slot)
  /-- POLICY_LOAD (R173). -/
  | policyLoad (j : Slot)
  /-- DIE_READMIT (R438). -/
  | dieReadmit (j : Slot)
  /-- DIE_RESET (R484). -/
  | dieReset (j : Slot)
  /-- COPY (R382). What its larder reads for the attic meet. -/
  | copy (j : Slot) (errs : List BurstErr)
  /-- FILL (R382). -/
  | fill (j : Slot)
  /-- PLAN_BIND (R385). -/
  | planBind (j : Slot)
  /-- PLAN_UNBIND (R385). -/
  | planUnbind (j : Slot)
  /-- RUN (R387). -/
  | run (j : Slot)
  /-- SNAP_TAKE (R450). -/
  | snapTake (j : Slot)
  /-- SNAP_FREEZE (R451). -/
  | snapFreeze (j : Slot)
  /-- SNAP_SEAL (R451). -/
  | snapSeal (j : Slot)
  /-- SNAP_RESTORE (R461). -/
  | snapRestore (j : Slot)
  /-- SNAP_LIST (R459). -/
  | snapList (j : Slot)
  /-- SNAP_DELETE (R460). -/
  | snapDelete (j : Slot)
  /-- ERRMEM_CLEAR (R357). -/
  | errmemClear (j : Slot)
  /-- WATERMARK_NOW (R381). -/
  | watermarkNow (j : Slot)
  /-- ATTEST (R534). -/
  | attest (j : Slot)
  /-- DEBUG_ENTER (R527). -/
  | debugEnter (j : Slot)
  /-- DEBUG_EXIT (R528). -/
  | debugExit (j : Slot)
  /-- ENTER_RETURN (R520). `cut`: a power loss before its fuses are programmed: whether RETURNED was, and the input voltage in 0.1 V. -/
  | enterReturn (j : Slot) (cut : Option (Bool × Nat))
  /-- GET_CERT (R535). -/
  | getCert (j : Slot)
  /-- MARCH_PRESERVING (R276). -/
  | marchPreserving (j : Slot)
  /-- MARCH_DONE (R277). What the march found. -/
  | marchDone (d : Die) (rep : MarchReport)
  /-- READ_DIGESTS (R383). -/
  | readDigests (j : Slot)
  /-- READ_AGEING (R507). -/
  | readAgeing (j : Slot)
  /-- PREPARE_TIMEOUT (R424). -/
  | prepareTimeout (j : Slot) (part : Part)
  /-- SYNC (R226). -/
  | sync (j : Slot) (d : Die) (q : QueueNo)
  /-- MMA (R225). -/
  | mma (j : Slot) (d : Die) (l : Logical)
  /-- WEIGHT_BUFFER_SWAP (R58). The parity errors that the set and its rows meet at array entry. -/
  | weightBufferSwap (j : Slot) (d : Die) (l : Logical) (errs : List Parity)
  /-- SEGMENT_DRAIN (R65). The faults that have struck the segment. -/
  | segmentDrain (j : Slot) (d : Die) (l : Logical) (ups : List Upset)
  /-- RESIDUE_VOTE (R90). The faults that strike the replay. -/
  | residueVote (j : Slot) (d : Die) (l : Logical) (ups : List Upset)
  /-- SPECIALS_PASS (R84). The parity errors that the mask planes meet. -/
  | specialsPass (j : Slot) (d : Die) (l : Logical) (errs : List Parity)
  /-- OUTPUT_DRAIN (R70). -/
  | outputDrain (j : Slot) (d : Die) (l : Logical)
  /-- RECOMPUTE_SLOT (R71). -/
  | recomputeSlot (j : Slot) (d : Die) (l : Logical)
  /-- TBL (R106). -/
  | tbl (j : Slot) (d : Die) (l : Logical)
  /-- CONVERT (R301). -/
  | convert (j : Slot) (d : Die) (l : Logical)
  /-- ADD (R300). -/
  | add (j : Slot) (d : Die) (l : Logical)
  /-- MUL (R300). -/
  | mul (j : Slot) (d : Die) (l : Logical)
  /-- FMA (R300). -/
  | fma (j : Slot) (d : Die) (l : Logical)
  /-- AXPY (R311). -/
  | axpy (j : Slot) (d : Die) (l : Logical)
  /-- MEASURE_ENTRY (R313). -/
  | measureEntry (j : Slot) (d : Die) (l : Logical)
  /-- GELU (R300). -/
  | gelu (j : Slot) (d : Die) (l : Logical)
  /-- SILU (R300). -/
  | silu (j : Slot) (d : Die) (l : Logical)
  /-- EXP (R300). -/
  | exp (j : Slot) (d : Die) (l : Logical)
  /-- GELU_BWD (R300). -/
  | geluBwd (j : Slot) (d : Die) (l : Logical)
  /-- SILU_BWD (R300). -/
  | siluBwd (j : Slot) (d : Die) (l : Logical)
  /-- SUM (R303). -/
  | sum (j : Slot) (d : Die) (l : Logical)
  /-- MAX (R565). -/
  | max (j : Slot) (d : Die) (l : Logical)
  /-- MIN (R565). -/
  | min (j : Slot) (d : Die) (l : Logical)
  /-- ARGMAX (R565). -/
  | argmax (j : Slot) (d : Die) (l : Logical)
  /-- ARGMIN (R565). -/
  | argmin (j : Slot) (d : Die) (l : Logical)
  /-- SUMSQ (R318). -/
  | sumsq (j : Slot) (d : Die) (l : Logical)
  /-- LAYERNORM (R311). -/
  | layernorm (j : Slot) (d : Die) (l : Logical)
  /-- RMSNORM (R311). -/
  | rmsnorm (j : Slot) (d : Die) (l : Logical)
  /-- NORM_BWD (R311). -/
  | normBwd (j : Slot) (d : Die) (l : Logical)
  /-- NORM_PGRAD (R311). -/
  | normPgrad (j : Slot) (d : Die) (l : Logical)
  /-- SOFTMAX (R311). -/
  | softmax (j : Slot) (d : Die) (l : Logical)
  /-- SOFTMAX_BWD (R311). -/
  | softmaxBwd (j : Slot) (d : Die) (l : Logical)
  /-- LSE (R311). -/
  | lse (j : Slot) (d : Die) (l : Logical)
  /-- ADAM (R327). -/
  | adam (j : Slot) (d : Die) (l : Logical)
  /-- SGD (R327). -/
  | sgd (j : Slot) (d : Die) (l : Logical)
  /-- STASH_PACK (R323). -/
  | stashPack (j : Slot) (d : Die) (l : Logical)
  /-- STASH_UNPACK (R324). -/
  | stashUnpack (j : Slot) (d : Die) (l : Logical)
  /-- DROPOUT (R322). -/
  | dropout (j : Slot) (d : Die) (l : Logical)
  /-- DROPOUT_BWD (R322). -/
  | dropoutBwd (j : Slot) (d : Die) (l : Logical)
  /-- BS16_PACK (R341). -/
  | bs16Pack (j : Slot) (d : Die) (l : Logical)
  /-- BS16_UNPACK (R341). -/
  | bs16Unpack (j : Slot) (d : Die) (l : Logical)
  /-- SCATTER_ADD (R331). -/
  | scatterAdd (j : Slot) (d : Die) (l : Logical)
  /-- COUNT (R331). -/
  | count (j : Slot) (d : Die) (l : Logical)
  /-- SCATTER_SWAP (R331). -/
  | scatterSwap (j : Slot) (d : Die) (l : Logical)
  /-- MEASURE_FOLD (R312). -/
  | measureFold (j : Slot) (d : Die) (l : Logical)
  /-- RED (R344). -/
  | red (j : Slot) (d : Die)
  /-- RING_CHUNK_RECEIVE (R351). `bad`: the chunk fails its check. -/
  | ringChunkReceive (j : Slot) (d : Die) (bad : Bool)
  /-- RING_CREDIT_GRANT (R346). -/
  | ringCreditGrant (j : Slot) (d : Die)
  /-- RED_COMPLETE (R346). -/
  | redComplete (j : Slot) (d : Die)
  /-- RING_TIMEOUT (R359). -/
  | ringTimeout (j : Slot) (d : Die) (bucket : Nat)
  /-- PEER_CHECK (R430). The silent peer; do its heartbeats toggle, are its links up. -/
  | peerCheck (j : Slot) (d : Die) (beats : Bool) (links : Bool)
  /-- XFER (R239). What its larder reads for the attic meet. -/
  | xfer (j : Slot) (d : Die) (errs : List BurstErr)
  /-- XFER_COMPLETE (R226). -/
  | xferComplete (j : Slot) (d : Die) (idx : Nat) (errs : List BurstErr)
  /-- PWR (R241). -/
  | pwr (j : Slot) (d : Die)
  /-- YIELD (R243). -/
  | yield (j : Slot) (d : Die) (q : QueueNo)
  /-- YIELD_POINT (R245). -/
  | yieldPoint (j : Slot)
  /-- STEP_BOUNDARY (R245). -/
  | stepBoundary (j : Slot)
  /-- PHASE_BARRIER (R228). -/
  | phaseBarrier (j : Slot)
  /-- JOB_SPILL (R247). -/
  | jobSpill (j : Slot) (errs : List BurstErr)
  /-- JOB_RESUME (R247). -/
  | jobResume (j : Slot) (errs : List BurstErr)
  /-- WATERMARK (R363). -/
  | watermark (j : Slot)
  /-- ROLLBACK (R433). -/
  | rollback (j : Slot)
  /-- STEWARD_RUN (R158). -/
  | stewardRun (j : Slot)
  /-- HEARTBEAT_TIMEOUT (R410). `arrived`: the toggle is present at the evaluation edge. -/
  | heartbeatTimeout (d : Die) (p : Phys) (arrived : Bool)
  /-- CORE_RETIRE (R412). -/
  | coreRetire (d : Die) (p : Phys) (cause : Nat)
  /-- CORE_FILL (R417). -/
  | coreFill (d : Die) (katOk : Bool)
  /-- FILL_MAP_SWITCH (R24). -/
  | fillMapSwitch (d : Die)
  /-- FILL_READ_TIMEOUT (R418). `arrived`: read data is present at the evaluation edge. -/
  | fillReadTimeout (d : Die) (arrived : Bool)
  /-- DIE_SELF_TEST (R437). -/
  | dieSelfTest (d : Die)
  /-- DIE_SELF_TEST_DONE (R437). -/
  | dieSelfTestDone (d : Die) (ok : Bool)
  /-- LINK_FLIT_RECEIVE (R334). -/
  | linkFlitReceive (k : LinkEnd) (crcOk : Bool)
  /-- LINK_HANDSHAKE_TIMEOUT (R339). -/
  | linkHandshakeTimeout (k : LinkEnd) (arrived : Bool)
  /-- LINK_RETRAIN (R335). -/
  | linkRetrain (k : LinkNo) (ok : Bool)
  /-- ECC_WRITEBACK (R258). What the error logic does. -/
  | eccWriteback (b : BankNo) (e : EccEvent)
  /-- BANK_OWN_WRITE (R264). -/
  | bankOwnWrite (b : BankNo) (v : Nat)
  /-- HANDOVER_WRITE (R262). -/
  | handoverWrite (j : Slot) (b : BankNo)
  /-- BANK_PWR_REQ_WRITE (R271). -/
  | bankPwrReqWrite (b : BankNo) (v : Nat)
  /-- BANK_POWER_TRANSITION (R273). -/
  | bankPowerTransition (b : BankNo)
  /-- BANK_DBG_READ (R297). -/
  | bankDbgRead (b : BankNo)
  /-- BANK_DBG_WRITE (R297). -/
  | bankDbgWrite (b : BankNo) (v : Nat)
  /-- ARR_INJECT (R96). -/
  | arrInject (d : Die) (p : Phys) (a : Arr) (v : Nat)
  /-- PATROL_SCRUB (R281). -/
  | patrolScrub (g : Nat) (found : ScrubFind)
  /-- ATTIC_RESPONSE (R285). -/
  | atticResponse (k : Nat) (poison : Bool)
  /-- ATTIC_TIMEOUT (R286). -/
  | atticTimeout (k : Nat)
  /-- ATTIC_LINK_DOWN (R287). -/
  | atticLinkDown (x : Port)
  /-- RAMP_COMPLETE (R494). -/
  | rampComplete
  /-- BALLAST_ADJUST (R493). The draw of each die's work in W. -/
  | ballastAdjust (work : List Nat)
  /-- LINGER_EXPIRY (R496). -/
  | lingerExpiry (d : Die)
  /-- IDLE_TO_P1 (R486). -/
  | idleToP1
  /-- POWER_WAKE (R490). -/
  | powerWake
  /-- AGEING_SAMPLE (R503). The ring oscillators against the factory reference, in 0.1 %. -/
  | ageingSample (d : Die) (p : Phys) (dev : Nat)
  /-- SLACK_MEASURE (R505). Measured slack in 0.1 %. -/
  | slackMeasure (d : Die) (p : Phys) (slack : Nat)
  /-- AGEING_REPLAN (R504). The predicted operating voltage of each frequency for the islands listed. -/
  | ageingReplan (pred : List IslandPrediction)
  /-- SRAM_VMIN_MEASURE (R503). Minimum voltages in 5 mV units. -/
  | sramVminMeasure (b : BankNo) (op : Nat) (ret : Nat)
  /-- EYE_CHECK (R506). -/
  | eyeCheck (q : Nat) (width : Nat) (height : Nat) (minWidth : Nat) (retrainOk : Bool)
  /-- NEW_NONCE (R525). -/
  | newNonce
  /-- HALT (R523). The value written to SEC_HALT. -/
  | halt (w : Nat)
  /-- RESUME (R523). The value written to SEC_HALT. -/
  | resume (w : Nat)
  /-- JTAG_IDCODE (R521). -/
  | jtagIdcode
  /-- JTAG_BYPASS (R521). -/
  | jtagBypass (b : Bool)
  /-- JTAG_REG_READ (R521). -/
  | jtagRegRead (addr : Nat) (size : Nat)
  /-- JTAG_REG_WRITE (R521). -/
  | jtagRegWrite (addr : Nat) (size : Nat) (data : Nat)
  /-- JTAG_SCAN (R523). -/
  | jtagScan (d : Die) (p : Phys)
  /-- JTAG_HALT (R521). -/
  | jtagHalt (d : Die) (p : Phys)
  /-- JTAG_SAMPLE_PRELOAD (R521). -/
  | jtagSamplePreload (v : Nat)
  /-- JTAG_EXTEST (R521). -/
  | jtagExtest (v : Nat)
  /-- MBOX_GO (R537). -/
  | mboxGo
  /-- GET_STATE (R537). -/
  | getState (m : MboxMsg)
  /-- CLAIM (R519). `cut`: a power loss before CLAIMED is programmed: the input voltage in 0.1 V. -/
  | claim (m : MboxMsg) (cut : Option Nat)
  /-- MBOX_ATTEST (R537). -/
  | mboxAttest (m : MboxMsg)
  /-- MBOX_GET_CERT (R537). -/
  | mboxGetCert (m : MboxMsg)
  /-- MBOX_NEW_NONCE (R525). -/
  | mboxNewNonce (m : MboxMsg)
  /-- MBOX_DEBUG_ENTER (R526). -/
  | mboxDebugEnter (m : MboxMsg)
  /-- MBOX_DEBUG_EXIT (R528). -/
  | mboxDebugExit (m : MboxMsg)
  /-- FW_WRITE (R537). -/
  | fwWrite (m : MboxMsg)
  /-- FW_VERIFY (R537). -/
  | fwVerify (m : MboxMsg)
  /-- FW_ACTIVATE (R537). -/
  | fwActivate (m : MboxMsg)
  /-- SET_ENDPOINT_ID (R536). -/
  | setEndpointId (path : MctpPath) (eid : Nat)
  /-- GET_ENDPOINT_ID (R536). -/
  | getEndpointId (path : MctpPath)
  /-- GET_MCTP_VERSION_SUPPORT (R536). -/
  | getMctpVersionSupport (path : MctpPath) (ty : Nat)
  /-- GET_MESSAGE_TYPE_SUPPORT (R536). -/
  | getMessageTypeSupport (path : MctpPath)
  /-- SMBUS_ALERT_RESPONSE (R551). -/
  | smbusAlertResponse
  /-- ATTIC_PORT_RETRAIN (R287). -/
  | atticPortRetrain (x : Port) (ok : Bool) (bytes : Nat)
  /-- PREPARE_REPLY (R396). -/
  | prepareReply (j : Slot) (part : Part) (ok : Bool)
  /-- COPY_COMPLETE (R382). -/
  | copyComplete (j : Slot) (seq : Nat) (errs : List BurstErr)
deriving DecidableEq, Repr

end Sys2Proof
end

