-- ==== Sys2Proof/Machine/Bits.lean ====
section
/-!
DEFINITION. Bit fields, byte order (R10: little-endian, the byte at the lowest address holds bits [7:0]) and small
helpers over lists and numbers that every family uses.
-/
namespace Sys2Proof.Machine

/-- Bits [hi:lo] of a word, as a number (Table 0-6: inclusive, bit 0 least significant). -/
def bitsOf (w : Word) (hi lo : Nat) : Nat := w.toNat / 2 ^ lo % 2 ^ (hi + 1 - lo)

/-- The mask of bits [hi:lo]. -/
def bitMask (hi lo : Nat) : Word := BitVec.ofNat 64 ((2 ^ (hi + 1 - lo) - 1) * 2 ^ lo)

/-- A word with bits [hi:lo] replaced by the low bits of `v`. -/
def withBits (w : Word) (hi lo v : Nat) : Word :=
  (w &&& ~~~ bitMask hi lo) ||| (BitVec.ofNat 64 (v * 2 ^ lo) &&& bitMask hi lo)

/-- Bits [hi:lo] of a number. -/
def bitsN (n hi lo : Nat) : Nat := n / 2 ^ lo % 2 ^ (hi + 1 - lo)

/-- Bit `i` of a number. -/
def bitN (n i : Nat) : Bool := n / 2 ^ i % 2 == 1

/-- 1 for true, 0 for false. -/
def b2n (b : Bool) : Nat := if b then 1 else 0

/-- The `n` bytes of a number, lowest byte first (R10). -/
def bytesLE : Nat → Nat → List Byte
  | 0, _ => []
  | n + 1, v => BitVec.ofNat 8 v :: bytesLE n (v / 256)

/-- The number that bytes spell, lowest byte first (R10). -/
def natLE : List Byte → Nat
  | [] => 0
  | b :: bs => b.toNat + 256 * natLE bs

/-- The `n` bytes from offset `o` of a byte string, zero past its end, as a number. -/
def leAt (bs : List Byte) (o n : Nat) : Nat := natLE ((bs.drop o).take n)

/-- `n` zero bytes. -/
def zeros (n : Nat) : List Byte := List.replicate n 0

/-- A byte string with `n` bytes from offset `o` replaced by those of `v`. -/
def putAt (bs : List Byte) (o : Nat) (v : List Byte) : List Byte :=
  bs.take o ++ v ++ bs.drop (o + v.length)

/-- A byte string cut or zero-filled to `n` bytes. -/
def padTo (n : Nat) (bs : List Byte) : List Byte := bs.take n ++ zeros (n - bs.length)

/-- Round `a` up to a multiple of `m`. -/
def alignUp (a m : Nat) : Nat := (a + m - 1) / m * m

/-- Quotient rounded up. -/
def ceilDiv (a m : Nat) : Nat := (a + m - 1) / m

/-- The number of set bits of a mask of `n` bits. -/
def popcountN : Nat → Nat → Nat
  | 0, _ => 0
  | n + 1, m => m % 2 + popcountN n (m / 2)

/-- The positions of the set bits of a mask of `n` bits, ascending. -/
def maskBits (n m : Nat) : List Nat := (List.range n).filter (fun i => bitN m i)

/-- A mask with bit `i` set. -/
def orBit (m i : Nat) : Nat := if bitN m i then m else m + 2 ^ i

/-- A mask with bit `i` cleared. -/
def clearBit (m i : Nat) : Nat := if bitN m i then m - 2 ^ i else m

/-- Replace the entry at index `i`. -/
def listSet {α : Type} : List α → Nat → α → List α
  | [], _, _ => []
  | _ :: t, 0, v => v :: t
  | a :: t, i + 1, v => a :: listSet t i v

/-- Change the entry at index `i`. -/
def listMod {α : Type} : List α → Nat → (α → α) → List α
  | [], _, _ => []
  | a :: t, 0, f => f a :: t
  | a :: t, i + 1, f => a :: listMod t i f

/-- Insert into a list sorted by `key`, after equal keys. -/
def insertBy {α : Type} (key : α → Nat) (x : α) : List α → List α
  | [] => [x]
  | y :: t => if key x < key y then x :: y :: t else y :: insertBy key x t

/-- Sort by `key`, stable. -/
def sortBy {α : Type} (key : α → Nat) (l : List α) : List α :=
  l.foldr (fun x acc => insertByFront key x acc) []
where
  /-- Insert before equal keys (so that a right fold is stable). -/
  insertByFront (key : α → Nat) (x : α) : List α → List α
  | [] => [x]
  | y :: t => if key x ≤ key y then x :: y :: t else y :: insertByFront key x t

/-- The least entry under `key` (first of equals). -/
def minBy {α : Type} (key : α → Nat) : List α → Option α
  | [] => none
  | a :: t => match minBy key t with
    | none => some a
    | some b => if key a ≤ key b then some a else some b

/-- Cut a list into pieces of `n` entries (fuel: its length). -/
def chunksOf {α : Type} (n : Nat) (l : List α) : List (List α) :=
  go l.length l
where
  /-- At most `fuel` pieces. -/
  go : Nat → List α → List (List α)
  | 0, _ => []
  | fuel + 1, l => if l.isEmpty then [] else l.take n :: go fuel (l.drop n)

/-- The integer square root, by bisection on `fuel` bits. -/
def isqrt (n : Nat) : Nat :=
  go (n.log2 / 2 + 1) 0
where
  /-- Fix the bits of the root from bit `k - 1` down. -/
  go : Nat → Nat → Nat
  | 0, r => r
  | k + 1, r => if (r + 2 ^ k) * (r + 2 ^ k) ≤ n then go k (r + 2 ^ k) else go k r

end Sys2Proof.Machine
end

