-- ==== Sys2Proof/Machine/Float.lean ====
section
/-!
DEFINITION. Binary floating point on bit patterns (R100 to R102, R300): a pattern is decoded to an exact value, the exact
result of an operation is formed with integers, and one rounding encodes it.
-/
namespace Sys2Proof.Machine

/-- A floating-point format: exponent and fraction bits, bias, and whether it has infinities (E4M3 has none and one NaN
pattern, R100). -/
structure FFmt where
  eb   : Nat
  mb   : Nat
  bias : Int
  inf  : Bool
deriving DecidableEq, Repr

/-- IEEE 754 binary64. -/
def f64 : FFmt := ⟨11, 52, 1023, true⟩
/-- IEEE 754 binary32. -/
def f32 : FFmt := ⟨8, 23, 127, true⟩
/-- BF16. -/
def bf16 : FFmt := ⟨8, 7, 127, true⟩
/-- FP16. -/
def fp16 : FFmt := ⟨5, 10, 15, true⟩
/-- E5M2. -/
def e5m2 : FFmt := ⟨5, 2, 15, true⟩
/-- E4M3. -/
def e4m3 : FFmt := ⟨4, 3, 7, false⟩

/-- An exact value: a finite value is (-1)^neg × m × 2^e. -/
inductive FVal where
  | nan
  | inf (neg : Bool)
  | fin (neg : Bool) (m : Nat) (e : Int)
deriving DecidableEq, Repr

/-- Sign bit position. -/
def FFmt.signAt (f : FFmt) : Nat := f.eb + f.mb
/-- Pattern of +inf, or of the one NaN where the format has no infinity. -/
def FFmt.top (f : FFmt) : Nat := if f.inf then (2 ^ f.eb - 1) * 2 ^ f.mb else 2 ^ (f.eb + f.mb) - 1
/-- The canonical NaN (R101): quiet, sign 0, every other fraction bit 0; the one NaN pattern of E4M3. -/
def FFmt.nanBits (f : FFmt) : Nat := if f.inf then (2 ^ f.eb - 1) * 2 ^ f.mb + 2 ^ (f.mb - 1) else f.top
/-- Pattern of the largest finite value. -/
def FFmt.maxBits (f : FFmt) : Nat := f.top - 1
/-- Exponent of the least subnormal. -/
def FFmt.tiny (f : FFmt) : Int := 1 - f.bias - (f.mb : Int)

/-- The value of a pattern. -/
def FFmt.dec (f : FFmt) (w : Nat) : FVal :=
  let neg := bitN w f.signAt
  let x := w % 2 ^ f.signAt
  let ex := x / 2 ^ f.mb
  let fr := x % 2 ^ f.mb
  if f.top ≤ x then (if x = f.top && f.inf then .inf neg else .nan)
  else if ex = 0 then .fin neg fr f.tiny
  else .fin neg (2 ^ f.mb + fr) ((ex : Int) - 1 + f.tiny)

/-- Rounding of a magnitude (R124): nearest even, toward zero, or stochastic with a 16-bit draw (R125). -/
inductive Rnd where
  | rne
  | trunc
  | stoch (u : Nat)
deriving DecidableEq, Repr

/-- `m` divided by 2^k, rounded. -/
def roundShift (r : Rnd) (m k : Nat) : Nat :=
  let q := m / 2 ^ k
  let rest := m % 2 ^ k
  match r with
  | .rne => if 2 ^ k < 2 * rest || (2 * rest == 2 ^ k && q % 2 == 1) then q + 1 else q
  | .trunc => q
  | .stoch u => if u < rest * 65536 / 2 ^ k then q + 1 else q

/-- m × 2^e as a multiple of 2^t, rounded. -/
def roundAt (r : Rnd) (m : Nat) (e t : Int) : Nat :=
  if t ≤ e then m * 2 ^ (e - t).toNat else roundShift r m (t - e).toNat

/-- Magnitude pattern of m × 2^e rounded into a format with an unbounded exponent above: a pattern at or above `top` is
beyond the range (R126). -/
def FFmt.roundMag (f : FFmt) (r : Rnd) (m : Nat) (e : Int) : Nat :=
  if m = 0 then 0 else
  let t := max ((m.log2 : Int) + e - (f.mb : Int)) f.tiny
  ((t - f.tiny).toNat) * 2 ^ f.mb + roundAt r m e t

/-- Encode a value under round-to-nearest-even; overflow gives infinity (the canonical NaN where there is none). -/
def FFmt.enc (f : FFmt) (v : FVal) : Nat :=
  match v with
  | .nan => f.nanBits
  | .inf neg => if f.inf then b2n neg * 2 ^ f.signAt + f.top else f.nanBits
  | .fin neg m e =>
    let x := f.roundMag .rne m e
    b2n neg * 2 ^ f.signAt + min x f.top

/-- A signed mantissa. -/
def smant (neg : Bool) (m : Nat) : Int := if neg then -(m : Int) else (m : Int)

/-- Exact sum; an exact zero of unlike signs is +0. -/
def FVal.add : FVal → FVal → FVal
  | .nan, _ => .nan
  | _, .nan => .nan
  | .inf a, .inf b => if a = b then .inf a else .nan
  | .inf a, _ => .inf a
  | _, .inf b => .inf b
  | .fin na ma ea, .fin nb mb eb =>
    let e := min ea eb
    let x := smant na ma * 2 ^ (ea - e).toNat + smant nb mb * 2 ^ (eb - e).toNat
    if x = 0 then .fin (na && nb) 0 e else .fin (decide (x < 0)) x.natAbs e

/-- Negation. -/
def FVal.neg : FVal → FVal
  | .nan => .nan
  | .inf a => .inf (!a)
  | .fin n m e => .fin (!n) m e

/-- Exact product. -/
def FVal.mul : FVal → FVal → FVal
  | .nan, _ => .nan
  | _, .nan => .nan
  | .inf a, .inf b => .inf (a != b)
  | .inf a, .fin n m _ => if m = 0 then .nan else .inf (a != n)
  | .fin n m _, .inf b => if m = 0 then .nan else .inf (n != b)
  | .fin na ma ea, .fin nb mb eb => .fin (na != nb) (ma * mb) (ea + eb)

/-- Quotient to 160 bits with a sticky bit: enough for one correct rounding to any format here. -/
def FVal.div : FVal → FVal → FVal
  | .nan, _ => .nan
  | _, .nan => .nan
  | .inf _, .inf _ => .nan
  | .inf a, .fin n _ _ => .inf (a != n)
  | .fin n _ e, .inf b => .fin (n != b) 0 e
  | .fin na ma ea, .fin nb mb eb =>
    if mb = 0 then (if ma = 0 then .nan else .inf (na != nb))
    else
      let num := ma * 2 ^ 160
      .fin (na != nb) (2 * (num / mb) + b2n (num % mb != 0)) (ea - eb - 161)

/-- Square root with a sticky bit. -/
def FVal.sqrt : FVal → FVal
  | .nan => .nan
  | .inf neg => if neg then .nan else .inf false
  | .fin neg m e =>
    if m = 0 then .fin neg 0 e
    else if neg then .nan
    else
      let odd := (e % 2).toNat
      let x := m * 2 ^ odd * 2 ^ 160
      let r := isqrt x
      .fin false (2 * r + b2n (r * r != x)) ((e - odd) / 2 - 81)

/-- a + b, rounded once. -/
def FFmt.add (f : FFmt) (a b : Nat) : Nat := f.enc ((f.dec a).add (f.dec b))
/-- a - b. -/
def FFmt.sub (f : FFmt) (a b : Nat) : Nat := f.enc ((f.dec a).add (f.dec b).neg)
/-- a × b. -/
def FFmt.mul (f : FFmt) (a b : Nat) : Nat := f.enc ((f.dec a).mul (f.dec b))
/-- a / b, correctly rounded. -/
def FFmt.div (f : FFmt) (a b : Nat) : Nat := f.enc ((f.dec a).div (f.dec b))
/-- a × b + c, rounded once. -/
def FFmt.fma (f : FFmt) (a b c : Nat) : Nat := f.enc (((f.dec a).mul (f.dec b)).add (f.dec c))
/-- Square root, correctly rounded. -/
def FFmt.sqrt (f : FFmt) (a : Nat) : Nat := f.enc (f.dec a).sqrt
/-- The pattern of an integer. -/
def FFmt.ofInt (f : FFmt) (x : Int) : Nat := f.enc (.fin (decide (x < 0)) x.natAbs 0)
/-- Multiply by 2^k. -/
def FVal.scale (v : FVal) (k : Int) : FVal :=
  match v with
  | .fin n m e => .fin n m (e + k)
  | v => v

/-- Compare exact values that are not NaN: is a < b? -/
def FVal.lt : FVal → FVal → Bool
  | .nan, _ => false
  | _, .nan => false
  | .inf a, .inf b => a && !b
  | .inf a, _ => a
  | _, .inf b => !b
  | .fin na ma ea, .fin nb mb eb =>
    let e := min ea eb
    decide (smant na ma * 2 ^ (ea - e).toNat < smant nb mb * 2 ^ (eb - e).toNat)

/-- Is a ≤ b (false on NaN)? -/
def FVal.le (a b : FVal) : Bool := a != .nan && b != .nan && !b.lt a

/-- floor(log2 |v|) of a finite non-zero value. -/
def FVal.log2 : FVal → Option Int
  | .fin _ m e => if m = 0 then none else some ((m.log2 : Int) + e)
  | _ => none

/-- Is the pattern NaN or infinite? -/
def FFmt.nonfinite (f : FFmt) (w : Nat) : Bool := decide (f.top ≤ w % 2 ^ f.signAt)

end Sys2Proof.Machine
end

