-- ==== Sys2Proof/Config.lean ====
section
/-!
DEFINITION. What an implementation fixes and what the spec leaves open. Every constant here is opaque: nothing can
evaluate it, so a claim that holds, holds whatever it is (log entries 2 and 10 to 12).
-/
namespace Sys2Proof.Config

/-- A fresh open value: the n-th one drawn. -/
opaque freeBits : Nat → Word

/-- Open contents of a memory range (R427, R453, R461): (offset, byte) cells and poisoned granules, for the n-th draw. -/
opaque openCells : Nat → List (Nat × Byte)
opaque openPoison : Nat → List Nat

/-- The choice, for each FP32 input, among the values within 1 ulp that R300 allows exp, the natural logarithm, the inverse square
root, GELU and SiLU, and their value where the spec states none; the values of the derivatives of GELU and SiLU (log entry 10). -/
opaque expFn   : Nat → Nat
opaque logFn   : Nat → Nat
opaque rsqrtFn : Nat → Nat
opaque geluFn  : Nat → Nat
opaque siluFn  : Nat → Nat
opaque dgeluFn : Nat → Nat
opaque dsiluFn : Nat → Nat

/-- The fuse secret and the response of the physically unclonable function (Table 14-1). -/
opaque fuseSecret : List Byte
opaque pufResponse : List Byte
/-- ML-DSA-65 verification (R515, R524): key, digest, signature. -/
opaque verify : List Byte → List Byte → List Byte → Bool
/-- ML-DSA-65 (Table 14-1): the signature of 3,309 B by the key pair that a seed gives, over a digest (R534, R535, R456), and the
public key of that pair. -/
opaque sign : List Byte → List Byte → List Byte
opaque publicKey : List Byte → List Byte
/-- The Avouhild firmware key and debug key (R515, R524). -/
opaque firmwareKey : List Byte
opaque debugKey : List Byte
/-- Certificates of types 1 to 3 (R535). -/
opaque certificate : Nat → List Byte
/-- ROM version (4 B), Musko version (8 B) and serial number (32 B) of the identity page (R517, R568). -/
opaque romVersion : Nat
opaque fwVersion : List Byte
opaque serial : List Byte
/-- What the 256 B header of a firmware image says, in a layout that R515 leaves open: SVN, image length, stepping. -/
opaque imageSvn : List Byte → Nat
opaque imageLen : List Byte → Nat
opaque imageStepping : List Byte → Nat
/-- VERSION of a job certificate (R535). -/
opaque jobCertVersion : Nat
/-- The version entries with which the module answers Get MCTP Version Support for a message type (R536). -/
opaque mctpVersions : Nat → List Byte
/-- Digests of the dies' microcode (R516, R517). -/
opaque microcodeDigest : Nat → List Byte
/-- Order code: true for F9M-128-4T, false for F9M-128-2T (Table 0-1). -/
opaque fourTiB : Bool
/-- The JTAG device identification code (R521). -/
opaque idcode : Nat
/-- The module's PCI vendor identifier (R536). -/
opaque vendorId : Nat

/-- The factory's choice of the spare of quadrant q of die d, under d × 4 + q (R17). -/
opaque spareChoice : Nat → Nat
/-- F_MAX of a new island beyond 1,750 MHz, under d × 100 + p (R504). -/
opaque newFmax : Nat → Nat

end Sys2Proof.Config
end

