-- ==== Sys2Proof/Machine/Digest.lean ====
section
/-!
DEFINITION. The digests and checks that the module computes: SHAKE256 (FIPS 202, named by R360, R363, R444 and R512) and
CRC-32C (R340), each over a byte string.
-/
namespace Sys2Proof.Machine

/-! ## SHAKE256 -/

/-- Rotate a 64-bit lane left. -/
def rotl64 (w : Word) (n : Nat) : Word := w.rotateLeft n

/-- Rotation offsets of ρ by lane x + 5 y. -/
def keccakRho : List Nat :=
  [0, 1, 62, 28, 27, 36, 44, 6, 55, 20, 3, 10, 43, 25, 39, 41, 45, 15, 21, 8, 18, 2, 61, 56, 14]

/-- Round constants of ι. -/
def keccakRc : List Nat :=
  [0x0000000000000001, 0x0000000000008082, 0x800000000000808A, 0x8000000080008000, 0x000000000000808B,
   0x0000000080000001, 0x8000000080008081, 0x8000000000008009, 0x000000000000008A, 0x0000000000000088,
   0x0000000080008009, 0x000000008000000A] ++
  [0x000000008000808B, 0x800000000000008B, 0x8000000000008089, 0x8000000000008003, 0x8000000000008002,
   0x8000000000000080, 0x000000000000800A, 0x800000008000000A, 0x8000000080008081, 0x8000000000008080,
   0x0000000080000001, 0x8000000080008008]

/-- One round of Keccak-f[1600] on 25 lanes. -/
def keccakRound (a : List Word) (rc : Nat) : List Word :=
  let g := fun (l : List Word) (x y : Nat) => l.getD (x % 5 + 5 * (y % 5)) 0
  let c := (List.range 5).map (fun x => g a x 0 ^^^ g a x 1 ^^^ g a x 2 ^^^ g a x 3 ^^^ g a x 4)
  let d := (List.range 5).map (fun x => c.getD ((x + 4) % 5) 0 ^^^ rotl64 (c.getD ((x + 1) % 5) 0) 1)
  let t := (List.range 25).map (fun i => rotl64 (a.getD i 0 ^^^ d.getD (i % 5) 0) (keccakRho.getD i 0))
  -- π: lane (x, y) comes from lane ((x + 3 y) mod 5, x)
  let b := (List.range 25).map (fun i => g t (i % 5 + 3 * (i / 5)) (i % 5))
  let e := (List.range 25).map (fun i => b.getD i 0 ^^^ (~~~ g b (i % 5 + 1) (i / 5) &&& g b (i % 5 + 2) (i / 5)))
  listSet e 0 (e.getD 0 0 ^^^ BitVec.ofNat 64 rc)

/-- Keccak-f[1600]. -/
def keccakF (a : List Word) : List Word := keccakRc.foldl keccakRound a

/-- Lanes of a byte string, eight bytes each. -/
def lanesOf (bs : List Byte) : List Word := (chunksOf 8 bs).map (fun c => BitVec.ofNat 64 (natLE c))

/-- Absorb one 136-byte block. -/
def keccakAbsorb (a : List Word) (block : List Byte) : List Word :=
  let ls := lanesOf block
  keccakF ((List.range 25).map (fun i => a.getD i 0 ^^^ ls.getD i 0))

/-- The padded message: 0x1F, zeros, 0x80 on the last byte of the last 136-byte block. -/
def shakePad (bs : List Byte) : List Byte :=
  let n := 136 - bs.length % 136
  bs ++ (if n = 1 then [0x9F] else 0x1F :: zeros (n - 2) ++ [0x80])

/-- Squeeze `k` blocks. -/
def keccakSqueeze : Nat → List Word → List Byte
  | 0, _ => []
  | k + 1, a => (a.take 17).flatMap (fun w => bytesLE 8 w.toNat) ++ keccakSqueeze k (keccakF a)

/-- SHAKE256 of a byte string, `n` bytes long. -/
def shake256 (bs : List Byte) (n : Nat) : List Byte :=
  let a := (chunksOf 136 (shakePad bs)).foldl keccakAbsorb (List.replicate 25 0)
  (keccakSqueeze (ceilDiv n 136) a).take n

/-- The bytes of an ASCII label. -/
def ascii (t : String) : List Byte := t.toList.map (fun c => BitVec.ofNat 8 c.toNat)

/-- The ML-DSA-65 signature of 3,309 B over the 512-bit digest of some bytes, by the key pair that a seed gives (R456, Table 14-8,
R535). -/
def signature (seed bs : List Byte) : List Byte := padTo 3309 (Config.sign seed (shake256 bs 64))

/-! ## CRC-32C -/

/-- One bit of the reflected Castagnoli polynomial. -/
def crcBit (c : Nat) : Nat := if c % 2 = 1 then (c / 2) ^^^ 0x82F63B78 else c / 2

/-- One byte of CRC-32C. -/
def crcByte (c : Nat) (b : Byte) : Nat := (List.range 8).foldl (fun c _ => crcBit c) (c ^^^ b.toNat)

/-- CRC-32C of a byte string. -/
def crc32c (bs : List Byte) : Nat := bs.foldl crcByte 0xFFFFFFFF ^^^ 0xFFFFFFFF

end Sys2Proof.Machine
end

