-- ==== Sys2Proof/Machine/Regs.lean ====
section
/-!
DEFINITION. The register tables of BAR0, row by row as the spec's chapters print them: where each register stands, its
width, its reset value and which of its bits a host write sets (RW), clears (W1C) or loads (WO), R13. Every named field
is an `Fld`. Reserved bits belong to no mask, so they read as zero and writes do not touch them (R11).
-/
namespace Sys2Proof.Machine

/-- The block of BAR0 a register table describes: hub-side ranges by absolute offset (Table 1-9), the window of a
compute die (Table 1-10), a physical core's block (Table 1-11), an array's or a bank's block. -/
inductive Blk where
  | hub | die | core | arr | bank
deriving DecidableEq, Repr

/-- One row of a register table. `count` registers stand `stride` bytes apart from `off` on. -/
structure RegRow where
  blk    : Blk
  off    : Nat
  stride : Nat
  count  : Nat
  width  : Nat
  reset  : Nat
  rw     : Nat
  w1c    : Nat
  wo     : Nat
deriving DecidableEq, Repr

/-- A field of a register: its row's place in its block and its bit range. -/
structure Fld where
  off    : Nat
  stride : Nat
  hi     : Nat
  lo     : Nat
deriving DecidableEq, Repr

/-- Register rows of the hub block, part 1. -/
def hubRows1 : List RegRow := [
  ⟨.hub, 0x0, 0x0, 1, 32, 0x0, 0x0, 0x0, 0x0⟩,  -- HUB_STATUS
  ⟨.hub, 0x8, 0x0, 1, 64, 0x0, 0x0, 0x0, 0x0⟩,  -- HUB_TIMESTAMP
  ⟨.hub, 0x10, 0x0, 1, 64, 0x0, 0x0, 0x0, 0x0⟩,  -- HUB_BRINGUP
  ⟨.hub, 0x18, 0x0, 1, 32, 0x0, 0x0, 0x0, 0x0⟩,  -- HUB_RESET_CAUSE
  ⟨.hub, 0x48, 0x8, 9, 64, 0x0, 0x0, 0x0, 0x0⟩,  -- HUB_BRINGUP_T
  ⟨.hub, 0x200, 0x0, 1, 32, 0x0, 0x1ff, 0x0, 0x0⟩,  -- HUB_BAR2_WIN
  ⟨.hub, 0x208, 0x0, 1, 64, 0x0, 0x0, 0x1, 0x0⟩,  -- HUB_BAR2_ERR
  ⟨.hub, 0x400, 0x0, 1, 32, 0x0, 0x0, 0x0, 0x0⟩,  -- HUB_STW_STAT
  ⟨.hub, 0x408, 0x0, 1, 64, 0x0, 0x0, 0x0, 0x0⟩,  -- HUB_STW_CNT_RUNS
  ⟨.hub, 0x410, 0x0, 1, 64, 0x0, 0x0, 0x0, 0x0⟩,  -- HUB_STW_CNT_SWITCHES
  ⟨.hub, 0x418, 0x0, 1, 64, 0x0, 0x0, 0x0, 0x0⟩,  -- HUB_STW_CNT_ZRUN
  ⟨.hub, 0x420, 0x0, 1, 64, 0x0, 0x0, 0x0, 0x0⟩,  -- HUB_STW_CNT_SKIPPED
  ⟨.hub, 0x428, 0x0, 1, 64, 0x0, 0x0, 0x0, 0x0⟩,  -- HUB_STW_CNT_LS
  ⟨.hub, 0x500, 0x0, 1, 32, 0x0, 0x0, 0x0, 0x0⟩,  -- HUB_LDR_STAT
  ⟨.hub, 0x508, 0x0, 1, 64, 0x0, 0x0, 0x8000000000000000, 0x0⟩,  -- HUB_LDR_REJ
  ⟨.hub, 0x510, 0x0, 1, 64, 0x0, 0x0, 0x0, 0x0⟩,  -- HUB_LDR_CNT_PASSED
  ⟨.hub, 0x518, 0x0, 1, 64, 0x0, 0x0, 0x0, 0x0⟩,  -- HUB_LDR_CNT_REJECTED
  ⟨.hub, 0x520, 0x0, 1, 64, 0x0, 0x0, 0x0, 0x0⟩,  -- HUB_LDR_CNT_RUNREJ
  ⟨.hub, 0x528, 0x0, 1, 32, 0x0, 0x0, 0x0, 0x0⟩,  -- HUB_LDR_REJ_SEC
  ⟨.hub, 0x600, 0x0, 1, 32, 0x1f41, 0x1fffff, 0x0, 0x0⟩,  -- HUB_SLICE_CTRL
  ⟨.hub, 0x608, 0x0, 1, 64, 0x0, 0x0, 0x0, 0x0⟩,  -- HUB_SLICE_STAT
  ⟨.hub, 0x610, 0x0, 1, 64, 0x0, 0x0, 0x0, 0x0⟩,  -- HUB_SLICE_CNT_HANDOVERS
  ⟨.hub, 0x618, 0x0, 1, 64, 0x0, 0x0, 0x0, 0x0⟩,  -- HUB_SLICE_CNT_BYTES
  ⟨.hub, 0x800, 0x20, 64, 64, 0x0, 0x0, 0x0, 0x0⟩  -- HUB_JOB_STREAM_RKEY
]

/-- Register rows of the hub block, part 2. -/
def hubRows2 : List RegRow := [
  ⟨.hub, 0x808, 0x20, 64, 64, 0x0, 0x0, 0x0, 0x0⟩,  -- HUB_JOB_STREAM_RSTEP
  ⟨.hub, 0x810, 0x20, 64, 64, 0x0, 0x0, 0x0, 0x0⟩,  -- HUB_JOB_STREAM_MB
  ⟨.hub, 0x818, 0x20, 64, 64, 0x0, 0x0, 0x0, 0x0⟩,  -- HUB_JOB_STREAM_OSTEP
  ⟨.hub, 0x1000, 0x10, 64, 32, 0x21, 0x1ffff, 0x0, 0x0⟩,  -- HUB_WM_CTRL
  ⟨.hub, 0x1008, 0x10, 64, 64, 0x0, 0x0, 0x0, 0x0⟩,  -- HUB_WM_STAT
  ⟨.hub, 0x1400, 0x0, 1, 32, 0x42, 0xff, 0x0, 0x0⟩,  -- HUB_FLT_CTRL
  ⟨.hub, 0x1410, 0x8, 4, 64, 0x0, 0x0, 0x0, 0x0⟩,  -- HUB_DIE_STATE
  ⟨.hub, 0x1500, 0x8, 64, 64, 0x1, 0x1, 0x0, 0x0⟩,  -- HUB_FLT_JOB
  ⟨.hub, 0x1700, 0x0, 1, 64, 0x0, 0x0, 0x0, 0x0⟩,  -- HUB_FLT_CNT_RETIRED
  ⟨.hub, 0x1708, 0x0, 1, 64, 0x0, 0x0, 0x0, 0x0⟩,  -- HUB_FLT_CNT_FAILED
  ⟨.hub, 0x1710, 0x0, 1, 64, 0x0, 0x0, 0x0, 0x0⟩,  -- HUB_FLT_CNT_FILLS
  ⟨.hub, 0x1718, 0x0, 1, 64, 0x0, 0x0, 0x0, 0x0⟩,  -- HUB_FLT_CNT_DIE_OUT
  ⟨.hub, 0x1720, 0x0, 1, 64, 0x0, 0x0, 0x0, 0x0⟩,  -- HUB_FLT_CNT_EXPELLED
  ⟨.hub, 0x1728, 0x0, 1, 64, 0x0, 0x0, 0x0, 0x0⟩,  -- HUB_FLT_CNT_ROLLBACKS
  ⟨.hub, 0x1730, 0x0, 1, 64, 0x0, 0x0, 0x0, 0x0⟩,  -- HUB_FLT_CNT_HOLDS
  ⟨.hub, 0x1738, 0x0, 1, 64, 0x0, 0x0, 0x0, 0x0⟩,  -- HUB_FLT_CNT_LATE
  ⟨.hub, 0x1800, 0x0, 1, 32, 0x0, 0x0, 0x0, 0x0⟩,  -- HUB_SB_STAT
  ⟨.hub, 0x1808, 0x0, 1, 64, 0x0, 0x0, 0x0, 0x0⟩,  -- HUB_SB_CNT_GLITCH
  ⟨.hub, 0x1810, 0x0, 1, 64, 0x0, 0x0, 0x0, 0x0⟩,  -- HUB_SB_CNT_SMB
  ⟨.hub, 0x100000, 0x0, 1, 32, 0x804001, 0x0, 0x0, 0x0⟩,  -- KGR_ID
  ⟨.hub, 0x100010, 0x0, 1, 32, 0x0, 0x0, 0x0, 0x3f⟩,  -- KGR_JOB_RESET
  ⟨.hub, 0x100018, 0x0, 1, 32, 0x7f, 0x7f, 0x0, 0x0⟩,  -- KGR_MOD_VEC
  ⟨.hub, 0x101000, 0x80, 64, 64, 0x0, 0xfffffffffffff000, 0x0, 0x0⟩,  -- KGR_SQ_BASE
  ⟨.hub, 0x101008, 0x80, 64, 64, 0x0, 0xfffffffffffff000, 0x0, 0x0⟩  -- KGR_CQ_BASE
]

/-- Register rows of the hub block, part 3. -/
def hubRows3 : List RegRow := [
  ⟨.hub, 0x101010, 0x80, 64, 64, 0x0, 0xfffffffffffff000, 0x0, 0x0⟩,  -- KGR_EVT_BASE
  ⟨.hub, 0x101018, 0x80, 64, 32, 0xccc, 0x3fffff, 0x0, 0x0⟩,  -- KGR_QCFG
  ⟨.hub, 0x101020, 0x80, 64, 32, 0x0, 0xffffffff, 0x0, 0x0⟩,  -- KGR_SEQ_START
  ⟨.hub, 0x101028, 0x80, 64, 64, 0x0, 0x0, 0x20, 0x0⟩,  -- KGR_QSTAT
  ⟨.hub, 0x101030, 0x80, 64, 32, 0x0, 0x0, 0x0, 0x0⟩,  -- KGR_SEQ_NEXT
  ⟨.hub, 0x101040, 0x80, 64, 64, 0x0, 0x0, 0x0, 0x0⟩,  -- KGR_CNT_CMDS
  ⟨.hub, 0x101048, 0x80, 64, 64, 0x0, 0x0, 0x0, 0x0⟩,  -- KGR_CNT_GRAZED
  ⟨.hub, 0x101050, 0x80, 64, 64, 0x0, 0x0, 0x0, 0x0⟩,  -- KGR_CNT_DEADLINE
  ⟨.hub, 0x101058, 0x80, 64, 64, 0x0, 0x0, 0x0, 0x0⟩,  -- KGR_CNT_EVT_LOST
  ⟨.hub, 0x101060, 0x80, 64, 64, 0x0, 0x0, 0x0, 0x0⟩,  -- KGR_CNT_CQ_WAIT
  ⟨.hub, 0x180000, 0x10, 64, 32, 0x0, 0xfff, 0x0, 0x0⟩,  -- KGR_SQ_TAIL
  ⟨.hub, 0x180004, 0x10, 64, 32, 0x0, 0xfff, 0x0, 0x0⟩,  -- KGR_CQ_HEAD
  ⟨.hub, 0x180008, 0x10, 64, 32, 0x0, 0xffff, 0x0, 0x0⟩,  -- KGR_EVT_HEAD
  ⟨.hub, 0x200000, 0x0, 1, 32, 0x0, 0x0, 0x0, 0x0⟩,  -- SEC_STAT
  ⟨.hub, 0x200008, 0x0, 1, 32, 0x0, 0x0, 0x0, 0x1⟩,  -- SEC_CTRL
  ⟨.hub, 0x200010, 0x8, 4, 64, 0x0, 0x0, 0x0, 0x0⟩,  -- SEC_NONCE
  ⟨.hub, 0x200040, 0x8, 4, 64, 0x0, 0x0, 0x0, 0x0⟩,  -- SEC_DEVICE_ID
  ⟨.hub, 0x200100, 0x8, 64, 64, 0x0, 0x0, 0x0, 0x0⟩,  -- SEC_MEAS
  ⟨.hub, 0x200300, 0x0, 1, 32, 0x0, 0x0, 0x0, 0xfff⟩,  -- SEC_HALT
  ⟨.hub, 0x200400, 0x0, 1, 32, 0x0, 0xfff, 0x0, 0x0⟩,  -- SEC_TRACE_CTRL
  ⟨.hub, 0x200408, 0x0, 1, 64, 0x0, 0x0, 0x0, 0x0⟩,  -- SEC_TRACE_STAT
  ⟨.hub, 0x200500, 0x0, 1, 32, 0x0, 0x0, 0x0, 0x1⟩,  -- SEC_MBOX_CTRL
  ⟨.hub, 0x200508, 0x0, 1, 32, 0x0, 0x0, 0x2, 0x0⟩,  -- SEC_MBOX_STAT
  ⟨.hub, 0x200600, 0x0, 1, 32, 0x0, 0x0, 0x3f, 0x0⟩  -- SEC_ALERT
]

/-- Register rows of the hub block, part 4. -/
def hubRows4 : List RegRow := [
  ⟨.hub, 0x200608, 0x0, 1, 32, 0x3f, 0x3f, 0x0, 0x0⟩,  -- SEC_ALERT_EN
  ⟨.hub, 0x200700, 0x0, 1, 64, 0x0, 0x0, 0x0, 0x0⟩,  -- SEC_CNT_TOKENS_OK
  ⟨.hub, 0x200708, 0x0, 1, 64, 0x0, 0x0, 0x0, 0x0⟩,  -- SEC_CNT_TOKENS_REJ
  ⟨.hub, 0x200710, 0x0, 1, 64, 0x0, 0x0, 0x0, 0x0⟩,  -- SEC_CNT_SIGNS
  ⟨.hub, 0x200718, 0x0, 1, 64, 0x0, 0x0, 0x0, 0x0⟩,  -- SEC_CNT_VERIFIES
  ⟨.hub, 0x200720, 0x0, 1, 64, 0x0, 0x0, 0x0, 0x0⟩,  -- SEC_CNT_MBOX
  ⟨.hub, 0x300000, 0x0, 1, 64, 0x0, 0x0, 0x0, 0x0⟩,  -- PWR_STAT
  ⟨.hub, 0x300008, 0x0, 1, 32, 0x352, 0x0, 0x0, 0x0⟩,  -- PWR_CAP
  ⟨.hub, 0x300010, 0x0, 1, 32, 0x7d00fa0, 0xffffffff, 0x0, 0x0⟩,  -- PWR_CTRL
  ⟨.hub, 0x300020, 0x8, 4, 64, 0x0, 0x0, 0x0, 0x0⟩,  -- PWR_DIE
  ⟨.hub, 0x300040, 0x0, 1, 32, 0x0, 0x0, 0x3f, 0x0⟩,  -- PWR_ALERT
  ⟨.hub, 0x300048, 0x0, 1, 32, 0x3f, 0x3f, 0x0, 0x0⟩,  -- PWR_ALERT_EN
  ⟨.hub, 0x300050, 0x0, 1, 64, 0x0, 0x0, 0x0, 0x0⟩,  -- PWR_TEMP
  ⟨.hub, 0x300080, 0x0, 1, 64, 0x0, 0x0, 0x0, 0x0⟩,  -- PWR_CNT_BALLAST_MJ
  ⟨.hub, 0x300088, 0x0, 1, 64, 0x0, 0x0, 0x0, 0x0⟩,  -- PWR_CNT_THROTTLE_US
  ⟨.hub, 0x300090, 0x0, 1, 64, 0x0, 0x0, 0x0, 0x0⟩,  -- PWR_CNT_GAP_US
  ⟨.hub, 0x300098, 0x0, 1, 64, 0x0, 0x0, 0x0, 0x0⟩,  -- PWR_CNT_GRANTS
  ⟨.hub, 0x3000a0, 0x0, 1, 64, 0x0, 0x0, 0x0, 0x0⟩,  -- PWR_CNT_RAMP_WAIT_US
  ⟨.hub, 0x310000, 0x0, 1, 64, 0x3f80000000000000, 0x0, 0x0, 0x0⟩,  -- AGE_STAT
  ⟨.hub, 0x310008, 0x0, 1, 32, 0x718, 0xffff, 0x0, 0x0⟩,  -- AGE_CTRL
  ⟨.hub, 0x310010, 0x0, 1, 64, 0x0, 0x0, 0x0, 0x0⟩,  -- AGE_CNT_REPLANS
  ⟨.hub, 0x310018, 0x0, 1, 64, 0x0, 0x0, 0x0, 0x0⟩,  -- AGE_CNT_FAST_DROP
  ⟨.hub, 0x310020, 0x0, 1, 64, 0x0, 0x0, 0x0, 0x0⟩,  -- AGE_POWERED_S
  ⟨.hub, 0x311000, 0x8, 400, 64, 0x0, 0x0, 0x0, 0x0⟩  -- AGE_ISL
]

/-- Register rows of the hub block, part 5. -/
def hubRows5 : List RegRow := [
  ⟨.hub, 0x400000, 0x40, 32, 32, 0x0, 0x0, 0x4, 0x0⟩,  -- LDR_DEV_STAT
  ⟨.hub, 0x400010, 0x40, 32, 64, 0x0, 0x0, 0x0, 0x0⟩,  -- LDR_DEV_CNT_CE
  ⟨.hub, 0x400018, 0x40, 32, 64, 0x0, 0x0, 0x0, 0x0⟩,  -- LDR_DEV_CNT_UE
  ⟨.hub, 0x400020, 0x40, 32, 64, 0x0, 0x0, 0x0, 0x0⟩,  -- LDR_DEV_CNT_RETRY
  ⟨.hub, 0x400800, 0x0, 1, 32, 0x31, 0x1ff, 0x0, 0x0⟩,  -- LDR_SCRUB
  ⟨.hub, 0x400810, 0x0, 1, 64, 0x0, 0x0, 0x1, 0x0⟩,  -- LDR_POISON_LOG
  ⟨.hub, 0x410000, 0x100, 2, 32, 0x0, 0x0, 0x10, 0x0⟩,  -- ATC_STAT
  ⟨.hub, 0x410008, 0x100, 2, 64, 0x0, 0x0, 0x0, 0x0⟩,  -- ATC_CAP
  ⟨.hub, 0x410010, 0x100, 2, 32, 0x64, 0xffff, 0x0, 0x0⟩,  -- ATC_CTRL
  ⟨.hub, 0x410018, 0x100, 2, 64, 0x0, 0x0, 0x7, 0x0⟩,  -- ATC_ERR
  ⟨.hub, 0x410020, 0x100, 2, 64, 0x0, 0x0, 0x0, 0x0⟩,  -- ATC_CNT_RD_BYTES
  ⟨.hub, 0x410028, 0x100, 2, 64, 0x0, 0x0, 0x0, 0x0⟩,  -- ATC_CNT_WR_BYTES
  ⟨.hub, 0x410030, 0x100, 2, 64, 0x0, 0x0, 0x0, 0x0⟩,  -- ATC_CNT_POISON
  ⟨.hub, 0x410038, 0x100, 2, 64, 0x0, 0x0, 0x0, 0x0⟩,  -- ATC_CNT_TIMEOUT
  ⟨.hub, 0x410040, 0x100, 2, 64, 0x0, 0x0, 0x0, 0x0⟩,  -- ATC_CNT_LATE
  ⟨.hub, 0x420000, 0x0, 1, 32, 0x0, 0x0, 0x30, 0x0⟩,  -- CLR_STAT
  ⟨.hub, 0x420008, 0x0, 1, 64, 0x0, 0x0, 0x0, 0x0⟩,  -- CLR_CAP
  ⟨.hub, 0x420010, 0x0, 1, 64, 0x0, 0x0, 0x0, 0x0⟩,  -- CLR_USE
  ⟨.hub, 0x420018, 0x0, 1, 64, 0x0, 0x0, 0x0, 0x0⟩,  -- CLR_EPOCH
  ⟨.hub, 0x420020, 0x0, 1, 64, 0x0, 0x0, 0x0, 0x0⟩,  -- CLR_NEXT_ID
  ⟨.hub, 0x420028, 0x0, 1, 32, 0x0, 0x0, 0x0, 0x0⟩,  -- CLR_FLIGHT
  ⟨.hub, 0x420040, 0x0, 1, 64, 0x0, 0x0, 0x0, 0x0⟩,  -- CLR_CNT_WR_BYTES
  ⟨.hub, 0x420048, 0x0, 1, 64, 0x0, 0x0, 0x0, 0x0⟩,  -- CLR_CNT_RD_BYTES
  ⟨.hub, 0x420050, 0x0, 1, 64, 0x0, 0x0, 0x0, 0x0⟩  -- CLR_CNT_DEDUP
]

/-- Register rows of the hub block, part 6. -/
def hubRows6 : List RegRow := [
  ⟨.hub, 0x420058, 0x0, 1, 64, 0x0, 0x0, 0x0, 0x0⟩,  -- CLR_CNT_TAKEN
  ⟨.hub, 0x420060, 0x0, 1, 64, 0x0, 0x0, 0x0, 0x0⟩,  -- CLR_CNT_RESTORED
  ⟨.hub, 0x420068, 0x0, 1, 64, 0x0, 0x0, 0x0, 0x0⟩,  -- CLR_CNT_PRUNED
  ⟨.hub, 0x420070, 0x0, 1, 64, 0x0, 0x0, 0x0, 0x0⟩,  -- CLR_CNT_DIGEST_ERR
  ⟨.hub, 0x420078, 0x0, 1, 64, 0x0, 0x0, 0x0, 0x0⟩,  -- CLR_CNT_DISCARDED
  ⟨.hub, 0x421000, 0x10, 64, 32, 0x1, 0x0, 0x0, 0x0⟩,  -- CLR_JOB
  ⟨.hub, 0x421008, 0x10, 64, 64, 0x0, 0x0, 0x0, 0x0⟩  -- CLR_JOB_LAST
]

/-- All register rows of the hub block. -/
def hubRows : List RegRow := hubRows1 ++ hubRows2 ++ hubRows3 ++ hubRows4 ++ hubRows5 ++ hubRows6

/-- Register rows of the die block, part 1. -/
def dieRows1 : List RegRow := [
  ⟨.die, 0x300, 0x0, 1, 32, 0x0, 0x0, 0x0, 0x0⟩,  -- DIE_DQ_STAT
  ⟨.die, 0x308, 0x0, 1, 64, 0x0, 0x0, 0x0, 0x0⟩,  -- DIE_DQ_PC
  ⟨.die, 0x310, 0x0, 1, 64, 0x0, 0x0, 0x0, 0x0⟩,  -- DIE_DQ_CNT_XFER_BYTES
  ⟨.die, 0x318, 0x0, 1, 64, 0x0, 0x0, 0x0, 0x0⟩,  -- DIE_DQ_CNT_PWR_WAIT
  ⟨.die, 0x320, 0x0, 1, 64, 0x0, 0x0, 0x0, 0x0⟩,  -- DIE_DQ_CNT_BARRIER
  ⟨.die, 0x1000, 0x4, 96, 32, 0x0, 0x0, 0x0, 0x0⟩,  -- DIE_CORE_MAP
  ⟨.die, 0x1200, 0x4, 4, 32, 0x0, 0x0, 0x0, 0x0⟩,  -- DIE_SPARE_Q
  ⟨.die, 0x2000, 0x0, 1, 32, 0x0, 0x0, 0x0, 0x0⟩,  -- DIE_FILL_STAT
  ⟨.die, 0x2008, 0x0, 1, 64, 0x0, 0x0, 0x0, 0x0⟩,  -- DIE_FILL_LOG
  ⟨.die, 0x2010, 0x0, 1, 64, 0x0, 0x0, 0x0, 0x0⟩,  -- DIE_FILL_CNT_DONE
  ⟨.die, 0x2018, 0x0, 1, 64, 0x0, 0x0, 0x0, 0x0⟩,  -- DIE_FILL_CNT_RESTART
  ⟨.die, 0x2020, 0x0, 1, 64, 0x0, 0x0, 0x0, 0x0⟩,  -- DIE_FILL_CNT_ABANDONED
  ⟨.die, 0x2028, 0x0, 1, 64, 0x0, 0x0, 0x0, 0x0⟩,  -- DIE_FILL_CNT_POISONED
  ⟨.die, 0x2100, 0x0, 1, 32, 0x0, 0x0, 0x0, 0x0⟩,  -- DIE_MARCH_STAT
  ⟨.die, 0x2108, 0x0, 1, 64, 0x0, 0x0, 0x0, 0x0⟩,  -- DIE_MARCH_CNT_REPAIRS
  ⟨.die, 0x2110, 0x0, 1, 64, 0x0, 0x0, 0x0, 0x0⟩,  -- DIE_MARCH_CNT_FAILED
  ⟨.die, 0x2200, 0x20, 8, 32, 0x0, 0x0, 0x0, 0x0⟩,  -- DIE_DMA_STAT
  ⟨.die, 0x2208, 0x20, 8, 64, 0x0, 0x0, 0x0, 0x0⟩,  -- DIE_DMA_CNT_BYTES
  ⟨.die, 0x2210, 0x20, 8, 64, 0x0, 0x0, 0x0, 0x0⟩,  -- DIE_DMA_CNT_POISON
  ⟨.die, 0x40000, 0x40, 2, 32, 0x0, 0x0, 0x8, 0x0⟩,  -- RING_LINK_STAT
  ⟨.die, 0x40008, 0x40, 2, 64, 0x0, 0x0, 0x0, 0x0⟩,  -- RING_LINK_CNT_TX
  ⟨.die, 0x40010, 0x40, 2, 64, 0x0, 0x0, 0x0, 0x0⟩,  -- RING_LINK_CNT_RX
  ⟨.die, 0x40018, 0x40, 2, 64, 0x0, 0x0, 0x0, 0x0⟩,  -- RING_LINK_CNT_REPLAY
  ⟨.die, 0x40020, 0x40, 2, 64, 0x0, 0x0, 0x0, 0x0⟩  -- RING_LINK_CNT_LATE
]

/-- Register rows of the die block, part 2. -/
def dieRows2 : List RegRow := [
  ⟨.die, 0x40028, 0x40, 2, 64, 0x0, 0x0, 0x0, 0x0⟩,  -- RING_LINK_CNT_FWD
  ⟨.die, 0x40100, 0x0, 1, 64, 0x0, 0x0, 0x0, 0x0⟩,  -- RING_STAT
  ⟨.die, 0x40108, 0x0, 1, 32, 0xc350, 0xfffff, 0x0, 0x0⟩,  -- RING_CTRL
  ⟨.die, 0x40110, 0x0, 1, 64, 0x0, 0x0, 0x1f, 0x0⟩,  -- RING_ERR
  ⟨.die, 0x40180, 0x0, 1, 64, 0x0, 0x0, 0x0, 0x0⟩,  -- RING_CNT_BUCKETS
  ⟨.die, 0x40188, 0x0, 1, 64, 0x0, 0x0, 0x0, 0x0⟩,  -- RING_CNT_CHUNKS_TX
  ⟨.die, 0x40190, 0x0, 1, 64, 0x0, 0x0, 0x0, 0x0⟩,  -- RING_CNT_CHUNKS_RX
  ⟨.die, 0x40198, 0x0, 1, 64, 0x0, 0x0, 0x0, 0x0⟩,  -- RING_CNT_ADDS
  ⟨.die, 0x401a0, 0x0, 1, 64, 0x0, 0x0, 0x0, 0x0⟩,  -- RING_CNT_RESEND
  ⟨.die, 0x401a8, 0x0, 1, 64, 0x0, 0x0, 0x0, 0x0⟩,  -- RING_CNT_LATE
  ⟨.die, 0x401b0, 0x0, 1, 64, 0x0, 0x0, 0x0, 0x0⟩,  -- RING_CNT_SAT
  ⟨.die, 0x401b8, 0x0, 1, 64, 0x0, 0x0, 0x0, 0x0⟩,  -- RING_CNT_TIMEOUT
  ⟨.die, 0x40200, 0x8, 4, 64, 0x0, 0x0, 0x0, 0x0⟩,  -- RING_DGST_TX
  ⟨.die, 0x40220, 0x8, 4, 64, 0x0, 0x0, 0x0, 0x0⟩,  -- RING_DGST_RX
  ⟨.die, 0x40240, 0x0, 1, 64, 0x0, 0x0, 0x0, 0x0⟩,  -- RING_DGST_INFO
  ⟨.die, 0x40280, 0x8, 4, 64, 0x0, 0x0, 0x0, 0x0⟩,  -- RING_WM_DGST
  ⟨.die, 0x402a0, 0x0, 1, 64, 0x0, 0x0, 0x0, 0x0⟩  -- RING_WM_INFO
]

/-- All register rows of the die block. -/
def dieRows : List RegRow := dieRows1 ++ dieRows2

/-- Register rows of the core block, part 1. -/
def coreRows1 : List RegRow := [
  ⟨.core, 0x100, 0x0, 1, 32, 0x0, 0x0, 0x6, 0x0⟩,  -- CORE_CONV_STAT
  ⟨.core, 0x110, 0x4, 8, 32, 0x0, 0x0, 0x0, 0x0⟩,  -- CORE_CB_SLOT
  ⟨.core, 0x140, 0x0, 1, 64, 0x0, 0x0, 0x0, 0x0⟩,  -- CORE_CNT_ALIGN_CLAMP
  ⟨.core, 0x148, 0x0, 1, 64, 0x0, 0x0, 0x0, 0x0⟩,  -- CORE_CNT_SPECIAL_ROWS
  ⟨.core, 0x150, 0x0, 1, 64, 0x0, 0x0, 0x0, 0x0⟩,  -- CORE_CNT_SPECIAL_WSETS
  ⟨.core, 0x158, 0x0, 1, 64, 0x0, 0x0, 0x0, 0x0⟩,  -- CORE_CNT_PRESCAN
  ⟨.core, 0x200, 0x0, 1, 64, 0x0, 0x0, 0x0, 0x0⟩,  -- CORE_CNT_STREAM_SKIP
  ⟨.core, 0x208, 0x0, 1, 64, 0x0, 0x0, 0x0, 0x0⟩,  -- CORE_CNT_INSTR_SKIP
  ⟨.core, 0x210, 0x0, 1, 64, 0x0, 0x0, 0x0, 0x0⟩,  -- CORE_CNT_CHUNK_SKIP
  ⟨.core, 0x218, 0x0, 1, 64, 0x0, 0x0, 0x0, 0x0⟩,  -- CORE_CNT_EDGE_WRITE
  ⟨.core, 0x300, 0x0, 1, 32, 0x0, 0x0, 0x0, 0x0⟩,  -- CORE_HEALTH
  ⟨.core, 0x400, 0x0, 1, 32, 0x0, 0x0, 0x0, 0x0⟩,  -- SEQ_STAT
  ⟨.core, 0x408, 0x0, 1, 64, 0x0, 0x0, 0x0, 0x0⟩,  -- SEQ_PC
  ⟨.core, 0x410, 0x0, 1, 32, 0x0, 0x0, 0x0, 0x0⟩,  -- SEQ_WAIT
  ⟨.core, 0x420, 0x0, 1, 64, 0x0, 0x0, 0x0, 0x0⟩,  -- SEQ_CNT_ISSUED
  ⟨.core, 0x428, 0x0, 1, 64, 0x0, 0x0, 0x0, 0x0⟩,  -- SEQ_CNT_GATED
  ⟨.core, 0x430, 0x0, 1, 64, 0x0, 0x0, 0x0, 0x0⟩,  -- SEQ_CNT_WAIT_TOKEN
  ⟨.core, 0x438, 0x0, 1, 64, 0x0, 0x0, 0x0, 0x0⟩,  -- SEQ_CNT_WAIT_UNIT
  ⟨.core, 0x440, 0x0, 1, 64, 0x0, 0x0, 0x0, 0x0⟩,  -- SEQ_CNT_FETCH
  ⟨.core, 0x448, 0x0, 1, 64, 0x0, 0x0, 0x0, 0x0⟩,  -- SEQ_CNT_BARRIER
  ⟨.core, 0x800, 0x0, 1, 32, 0x0, 0x0, 0x0, 0x0⟩,  -- VEC_STAT
  ⟨.core, 0x808, 0x0, 1, 64, 0x0, 0x0, 0x0, 0x0⟩,  -- VEC_GNORM
  ⟨.core, 0x810, 0x0, 1, 64, 0x3f800000, 0x0, 0x0, 0x0⟩,  -- VEC_CLIP
  ⟨.core, 0x818, 0x0, 1, 64, 0x0, 0x0, 0x0, 0x0⟩  -- VEC_SSQ_LOCAL
]

/-- Register rows of the core block, part 2. -/
def coreRows2 : List RegRow := [
  ⟨.core, 0x840, 0x0, 1, 64, 0x0, 0x0, 0x0, 0x0⟩,  -- VEC_CNT_BUSY
  ⟨.core, 0x848, 0x0, 1, 64, 0x0, 0x0, 0x0, 0x0⟩,  -- VEC_CNT_ELEMS
  ⟨.core, 0x850, 0x0, 1, 64, 0x0, 0x0, 0x0, 0x0⟩,  -- VEC_CNT_MEASURED
  ⟨.core, 0x858, 0x0, 1, 64, 0x0, 0x0, 0x0, 0x0⟩,  -- VEC_CNT_MEASURE_STALL
  ⟨.core, 0x860, 0x0, 1, 64, 0x0, 0x0, 0x0, 0x0⟩,  -- VEC_CNT_DRAWS
  ⟨.core, 0x868, 0x0, 1, 64, 0x0, 0x0, 0x0, 0x0⟩,  -- VEC_CNT_ATOMICS
  ⟨.core, 0x870, 0x0, 1, 64, 0x0, 0x0, 0x0, 0x0⟩,  -- VEC_CNT_IDX_SKIP
  ⟨.core, 0x878, 0x0, 1, 64, 0x0, 0x0, 0x0, 0x0⟩,  -- VEC_CNT_STASH_CLAMP
  ⟨.core, 0x880, 0x0, 1, 64, 0x0, 0x0, 0x0, 0x0⟩  -- VEC_CNT_UPD_SKIPPED
]

/-- All register rows of the core block. -/
def coreRows : List RegRow := coreRows1 ++ coreRows2

/-- Register rows of the arr block, part 1. -/
def arrRows1 : List RegRow := [
  ⟨.arr, 0x0, 0x0, 1, 32, 0x0, 0x0, 0x0, 0x0⟩,  -- ARR_STAT
  ⟨.arr, 0x8, 0x0, 1, 64, 0x0, 0x0, 0x0, 0x0⟩,  -- ARR_VOTE_LOG
  ⟨.arr, 0x10, 0x0, 1, 64, 0x0, 0x0, 0x0, 0x0⟩,  -- ARR_CNT_SWEEP
  ⟨.arr, 0x18, 0x0, 1, 64, 0x0, 0x0, 0x0, 0x0⟩,  -- ARR_CNT_LOAD_STALL
  ⟨.arr, 0x20, 0x0, 1, 64, 0x0, 0x0, 0x0, 0x0⟩,  -- ARR_CNT_DRAIN_STALL
  ⟨.arr, 0x28, 0x0, 1, 64, 0x0, 0x0, 0x0, 0x0⟩,  -- ARR_CNT_SHARE_WAIT
  ⟨.arr, 0x30, 0x0, 1, 64, 0x0, 0x0, 0x0, 0x0⟩,  -- ARR_CNT_SLOT_IDLE
  ⟨.arr, 0x38, 0x0, 1, 64, 0x0, 0x0, 0x0, 0x0⟩,  -- ARR_CNT_SLOT_USED
  ⟨.arr, 0x40, 0x0, 1, 64, 0x0, 0x0, 0x0, 0x0⟩,  -- ARR_CNT_VOTE
  ⟨.arr, 0x48, 0x0, 1, 64, 0x0, 0x0, 0x0, 0x0⟩,  -- ARR_CHECKS
  ⟨.arr, 0x50, 0x0, 1, 32, 0x0, 0x0, 0x0, 0x0⟩,  -- ARR_MISMATCH
  ⟨.arr, 0x58, 0x0, 1, 32, 0x0, 0x0, 0x0, 0x1ff⟩  -- ARR_INJECT
]

/-- All register rows of the arr block. -/
def arrRows : List RegRow := arrRows1

/-- Register rows of the bank block, part 1. -/
def bankRows1 : List RegRow := [
  ⟨.bank, 0x0, 0x0, 1, 32, 0x0, 0x7, 0x10, 0x0⟩,  -- BANK_OWN
  ⟨.bank, 0x8, 0x0, 1, 64, 0x0, 0x0, 0x48, 0x0⟩,  -- BANK_STAT
  ⟨.bank, 0x10, 0x0, 1, 32, 0x0, 0x3, 0x0, 0x0⟩,  -- BANK_CTRL
  ⟨.bank, 0x18, 0x0, 1, 64, 0x0, 0x0, 0x0, 0x0⟩,  -- BANK_NOWN_LOG
  ⟨.bank, 0x20, 0x0, 1, 64, 0x0, 0x0, 0x3, 0x0⟩,  -- BANK_ECC
  ⟨.bank, 0x28, 0x0, 1, 32, 0x0, 0x0, 0x0, 0x0⟩,  -- BANK_REPAIR
  ⟨.bank, 0x40, 0x0, 1, 64, 0x0, 0x0, 0x0, 0x0⟩,  -- BANK_CNT_COLLIDE
  ⟨.bank, 0x48, 0x0, 1, 64, 0x0, 0x0, 0x0, 0x0⟩,  -- BANK_CNT_ATOMIC_STALL
  ⟨.bank, 0x50, 0x0, 1, 64, 0x0, 0x0, 0x0, 0x0⟩,  -- BANK_CNT_NONOWNER
  ⟨.bank, 0x58, 0x0, 1, 64, 0x0, 0x0, 0x0, 0x0⟩,  -- BANK_CNT_REFUSED
  ⟨.bank, 0x60, 0x0, 1, 64, 0x0, 0x0, 0x0, 0x0⟩,  -- BANK_CNT_HANDOVER_WAIT
  ⟨.bank, 0x68, 0x0, 1, 64, 0x0, 0x0, 0x0, 0x0⟩,  -- BANK_CNT_WAKE_STALL
  ⟨.bank, 0x70, 0x0, 1, 64, 0x0, 0x0, 0x0, 0x0⟩,  -- BANK_CNT_CE
  ⟨.bank, 0x78, 0x0, 1, 64, 0x0, 0x0, 0x0, 0x0⟩,  -- BANK_CNT_UE
  ⟨.bank, 0x80, 0x0, 1, 32, 0x0, 0xfffff, 0x0, 0x0⟩,  -- BANK_DBG_ADDR
  ⟨.bank, 0x88, 0x0, 1, 64, 0x0, 0xffffffffffffffff, 0x0, 0x0⟩  -- BANK_DBG_DATA
]

/-- All register rows of the bank block. -/
def bankRows : List RegRow := bankRows1

/-- R509. -/
abbrev HUB_STATUS_READY : Fld := ⟨0x0, 0x0, 0, 0⟩
/-- R509. -/
abbrev HUB_STATUS_FATAL : Fld := ⟨0x0, 0x0, 1, 1⟩
/-- R509. -/
abbrev HUB_STATUS_STARTING : Fld := ⟨0x0, 0x0, 2, 2⟩
/-- R509. -/
abbrev HUB_STATUS_FLR_ACTIVE : Fld := ⟨0x0, 0x0, 3, 3⟩
/-- R509. -/
abbrev HUB_STATUS_PSTATE : Fld := ⟨0x0, 0x0, 5, 4⟩
/-- R509. -/
abbrev HUB_STATUS_TRANSITION : Fld := ⟨0x0, 0x0, 6, 6⟩
/-- R509. -/
abbrev HUB_STATUS_FW_COPY : Fld := ⟨0x0, 0x0, 7, 7⟩
/-- R509. -/
abbrev HUB_STATUS_DIES : Fld := ⟨0x0, 0x0, 11, 8⟩
/-- R509. -/
abbrev HUB_STATUS_GRADE : Fld := ⟨0x0, 0x0, 13, 12⟩
/-- R7. -/
abbrev HUB_TIMESTAMP_V : Fld := ⟨0x8, 0x0, 63, 0⟩
/-- R509. -/
abbrev HUB_BRINGUP_STAGES : Fld := ⟨0x10, 0x0, 35, 0⟩
/-- R509. -/
abbrev HUB_BRINGUP_CURRENT : Fld := ⟨0x10, 0x0, 39, 36⟩
/-- R509. -/
abbrev HUB_RESET_CAUSE_COLD : Fld := ⟨0x18, 0x0, 0, 0⟩
/-- R509. -/
abbrev HUB_RESET_CAUSE_PERST : Fld := ⟨0x18, 0x0, 1, 1⟩
/-- R509. -/
abbrev HUB_RESET_CAUSE_TRIP_RECORDED : Fld := ⟨0x18, 0x0, 2, 2⟩
/-- R509. -/
abbrev HUB_RESET_CAUSE_POWER_LOSS : Fld := ⟨0x18, 0x0, 3, 3⟩
/-- R509. -/
abbrev HUB_BRINGUP_T_END : Fld := ⟨0x48, 0x8, 63, 0⟩
/-- R33. -/
abbrev HUB_BAR2_WIN_BASE : Fld := ⟨0x200, 0x0, 8, 0⟩
/-- R33. -/
abbrev HUB_BAR2_ERR_UNPOP : Fld := ⟨0x208, 0x0, 0, 0⟩
/-- R33. -/
abbrev HUB_BAR2_ERR_ADDR : Fld := ⟨0x208, 0x0, 36, 6⟩
/-- R180. -/
abbrev HUB_STW_STAT_BUSY : Fld := ⟨0x400, 0x0, 0, 0⟩
/-- R180. -/
abbrev HUB_STW_STAT_JOB : Fld := ⟨0x400, 0x0, 6, 1⟩
/-- R180. -/
abbrev HUB_STW_STAT_POLICY_PENDING : Fld := ⟨0x400, 0x0, 7, 7⟩
/-- R180. -/
abbrev HUB_STW_STAT_LAST_INCOMPLETE : Fld := ⟨0x400, 0x0, 8, 8⟩
/-- R180. -/
abbrev HUB_STW_CNT_RUNS_V : Fld := ⟨0x408, 0x0, 63, 0⟩
/-- R180. -/
abbrev HUB_STW_CNT_SWITCHES_V : Fld := ⟨0x410, 0x0, 63, 0⟩
/-- R180. -/
abbrev HUB_STW_CNT_ZRUN_V : Fld := ⟨0x418, 0x0, 63, 0⟩
/-- R180. -/
abbrev HUB_STW_CNT_SKIPPED_V : Fld := ⟨0x420, 0x0, 63, 0⟩
/-- R180. -/
abbrev HUB_STW_CNT_LS_V : Fld := ⟨0x428, 0x0, 63, 0⟩
/-- R214. -/
abbrev HUB_LDR_STAT_BUSY : Fld := ⟨0x500, 0x0, 0, 0⟩
/-- R214. -/
abbrev HUB_LDR_STAT_JOB : Fld := ⟨0x500, 0x0, 6, 1⟩
/-- R214. -/
abbrev HUB_LDR_STAT_SECTION : Fld := ⟨0x500, 0x0, 11, 7⟩
/-- R214. -/
abbrev HUB_LDR_REJ_STATUS : Fld := ⟨0x508, 0x0, 15, 0⟩
/-- R214. -/
abbrev HUB_LDR_REJ_JOB : Fld := ⟨0x508, 0x0, 21, 16⟩
/-- R214. -/
abbrev HUB_LDR_REJ_BUCKET : Fld := ⟨0x508, 0x0, 24, 22⟩
/-- R214. -/
abbrev HUB_LDR_REJ_PHASE : Fld := ⟨0x508, 0x0, 28, 25⟩
/-- R214. -/
abbrev HUB_LDR_REJ_DIE : Fld := ⟨0x508, 0x0, 30, 29⟩
/-- R214. -/
abbrev HUB_LDR_REJ_CORE : Fld := ⟨0x508, 0x0, 37, 31⟩
/-- R214. -/
abbrev HUB_LDR_REJ_ITEM_KIND : Fld := ⟨0x508, 0x0, 40, 38⟩
/-- R214. -/
abbrev HUB_LDR_REJ_ITEM : Fld := ⟨0x508, 0x0, 62, 41⟩
/-- R214. -/
abbrev HUB_LDR_REJ_VALID : Fld := ⟨0x508, 0x0, 63, 63⟩
/-- R214. -/
abbrev HUB_LDR_CNT_PASSED_V : Fld := ⟨0x510, 0x0, 63, 0⟩
/-- R214. -/
abbrev HUB_LDR_CNT_REJECTED_V : Fld := ⟨0x518, 0x0, 63, 0⟩
/-- R214. -/
abbrev HUB_LDR_CNT_RUNREJ_V : Fld := ⟨0x520, 0x0, 63, 0⟩
/-- R214. -/
abbrev HUB_LDR_REJ_SEC_SECTION : Fld := ⟨0x528, 0x0, 4, 0⟩
/-- R214. -/
abbrev HUB_LDR_REJ_SEC_BUCKET : Fld := ⟨0x528, 0x0, 7, 5⟩
/-- R214. -/
abbrev HUB_LDR_REJ_SEC_REPLICAS : Fld := ⟨0x528, 0x0, 10, 8⟩
/-- R252. -/
abbrev HUB_SLICE_CTRL_EN : Fld := ⟨0x600, 0x0, 0, 0⟩
/-- R252. -/
abbrev HUB_SLICE_CTRL_QUANTUM : Fld := ⟨0x600, 0x0, 20, 1⟩
/-- R252. -/
abbrev HUB_SLICE_STAT_LAST_OUT : Fld := ⟨0x608, 0x0, 5, 0⟩
/-- R252. -/
abbrev HUB_SLICE_STAT_LAST_IN : Fld := ⟨0x608, 0x0, 11, 6⟩
/-- R252. -/
abbrev HUB_SLICE_STAT_BUSY : Fld := ⟨0x608, 0x0, 12, 12⟩
/-- R252. -/
abbrev HUB_SLICE_CNT_HANDOVERS_V : Fld := ⟨0x610, 0x0, 63, 0⟩
/-- R252. -/
abbrev HUB_SLICE_CNT_BYTES_V : Fld := ⟨0x618, 0x0, 63, 0⟩
/-- R314. -/
abbrev HUB_JOB_STREAM_RKEY_V : Fld := ⟨0x800, 0x20, 63, 0⟩
/-- R314. -/
abbrev HUB_JOB_STREAM_RSTEP_V : Fld := ⟨0x808, 0x20, 63, 0⟩
/-- R314. -/
abbrev HUB_JOB_STREAM_MB_V : Fld := ⟨0x810, 0x20, 31, 0⟩
/-- R314. -/
abbrev HUB_JOB_STREAM_OSTEP_V : Fld := ⟨0x818, 0x20, 63, 0⟩
/-- R362. -/
abbrev HUB_WM_CTRL_EN : Fld := ⟨0x1000, 0x10, 0, 0⟩
/-- R362. -/
abbrev HUB_WM_CTRL_PERIOD : Fld := ⟨0x1000, 0x10, 16, 1⟩
/-- R362. -/
abbrev HUB_WM_STAT_OUTCOME : Fld := ⟨0x1008, 0x10, 1, 0⟩
/-- R362. -/
abbrev HUB_WM_STAT_DISAGREE : Fld := ⟨0x1008, 0x10, 5, 2⟩
/-- R362. -/
abbrev HUB_WM_STAT_SET : Fld := ⟨0x1008, 0x10, 9, 6⟩
/-- R362. -/
abbrev HUB_WM_STAT_POISONED : Fld := ⟨0x1008, 0x10, 13, 10⟩
/-- R362. -/
abbrev HUB_WM_STAT_STEP : Fld := ⟨0x1008, 0x10, 63, 16⟩
/-- R440. -/
abbrev HUB_FLT_CTRL_ARR_LIMIT : Fld := ⟨0x1400, 0x0, 3, 0⟩
/-- R440. -/
abbrev HUB_FLT_CTRL_CHK_LIMIT : Fld := ⟨0x1400, 0x0, 7, 4⟩
/-- R440. -/
abbrev HUB_DIE_STATE_STATE : Fld := ⟨0x1410, 0x8, 2, 0⟩
/-- R440. -/
abbrev HUB_DIE_STATE_CAUSE : Fld := ⟨0x1410, 0x8, 5, 3⟩
/-- R440. -/
abbrev HUB_DIE_STATE_SPARES : Fld := ⟨0x1410, 0x8, 8, 6⟩
/-- R440. -/
abbrev HUB_DIE_STATE_FILL_ACTIVE : Fld := ⟨0x1410, 0x8, 9, 9⟩
/-- R440. -/
abbrev HUB_DIE_STATE_EXPELS : Fld := ⟨0x1410, 0x8, 23, 16⟩
/-- R440. -/
abbrev HUB_FLT_JOB_AUTO_RB : Fld := ⟨0x1500, 0x8, 0, 0⟩
/-- R440. -/
abbrev HUB_FLT_JOB_HOLD : Fld := ⟨0x1500, 0x8, 1, 1⟩
/-- R440. -/
abbrev HUB_FLT_JOB_UNRES_ARMED : Fld := ⟨0x1500, 0x8, 2, 2⟩
/-- R440. -/
abbrev HUB_FLT_JOB_ROLLING : Fld := ⟨0x1500, 0x8, 3, 3⟩
/-- R440. -/
abbrev HUB_FLT_JOB_SET : Fld := ⟨0x1500, 0x8, 7, 4⟩
/-- R440. -/
abbrev HUB_FLT_JOB_HOME : Fld := ⟨0x1500, 0x8, 11, 8⟩
/-- R440. -/
abbrev HUB_FLT_JOB_HOLD_CAUSE : Fld := ⟨0x1500, 0x8, 31, 16⟩
/-- R440. -/
abbrev HUB_FLT_CNT_RETIRED_V : Fld := ⟨0x1700, 0x0, 63, 0⟩
/-- R440. -/
abbrev HUB_FLT_CNT_FAILED_V : Fld := ⟨0x1708, 0x0, 63, 0⟩
/-- R440. -/
abbrev HUB_FLT_CNT_FILLS_V : Fld := ⟨0x1710, 0x0, 63, 0⟩
/-- R440. -/
abbrev HUB_FLT_CNT_DIE_OUT_V : Fld := ⟨0x1718, 0x0, 63, 0⟩
/-- R440. -/
abbrev HUB_FLT_CNT_EXPELLED_V : Fld := ⟨0x1720, 0x0, 63, 0⟩
/-- R440. -/
abbrev HUB_FLT_CNT_ROLLBACKS_V : Fld := ⟨0x1728, 0x0, 63, 0⟩
/-- R440. -/
abbrev HUB_FLT_CNT_HOLDS_V : Fld := ⟨0x1730, 0x0, 63, 0⟩
/-- R440. -/
abbrev HUB_FLT_CNT_LATE_V : Fld := ⟨0x1738, 0x0, 63, 0⟩
/-- R563. -/
abbrev HUB_SB_STAT_ADDR_SEL : Fld := ⟨0x1800, 0x0, 1, 0⟩
/-- R563. -/
abbrev HUB_SB_STAT_X0_PRSNT : Fld := ⟨0x1800, 0x0, 2, 2⟩
/-- R563. -/
abbrev HUB_SB_STAT_X1_PRSNT : Fld := ⟨0x1800, 0x0, 3, 3⟩
/-- R563. -/
abbrev HUB_SB_STAT_PWRGD : Fld := ⟨0x1800, 0x0, 4, 4⟩
/-- R563. -/
abbrev HUB_SB_STAT_ALERT : Fld := ⟨0x1800, 0x0, 5, 5⟩
/-- R563. -/
abbrev HUB_SB_STAT_WAKE : Fld := ⟨0x1800, 0x0, 6, 6⟩
/-- R563. -/
abbrev HUB_SB_STAT_SMB_RATE : Fld := ⟨0x1800, 0x0, 8, 7⟩
/-- R563. -/
abbrev HUB_SB_CNT_GLITCH_V : Fld := ⟨0x1808, 0x0, 63, 0⟩
/-- R563. -/
abbrev HUB_SB_CNT_SMB_V : Fld := ⟨0x1810, 0x0, 63, 0⟩
/-- R405. -/
abbrev KGR_ID_VERSION : Fld := ⟨0x100000, 0x0, 7, 0⟩
/-- R405. -/
abbrev KGR_ID_QPAIRS : Fld := ⟨0x100000, 0x0, 15, 8⟩
/-- R405. -/
abbrev KGR_ID_VECTORS : Fld := ⟨0x100000, 0x0, 23, 16⟩
/-- R405. -/
abbrev KGR_JOB_RESET_SLOT : Fld := ⟨0x100010, 0x0, 5, 0⟩
/-- R405. -/
abbrev KGR_MOD_VEC_VECTOR : Fld := ⟨0x100018, 0x0, 6, 0⟩
/-- R405. -/
abbrev KGR_SQ_BASE_ADDR : Fld := ⟨0x101000, 0x80, 63, 12⟩
/-- R405. -/
abbrev KGR_CQ_BASE_ADDR : Fld := ⟨0x101008, 0x80, 63, 12⟩
/-- R405. -/
abbrev KGR_EVT_BASE_ADDR : Fld := ⟨0x101010, 0x80, 63, 12⟩
/-- R405. -/
abbrev KGR_QCFG_EN : Fld := ⟨0x101018, 0x80, 0, 0⟩
/-- R405. -/
abbrev KGR_QCFG_SQ_LOG2 : Fld := ⟨0x101018, 0x80, 4, 1⟩
/-- R405. -/
abbrev KGR_QCFG_CQ_LOG2 : Fld := ⟨0x101018, 0x80, 8, 5⟩
/-- R405. -/
abbrev KGR_QCFG_EVT_LOG2 : Fld := ⟨0x101018, 0x80, 13, 9⟩
/-- R405. -/
abbrev KGR_QCFG_VECTOR : Fld := ⟨0x101018, 0x80, 20, 14⟩
/-- R405. -/
abbrev KGR_QCFG_EVT_IRQ : Fld := ⟨0x101018, 0x80, 21, 21⟩
/-- R405. -/
abbrev KGR_SEQ_START_V : Fld := ⟨0x101020, 0x80, 31, 0⟩
/-- R405. -/
abbrev KGR_QSTAT_ENABLED : Fld := ⟨0x101028, 0x80, 0, 0⟩
/-- R405. -/
abbrev KGR_QSTAT_ERROR : Fld := ⟨0x101028, 0x80, 1, 1⟩
/-- R405. -/
abbrev KGR_QSTAT_ERR_CAUSE : Fld := ⟨0x101028, 0x80, 4, 2⟩
/-- R405. -/
abbrev KGR_QSTAT_EN_REFUSED : Fld := ⟨0x101028, 0x80, 5, 5⟩
/-- R405. -/
abbrev KGR_QSTAT_RESETTING : Fld := ⟨0x101028, 0x80, 6, 6⟩
/-- R405. -/
abbrev KGR_QSTAT_SQ_HEAD : Fld := ⟨0x101028, 0x80, 19, 8⟩
/-- R405. -/
abbrev KGR_QSTAT_CQ_TAIL : Fld := ⟨0x101028, 0x80, 31, 20⟩
/-- R405. -/
abbrev KGR_QSTAT_EVT_TAIL : Fld := ⟨0x101028, 0x80, 47, 32⟩
/-- R405. -/
abbrev KGR_QSTAT_OUTSTANDING : Fld := ⟨0x101028, 0x80, 60, 48⟩
/-- R405. -/
abbrev KGR_SEQ_NEXT_V : Fld := ⟨0x101030, 0x80, 31, 0⟩
/-- R405. -/
abbrev KGR_CNT_CMDS_V : Fld := ⟨0x101040, 0x80, 63, 0⟩
/-- R405. -/
abbrev KGR_CNT_GRAZED_V : Fld := ⟨0x101048, 0x80, 63, 0⟩
/-- R405. -/
abbrev KGR_CNT_DEADLINE_V : Fld := ⟨0x101050, 0x80, 63, 0⟩
/-- R405. -/
abbrev KGR_CNT_EVT_LOST_V : Fld := ⟨0x101058, 0x80, 63, 0⟩
/-- R405. -/
abbrev KGR_CNT_CQ_WAIT_V : Fld := ⟨0x101060, 0x80, 63, 0⟩
/-- R405. -/
abbrev KGR_SQ_TAIL_V : Fld := ⟨0x180000, 0x10, 11, 0⟩
/-- R405. -/
abbrev KGR_CQ_HEAD_V : Fld := ⟨0x180004, 0x10, 11, 0⟩
/-- R405. -/
abbrev KGR_EVT_HEAD_V : Fld := ⟨0x180008, 0x10, 15, 0⟩
/-- R541. -/
abbrev SEC_STAT_STATE : Fld := ⟨0x200000, 0x0, 1, 0⟩
/-- R541. -/
abbrev SEC_STAT_LEVEL : Fld := ⟨0x200000, 0x0, 3, 2⟩
/-- R541. -/
abbrev SEC_STAT_KEYS_ZEROISED : Fld := ⟨0x200000, 0x0, 4, 4⟩
/-- R541. -/
abbrev SEC_STAT_D2_SINCE_START : Fld := ⟨0x200000, 0x0, 5, 5⟩
/-- R541. -/
abbrev SEC_STAT_CLAIM_SPOILED : Fld := ⟨0x200000, 0x0, 6, 6⟩
/-- R541. -/
abbrev SEC_STAT_NONCE_VALID : Fld := ⟨0x200000, 0x0, 7, 7⟩
/-- R541. -/
abbrev SEC_STAT_SVN_MIN : Fld := ⟨0x200000, 0x0, 13, 8⟩
/-- R541. -/
abbrev SEC_STAT_SVN : Fld := ⟨0x200000, 0x0, 19, 14⟩
/-- R541. -/
abbrev SEC_STAT_SESSION_PATH : Fld := ⟨0x200000, 0x0, 20, 20⟩
/-- R541. -/
abbrev SEC_CTRL_NEW_NONCE : Fld := ⟨0x200008, 0x0, 0, 0⟩
/-- R541. -/
abbrev SEC_NONCE_V : Fld := ⟨0x200010, 0x8, 63, 0⟩
/-- R541. -/
abbrev SEC_DEVICE_ID_V : Fld := ⟨0x200040, 0x8, 63, 0⟩
/-- R541. -/
abbrev SEC_MEAS_V : Fld := ⟨0x200100, 0x8, 63, 0⟩
/-- R541. -/
abbrev SEC_HALT_DIE : Fld := ⟨0x200300, 0x0, 1, 0⟩
/-- R541. -/
abbrev SEC_HALT_PHYS : Fld := ⟨0x200300, 0x0, 8, 2⟩
/-- R541. -/
abbrev SEC_HALT_ALL : Fld := ⟨0x200300, 0x0, 9, 9⟩
/-- R541. -/
abbrev SEC_HALT_HALT : Fld := ⟨0x200300, 0x0, 10, 10⟩
/-- R541. -/
abbrev SEC_HALT_RESUME : Fld := ⟨0x200300, 0x0, 11, 11⟩
/-- R541. -/
abbrev SEC_TRACE_CTRL_EN : Fld := ⟨0x200400, 0x0, 0, 0⟩
/-- R541. -/
abbrev SEC_TRACE_CTRL_DIES : Fld := ⟨0x200400, 0x0, 4, 1⟩
/-- R541. -/
abbrev SEC_TRACE_CTRL_CLASSES : Fld := ⟨0x200400, 0x0, 11, 5⟩
/-- R541. -/
abbrev SEC_TRACE_STAT_WR_INDEX : Fld := ⟨0x200408, 0x0, 14, 0⟩
/-- R541. -/
abbrev SEC_TRACE_STAT_WRAPPED : Fld := ⟨0x200408, 0x0, 15, 15⟩
/-- R541. -/
abbrev SEC_TRACE_STAT_DROPPED : Fld := ⟨0x200408, 0x0, 63, 32⟩
/-- R541. -/
abbrev SEC_MBOX_CTRL_GO : Fld := ⟨0x200500, 0x0, 0, 0⟩
/-- R541. -/
abbrev SEC_MBOX_STAT_BUSY : Fld := ⟨0x200508, 0x0, 0, 0⟩
/-- R541. -/
abbrev SEC_MBOX_STAT_DONE : Fld := ⟨0x200508, 0x0, 1, 1⟩
/-- R541. -/
abbrev SEC_MBOX_STAT_STATUS : Fld := ⟨0x200508, 0x0, 31, 16⟩
/-- R541. -/
abbrev SEC_ALERT_BITS : Fld := ⟨0x200600, 0x0, 5, 0⟩
/-- R541. -/
abbrev SEC_ALERT_EN_BITS : Fld := ⟨0x200608, 0x0, 5, 0⟩
/-- R541. -/
abbrev SEC_CNT_TOKENS_OK_V : Fld := ⟨0x200700, 0x0, 63, 0⟩
/-- R541. -/
abbrev SEC_CNT_TOKENS_REJ_V : Fld := ⟨0x200708, 0x0, 63, 0⟩
/-- R541. -/
abbrev SEC_CNT_SIGNS_V : Fld := ⟨0x200710, 0x0, 63, 0⟩
/-- R541. -/
abbrev SEC_CNT_VERIFIES_V : Fld := ⟨0x200718, 0x0, 63, 0⟩
/-- R541. -/
abbrev SEC_CNT_MBOX_V : Fld := ⟨0x200720, 0x0, 63, 0⟩
/-- R509. -/
abbrev PWR_STAT_PSTATE : Fld := ⟨0x300000, 0x0, 1, 0⟩
/-- R509. -/
abbrev PWR_STAT_RAMPING : Fld := ⟨0x300000, 0x0, 2, 2⟩
/-- R509. -/
abbrev PWR_STAT_BALLAST : Fld := ⟨0x300000, 0x0, 3, 3⟩
/-- R509. -/
abbrev PWR_STAT_CAP_LIMITED : Fld := ⟨0x300000, 0x0, 4, 4⟩
/-- R509. -/
abbrev PWR_STAT_GAPS : Fld := ⟨0x300000, 0x0, 5, 5⟩
/-- R509. -/
abbrev PWR_STAT_THROTTLE : Fld := ⟨0x300000, 0x0, 6, 6⟩
/-- R509. -/
abbrev PWR_STAT_INPUT_W : Fld := ⟨0x300000, 0x0, 19, 8⟩
/-- R509. -/
abbrev PWR_STAT_INPUT_DV : Fld := ⟨0x300000, 0x0, 31, 20⟩
/-- R509. -/
abbrev PWR_CAP_CAP_W : Fld := ⟨0x300008, 0x0, 10, 0⟩
/-- R509. -/
abbrev PWR_CTRL_BOOST : Fld := ⟨0x300010, 0x0, 0, 0⟩
/-- R509. -/
abbrev PWR_CTRL_LINGER_US : Fld := ⟨0x300010, 0x0, 16, 1⟩
/-- R509. -/
abbrev PWR_CTRL_IDLE_US : Fld := ⟨0x300010, 0x0, 31, 17⟩
/-- R509. -/
abbrev PWR_DIE_LEVEL : Fld := ⟨0x300020, 0x8, 10, 0⟩
/-- R509. -/
abbrev PWR_DIE_EFFECTIVE : Fld := ⟨0x300020, 0x8, 21, 11⟩
/-- R509. -/
abbrev PWR_DIE_DRAW : Fld := ⟨0x300020, 0x8, 32, 22⟩
/-- R509. -/
abbrev PWR_DIE_GRANTED : Fld := ⟨0x300020, 0x8, 33, 33⟩
/-- R509. -/
abbrev PWR_ALERT_BITS : Fld := ⟨0x300040, 0x0, 5, 0⟩
/-- R509. -/
abbrev PWR_ALERT_EN_BITS : Fld := ⟨0x300048, 0x0, 5, 0⟩
/-- R509. -/
abbrev PWR_TEMP_HOTTEST_C : Fld := ⟨0x300050, 0x0, 7, 0⟩
/-- R509. -/
abbrev PWR_TEMP_HOT_DIE : Fld := ⟨0x300050, 0x0, 10, 8⟩
/-- R509. -/
abbrev PWR_TEMP_HOT_CORE : Fld := ⟨0x300050, 0x0, 17, 11⟩
/-- R509. -/
abbrev PWR_TEMP_COOL_IN_C : Fld := ⟨0x300050, 0x0, 39, 32⟩
/-- R509. -/
abbrev PWR_TEMP_COOL_OUT_C : Fld := ⟨0x300050, 0x0, 47, 40⟩
/-- R509. -/
abbrev PWR_CNT_BALLAST_MJ_V : Fld := ⟨0x300080, 0x0, 63, 0⟩
/-- R509. -/
abbrev PWR_CNT_THROTTLE_US_V : Fld := ⟨0x300088, 0x0, 63, 0⟩
/-- R509. -/
abbrev PWR_CNT_GAP_US_V : Fld := ⟨0x300090, 0x0, 63, 0⟩
/-- R509. -/
abbrev PWR_CNT_GRANTS_V : Fld := ⟨0x300098, 0x0, 63, 0⟩
/-- R509. -/
abbrev PWR_CNT_RAMP_WAIT_US_V : Fld := ⟨0x3000a0, 0x0, 63, 0⟩
/-- R509. -/
abbrev AGE_STAT_GRADE : Fld := ⟨0x310000, 0x0, 1, 0⟩
/-- R509. -/
abbrev AGE_STAT_REPLANNING : Fld := ⟨0x310000, 0x0, 2, 2⟩
/-- R509. -/
abbrev AGE_STAT_RF : Fld := ⟨0x310000, 0x0, 63, 32⟩
/-- R509. -/
abbrev AGE_CTRL_PERIOD_H : Fld := ⟨0x310008, 0x0, 7, 0⟩
/-- R509. -/
abbrev AGE_CTRL_SRAM_DAYS : Fld := ⟨0x310008, 0x0, 15, 8⟩
/-- R509. -/
abbrev AGE_CNT_REPLANS_V : Fld := ⟨0x310010, 0x0, 63, 0⟩
/-- R509. -/
abbrev AGE_CNT_FAST_DROP_V : Fld := ⟨0x310018, 0x0, 63, 0⟩
/-- R509. -/
abbrev AGE_POWERED_S_V : Fld := ⟨0x310020, 0x0, 63, 0⟩
/-- R509. -/
abbrev AGE_ISL_F_MAX : Fld := ⟨0x311000, 0x8, 10, 0⟩
/-- R509. -/
abbrev AGE_ISL_F_NOW : Fld := ⟨0x311000, 0x8, 21, 11⟩
/-- R509. -/
abbrev AGE_ISL_V_NOW : Fld := ⟨0x311000, 0x8, 31, 22⟩
/-- R509. -/
abbrev AGE_ISL_V175 : Fld := ⟨0x311000, 0x8, 41, 32⟩
/-- R509. -/
abbrev AGE_ISL_SLACK : Fld := ⟨0x311000, 0x8, 49, 42⟩
/-- R509. -/
abbrev AGE_ISL_STATE : Fld := ⟨0x311000, 0x8, 51, 50⟩
/-- R298. -/
abbrev LDR_DEV_STAT_TRAINED : Fld := ⟨0x400000, 0x40, 0, 0⟩
/-- R298. -/
abbrev LDR_DEV_STAT_FAILED : Fld := ⟨0x400000, 0x40, 1, 1⟩
/-- R298. -/
abbrev LDR_DEV_STAT_UE : Fld := ⟨0x400000, 0x40, 2, 2⟩
/-- R298. -/
abbrev LDR_DEV_CNT_CE_V : Fld := ⟨0x400010, 0x40, 63, 0⟩
/-- R298. -/
abbrev LDR_DEV_CNT_UE_V : Fld := ⟨0x400018, 0x40, 63, 0⟩
/-- R298. -/
abbrev LDR_DEV_CNT_RETRY_V : Fld := ⟨0x400020, 0x40, 63, 0⟩
/-- R298. -/
abbrev LDR_SCRUB_EN : Fld := ⟨0x400800, 0x0, 0, 0⟩
/-- R298. -/
abbrev LDR_SCRUB_PERIOD : Fld := ⟨0x400800, 0x0, 8, 1⟩
/-- R298. -/
abbrev LDR_POISON_LOG_VALID : Fld := ⟨0x400810, 0x0, 0, 0⟩
/-- R298. -/
abbrev LDR_POISON_LOG_SOURCE : Fld := ⟨0x400810, 0x0, 2, 1⟩
/-- R298. -/
abbrev LDR_POISON_LOG_ADDR : Fld := ⟨0x400810, 0x0, 36, 6⟩
/-- R298. -/
abbrev ATC_STAT_UP : Fld := ⟨0x410000, 0x100, 0, 0⟩
/-- R298. -/
abbrev ATC_STAT_SPEED : Fld := ⟨0x410000, 0x100, 1, 1⟩
/-- R298. -/
abbrev ATC_STAT_WIDTH : Fld := ⟨0x410000, 0x100, 3, 2⟩
/-- R298. -/
abbrev ATC_STAT_DOWN_SEEN : Fld := ⟨0x410000, 0x100, 4, 4⟩
/-- R298. -/
abbrev ATC_STAT_VERSION : Fld := ⟨0x410000, 0x100, 15, 8⟩
/-- R298. -/
abbrev ATC_CAP_BYTES : Fld := ⟨0x410008, 0x100, 41, 0⟩
/-- R298. -/
abbrev ATC_CTRL_TIMEOUT_US : Fld := ⟨0x410010, 0x100, 15, 0⟩
/-- R298. -/
abbrev ATC_ERR_POISON : Fld := ⟨0x410018, 0x100, 0, 0⟩
/-- R298. -/
abbrev ATC_ERR_TIMEOUT : Fld := ⟨0x410018, 0x100, 1, 1⟩
/-- R298. -/
abbrev ATC_ERR_LOST : Fld := ⟨0x410018, 0x100, 2, 2⟩
/-- R298. -/
abbrev ATC_ERR_ADDR : Fld := ⟨0x410018, 0x100, 40, 6⟩
/-- R298. -/
abbrev ATC_CNT_RD_BYTES_V : Fld := ⟨0x410020, 0x100, 63, 0⟩
/-- R298. -/
abbrev ATC_CNT_WR_BYTES_V : Fld := ⟨0x410028, 0x100, 63, 0⟩
/-- R298. -/
abbrev ATC_CNT_POISON_V : Fld := ⟨0x410030, 0x100, 63, 0⟩
/-- R298. -/
abbrev ATC_CNT_TIMEOUT_V : Fld := ⟨0x410038, 0x100, 63, 0⟩
/-- R298. -/
abbrev ATC_CNT_LATE_V : Fld := ⟨0x410040, 0x100, 63, 0⟩
/-- R469. -/
abbrev CLR_STAT_READY : Fld := ⟨0x420000, 0x0, 0, 0⟩
/-- R469. -/
abbrev CLR_STAT_RECOVERING : Fld := ⟨0x420000, 0x0, 1, 1⟩
/-- R469. -/
abbrev CLR_STAT_LOCKED : Fld := ⟨0x420000, 0x0, 2, 2⟩
/-- R469. -/
abbrev CLR_STAT_BUSY : Fld := ⟨0x420000, 0x0, 3, 3⟩
/-- R469. -/
abbrev CLR_STAT_HOLDUP_SEEN : Fld := ⟨0x420000, 0x0, 4, 4⟩
/-- R469. -/
abbrev CLR_STAT_RECOVERY_DISCARD : Fld := ⟨0x420000, 0x0, 5, 5⟩
/-- R469. -/
abbrev CLR_CAP_DATA_SLOTS : Fld := ⟨0x420008, 0x0, 21, 0⟩
/-- R469. -/
abbrev CLR_USE_SLOTS : Fld := ⟨0x420010, 0x0, 21, 0⟩
/-- R469. -/
abbrev CLR_USE_SNAPSHOTS : Fld := ⟨0x420010, 0x0, 34, 22⟩
/-- R469. -/
abbrev CLR_EPOCH_V : Fld := ⟨0x420018, 0x0, 63, 0⟩
/-- R469. -/
abbrev CLR_NEXT_ID_V : Fld := ⟨0x420020, 0x0, 63, 0⟩
/-- R469. -/
abbrev CLR_FLIGHT_MIB : Fld := ⟨0x420028, 0x0, 9, 0⟩
/-- R469. -/
abbrev CLR_CNT_WR_BYTES_V : Fld := ⟨0x420040, 0x0, 63, 0⟩
/-- R469. -/
abbrev CLR_CNT_RD_BYTES_V : Fld := ⟨0x420048, 0x0, 63, 0⟩
/-- R469. -/
abbrev CLR_CNT_DEDUP_V : Fld := ⟨0x420050, 0x0, 63, 0⟩
/-- R469. -/
abbrev CLR_CNT_TAKEN_V : Fld := ⟨0x420058, 0x0, 63, 0⟩
/-- R469. -/
abbrev CLR_CNT_RESTORED_V : Fld := ⟨0x420060, 0x0, 63, 0⟩
/-- R469. -/
abbrev CLR_CNT_PRUNED_V : Fld := ⟨0x420068, 0x0, 63, 0⟩
/-- R469. -/
abbrev CLR_CNT_DIGEST_ERR_V : Fld := ⟨0x420070, 0x0, 63, 0⟩
/-- R469. -/
abbrev CLR_CNT_DISCARDED_V : Fld := ⟨0x420078, 0x0, 63, 0⟩
/-- R469. -/
abbrev CLR_JOB_CONSISTENT : Fld := ⟨0x421000, 0x10, 0, 0⟩
/-- R469. -/
abbrev CLR_JOB_RSTEP_VALID : Fld := ⟨0x421000, 0x10, 1, 1⟩
/-- R469. -/
abbrev CLR_JOB_TAKING : Fld := ⟨0x421000, 0x10, 2, 2⟩
/-- R469. -/
abbrev CLR_JOB_RESTORING : Fld := ⟨0x421000, 0x10, 3, 3⟩
/-- R469. -/
abbrev CLR_JOB_LAST_V : Fld := ⟨0x421008, 0x10, 63, 0⟩
/-- R252. -/
abbrev DIE_DQ_STAT_STATE : Fld := ⟨0x300, 0x0, 2, 0⟩
/-- R252. -/
abbrev DIE_DQ_STAT_PHASE : Fld := ⟨0x300, 0x0, 6, 3⟩
/-- R252. -/
abbrev DIE_DQ_STAT_JOB : Fld := ⟨0x300, 0x0, 12, 7⟩
/-- R252. -/
abbrev DIE_DQ_STAT_JOB_VALID : Fld := ⟨0x300, 0x0, 13, 13⟩
/-- R252. -/
abbrev DIE_DQ_STAT_SECTION : Fld := ⟨0x300, 0x0, 18, 14⟩
/-- R252. -/
abbrev DIE_DQ_STAT_INFLIGHT : Fld := ⟨0x300, 0x0, 22, 19⟩
/-- R252. -/
abbrev DIE_DQ_PC_INDEX : Fld := ⟨0x308, 0x0, 31, 0⟩
/-- R252. -/
abbrev DIE_DQ_PC_PHASE : Fld := ⟨0x308, 0x0, 35, 32⟩
/-- R252. -/
abbrev DIE_DQ_CNT_XFER_BYTES_V : Fld := ⟨0x310, 0x0, 63, 0⟩
/-- R252. -/
abbrev DIE_DQ_CNT_PWR_WAIT_V : Fld := ⟨0x318, 0x0, 63, 0⟩
/-- R252. -/
abbrev DIE_DQ_CNT_BARRIER_V : Fld := ⟨0x320, 0x0, 63, 0⟩
/-- R21. -/
abbrev DIE_CORE_MAP_PHYS : Fld := ⟨0x1000, 0x4, 6, 0⟩
/-- R21. -/
abbrev DIE_CORE_MAP_QUAD : Fld := ⟨0x1000, 0x4, 9, 8⟩
/-- R21. -/
abbrev DIE_CORE_MAP_FILLING : Fld := ⟨0x1000, 0x4, 10, 10⟩
/-- R21. -/
abbrev DIE_CORE_MAP_REPLACED : Fld := ⟨0x1000, 0x4, 11, 11⟩
/-- R21. -/
abbrev DIE_CORE_MAP_MAPPED : Fld := ⟨0x1000, 0x4, 31, 31⟩
/-- R21. -/
abbrev DIE_SPARE_Q_PHYS : Fld := ⟨0x1200, 0x4, 6, 0⟩
/-- R21. -/
abbrev DIE_SPARE_Q_STATE : Fld := ⟨0x1200, 0x4, 9, 8⟩
/-- R21. -/
abbrev DIE_SPARE_Q_MAPPED : Fld := ⟨0x1200, 0x4, 31, 31⟩
/-- R440. -/
abbrev DIE_FILL_STAT_STATE : Fld := ⟨0x2000, 0x0, 1, 0⟩
/-- R440. -/
abbrev DIE_FILL_STAT_LOGICAL : Fld := ⟨0x2000, 0x0, 8, 2⟩
/-- R440. -/
abbrev DIE_FILL_STAT_SOURCE : Fld := ⟨0x2000, 0x0, 15, 9⟩
/-- R440. -/
abbrev DIE_FILL_STAT_TARGET : Fld := ⟨0x2000, 0x0, 22, 16⟩
/-- R440. -/
abbrev DIE_FILL_STAT_QUEUED : Fld := ⟨0x2000, 0x0, 29, 23⟩
/-- R440. -/
abbrev DIE_FILL_LOG_OUTCOME : Fld := ⟨0x2008, 0x0, 1, 0⟩
/-- R440. -/
abbrev DIE_FILL_LOG_CAUSE : Fld := ⟨0x2008, 0x0, 5, 2⟩
/-- R440. -/
abbrev DIE_FILL_LOG_LOGICAL : Fld := ⟨0x2008, 0x0, 12, 6⟩
/-- R440. -/
abbrev DIE_FILL_LOG_OLD : Fld := ⟨0x2008, 0x0, 19, 13⟩
/-- R440. -/
abbrev DIE_FILL_LOG_NEW : Fld := ⟨0x2008, 0x0, 26, 20⟩
/-- R440. -/
abbrev DIE_FILL_LOG_POISONED : Fld := ⟨0x2008, 0x0, 46, 27⟩
/-- R440. -/
abbrev DIE_FILL_LOG_DURATION : Fld := ⟨0x2008, 0x0, 63, 47⟩
/-- R440. -/
abbrev DIE_FILL_CNT_DONE_V : Fld := ⟨0x2010, 0x0, 63, 0⟩
/-- R440. -/
abbrev DIE_FILL_CNT_RESTART_V : Fld := ⟨0x2018, 0x0, 63, 0⟩
/-- R440. -/
abbrev DIE_FILL_CNT_ABANDONED_V : Fld := ⟨0x2020, 0x0, 63, 0⟩
/-- R440. -/
abbrev DIE_FILL_CNT_POISONED_V : Fld := ⟨0x2028, 0x0, 63, 0⟩
/-- R298. -/
abbrev DIE_MARCH_STAT_MODE : Fld := ⟨0x2100, 0x0, 1, 0⟩
/-- R298. -/
abbrev DIE_MARCH_STAT_BANK : Fld := ⟨0x2100, 0x0, 11, 2⟩
/-- R298. -/
abbrev DIE_MARCH_CNT_REPAIRS_V : Fld := ⟨0x2108, 0x0, 63, 0⟩
/-- R298. -/
abbrev DIE_MARCH_CNT_FAILED_V : Fld := ⟨0x2110, 0x0, 63, 0⟩
/-- R298. -/
abbrev DIE_DMA_STAT_BUSY : Fld := ⟨0x2200, 0x20, 0, 0⟩
/-- R298. -/
abbrev DIE_DMA_STAT_SOURCE : Fld := ⟨0x2200, 0x20, 2, 1⟩
/-- R298. -/
abbrev DIE_DMA_STAT_JOB : Fld := ⟨0x2200, 0x20, 8, 3⟩
/-- R298. -/
abbrev DIE_DMA_CNT_BYTES_V : Fld := ⟨0x2208, 0x20, 63, 0⟩
/-- R298. -/
abbrev DIE_DMA_CNT_POISON_V : Fld := ⟨0x2210, 0x20, 63, 0⟩
/-- R367. -/
abbrev RING_LINK_STAT_UP : Fld := ⟨0x40000, 0x40, 0, 0⟩
/-- R367. -/
abbrev RING_LINK_STAT_TRAINED : Fld := ⟨0x40000, 0x40, 1, 1⟩
/-- R367. -/
abbrev RING_LINK_STAT_OUT_OF_SERVICE : Fld := ⟨0x40000, 0x40, 2, 2⟩
/-- R367. -/
abbrev RING_LINK_STAT_DOWN_SEEN : Fld := ⟨0x40000, 0x40, 3, 3⟩
/-- R367. -/
abbrev RING_LINK_CNT_TX_V : Fld := ⟨0x40008, 0x40, 63, 0⟩
/-- R367. -/
abbrev RING_LINK_CNT_RX_V : Fld := ⟨0x40010, 0x40, 63, 0⟩
/-- R367. -/
abbrev RING_LINK_CNT_REPLAY_V : Fld := ⟨0x40018, 0x40, 63, 0⟩
/-- R367. -/
abbrev RING_LINK_CNT_LATE_V : Fld := ⟨0x40020, 0x40, 63, 0⟩
/-- R367. -/
abbrev RING_LINK_CNT_FWD_V : Fld := ⟨0x40028, 0x40, 63, 0⟩
/-- R367. -/
abbrev RING_STAT_BUSY : Fld := ⟨0x40100, 0x0, 0, 0⟩
/-- R367. -/
abbrev RING_STAT_INFLIGHT : Fld := ⟨0x40100, 0x0, 4, 1⟩
/-- R367. -/
abbrev RING_STAT_JOB : Fld := ⟨0x40100, 0x0, 10, 5⟩
/-- R367. -/
abbrev RING_STAT_JOB_VALID : Fld := ⟨0x40100, 0x0, 11, 11⟩
/-- R367. -/
abbrev RING_STAT_SET : Fld := ⟨0x40100, 0x0, 15, 12⟩
/-- R367. -/
abbrev RING_STAT_DEGRADED : Fld := ⟨0x40100, 0x0, 16, 16⟩
/-- R367. -/
abbrev RING_STAT_SCALE_BUMPS : Fld := ⟨0x40100, 0x0, 63, 32⟩
/-- R367. -/
abbrev RING_CTRL_TIMEOUT_US : Fld := ⟨0x40108, 0x0, 19, 0⟩
/-- R367. -/
abbrev RING_ERR_CHECK : Fld := ⟨0x40110, 0x0, 0, 0⟩
/-- R367. -/
abbrev RING_ERR_TIMEOUT : Fld := ⟨0x40110, 0x0, 1, 1⟩
/-- R367. -/
abbrev RING_ERR_SAT : Fld := ⟨0x40110, 0x0, 2, 2⟩
/-- R367. -/
abbrev RING_ERR_POISON : Fld := ⟨0x40110, 0x0, 3, 3⟩
/-- R367. -/
abbrev RING_ERR_DIGEST : Fld := ⟨0x40110, 0x0, 4, 4⟩
/-- R367. -/
abbrev RING_ERR_PEER : Fld := ⟨0x40110, 0x0, 9, 8⟩
/-- R367. -/
abbrev RING_ERR_JOB : Fld := ⟨0x40110, 0x0, 15, 10⟩
/-- R367. -/
abbrev RING_ERR_BUCKET_ID : Fld := ⟨0x40110, 0x0, 31, 16⟩
/-- R367. -/
abbrev RING_ERR_CHUNK : Fld := ⟨0x40110, 0x0, 45, 32⟩
/-- R367. -/
abbrev RING_CNT_BUCKETS_V : Fld := ⟨0x40180, 0x0, 63, 0⟩
/-- R367. -/
abbrev RING_CNT_CHUNKS_TX_V : Fld := ⟨0x40188, 0x0, 63, 0⟩
/-- R367. -/
abbrev RING_CNT_CHUNKS_RX_V : Fld := ⟨0x40190, 0x0, 63, 0⟩
/-- R367. -/
abbrev RING_CNT_ADDS_V : Fld := ⟨0x40198, 0x0, 63, 0⟩
/-- R367. -/
abbrev RING_CNT_RESEND_V : Fld := ⟨0x401a0, 0x0, 63, 0⟩
/-- R367. -/
abbrev RING_CNT_LATE_V : Fld := ⟨0x401a8, 0x0, 63, 0⟩
/-- R367. -/
abbrev RING_CNT_SAT_V : Fld := ⟨0x401b0, 0x0, 63, 0⟩
/-- R367. -/
abbrev RING_CNT_TIMEOUT_V : Fld := ⟨0x401b8, 0x0, 63, 0⟩
/-- R367. -/
abbrev RING_DGST_TX_V : Fld := ⟨0x40200, 0x8, 63, 0⟩
/-- R367. -/
abbrev RING_DGST_RX_V : Fld := ⟨0x40220, 0x8, 63, 0⟩
/-- R367. -/
abbrev RING_DGST_INFO_JOB : Fld := ⟨0x40240, 0x0, 5, 0⟩
/-- R367. -/
abbrev RING_DGST_INFO_VALID : Fld := ⟨0x40240, 0x0, 6, 6⟩
/-- R367. -/
abbrev RING_DGST_INFO_STEP : Fld := ⟨0x40240, 0x0, 63, 8⟩
/-- R367. -/
abbrev RING_WM_DGST_V : Fld := ⟨0x40280, 0x8, 63, 0⟩
/-- R367. -/
abbrev RING_WM_INFO_JOB : Fld := ⟨0x402a0, 0x0, 5, 0⟩
/-- R367. -/
abbrev RING_WM_INFO_POISONED : Fld := ⟨0x402a0, 0x0, 6, 6⟩
/-- R367. -/
abbrev RING_WM_INFO_STEP : Fld := ⟨0x402a0, 0x0, 63, 8⟩
/-- R138. -/
abbrev CORE_CONV_STAT_PRESCAN_BUSY : Fld := ⟨0x100, 0x0, 0, 0⟩
/-- R138. -/
abbrev CORE_CONV_STAT_SPECIAL_SEEN : Fld := ⟨0x100, 0x0, 1, 1⟩
/-- R138. -/
abbrev CORE_CONV_STAT_CLAMP_SEEN : Fld := ⟨0x100, 0x0, 2, 2⟩
/-- R138. -/
abbrev CORE_CONV_STAT_TABLE_LOADING : Fld := ⟨0x100, 0x0, 3, 3⟩
/-- R138. -/
abbrev CORE_CONV_STAT_LOAD_SLOT : Fld := ⟨0x100, 0x0, 6, 4⟩
/-- R138. -/
abbrev CORE_CONV_STAT_SLOTS_VALID : Fld := ⟨0x100, 0x0, 15, 8⟩
/-- R138. -/
abbrev CORE_CB_SLOT_TABLE_ID : Fld := ⟨0x110, 0x4, 15, 0⟩
/-- R138. -/
abbrev CORE_CB_SLOT_KIND : Fld := ⟨0x110, 0x4, 17, 16⟩
/-- R138. -/
abbrev CORE_CB_SLOT_ORDERED : Fld := ⟨0x110, 0x4, 18, 18⟩
/-- R138. -/
abbrev CORE_CB_SLOT_JOB : Fld := ⟨0x110, 0x4, 29, 24⟩
/-- R138. -/
abbrev CORE_CB_SLOT_VALID : Fld := ⟨0x110, 0x4, 31, 31⟩
/-- R138. -/
abbrev CORE_CNT_ALIGN_CLAMP_V : Fld := ⟨0x140, 0x0, 63, 0⟩
/-- R138. -/
abbrev CORE_CNT_SPECIAL_ROWS_V : Fld := ⟨0x148, 0x0, 63, 0⟩
/-- R138. -/
abbrev CORE_CNT_SPECIAL_WSETS_V : Fld := ⟨0x150, 0x0, 63, 0⟩
/-- R138. -/
abbrev CORE_CNT_PRESCAN_V : Fld := ⟨0x158, 0x0, 63, 0⟩
/-- R214. -/
abbrev CORE_CNT_STREAM_SKIP_V : Fld := ⟨0x200, 0x0, 63, 0⟩
/-- R214. -/
abbrev CORE_CNT_INSTR_SKIP_V : Fld := ⟨0x208, 0x0, 63, 0⟩
/-- R214. -/
abbrev CORE_CNT_CHUNK_SKIP_V : Fld := ⟨0x210, 0x0, 63, 0⟩
/-- R214. -/
abbrev CORE_CNT_EDGE_WRITE_V : Fld := ⟨0x218, 0x0, 63, 0⟩
/-- R440. -/
abbrev CORE_HEALTH_STATE : Fld := ⟨0x300, 0x0, 1, 0⟩
/-- R440. -/
abbrev CORE_HEALTH_CAUSE : Fld := ⟨0x300, 0x0, 5, 2⟩
/-- R440. -/
abbrev CORE_HEALTH_HB_LOST : Fld := ⟨0x300, 0x0, 6, 6⟩
/-- R252. -/
abbrev SEQ_STAT_STATE : Fld := ⟨0x400, 0x0, 2, 0⟩
/-- R252. -/
abbrev SEQ_STAT_PHASE : Fld := ⟨0x400, 0x0, 6, 3⟩
/-- R252. -/
abbrev SEQ_STAT_JOB : Fld := ⟨0x400, 0x0, 12, 7⟩
/-- R252. -/
abbrev SEQ_STAT_JOB_VALID : Fld := ⟨0x400, 0x0, 13, 13⟩
/-- R252. -/
abbrev SEQ_STAT_SECTION : Fld := ⟨0x400, 0x0, 18, 14⟩
/-- R252. -/
abbrev SEQ_STAT_INFLIGHT : Fld := ⟨0x400, 0x0, 22, 19⟩
/-- R252. -/
abbrev SEQ_PC_INDEX : Fld := ⟨0x408, 0x0, 31, 0⟩
/-- R252. -/
abbrev SEQ_PC_PHASE : Fld := ⟨0x408, 0x0, 35, 32⟩
/-- R252. -/
abbrev SEQ_WAIT_TOKEN : Fld := ⟨0x410, 0x0, 9, 0⟩
/-- R252. -/
abbrev SEQ_WAIT_COUNT : Fld := ⟨0x410, 0x0, 27, 12⟩
/-- R252. -/
abbrev SEQ_CNT_ISSUED_V : Fld := ⟨0x420, 0x0, 63, 0⟩
/-- R252. -/
abbrev SEQ_CNT_GATED_V : Fld := ⟨0x428, 0x0, 63, 0⟩
/-- R252. -/
abbrev SEQ_CNT_WAIT_TOKEN_V : Fld := ⟨0x430, 0x0, 63, 0⟩
/-- R252. -/
abbrev SEQ_CNT_WAIT_UNIT_V : Fld := ⟨0x438, 0x0, 63, 0⟩
/-- R252. -/
abbrev SEQ_CNT_FETCH_V : Fld := ⟨0x440, 0x0, 63, 0⟩
/-- R252. -/
abbrev SEQ_CNT_BARRIER_V : Fld := ⟨0x448, 0x0, 63, 0⟩
/-- R332. -/
abbrev VEC_STAT_BUSY : Fld := ⟨0x800, 0x0, 0, 0⟩
/-- R332. -/
abbrev VEC_STAT_VOP : Fld := ⟨0x800, 0x0, 8, 1⟩
/-- R332. -/
abbrev VEC_STAT_JOB : Fld := ⟨0x800, 0x0, 14, 9⟩
/-- R332. -/
abbrev VEC_STAT_JOB_VALID : Fld := ⟨0x800, 0x0, 15, 15⟩
/-- R332. -/
abbrev VEC_STAT_GN_VALID : Fld := ⟨0x800, 0x0, 16, 16⟩
/-- R332. -/
abbrev VEC_STAT_GN_NONFIN : Fld := ⟨0x800, 0x0, 17, 17⟩
/-- R332. -/
abbrev VEC_STAT_GN_POISON : Fld := ⟨0x800, 0x0, 18, 18⟩
/-- R332. -/
abbrev VEC_STAT_UPD_SKIPPED : Fld := ⟨0x800, 0x0, 19, 19⟩
/-- R332. -/
abbrev VEC_GNORM_V : Fld := ⟨0x808, 0x0, 63, 0⟩
/-- R332. -/
abbrev VEC_CLIP_FACTOR : Fld := ⟨0x810, 0x0, 31, 0⟩
/-- R332. -/
abbrev VEC_SSQ_LOCAL_V : Fld := ⟨0x818, 0x0, 63, 0⟩
/-- R332. -/
abbrev VEC_CNT_BUSY_V : Fld := ⟨0x840, 0x0, 63, 0⟩
/-- R332. -/
abbrev VEC_CNT_ELEMS_V : Fld := ⟨0x848, 0x0, 63, 0⟩
/-- R332. -/
abbrev VEC_CNT_MEASURED_V : Fld := ⟨0x850, 0x0, 63, 0⟩
/-- R332. -/
abbrev VEC_CNT_MEASURE_STALL_V : Fld := ⟨0x858, 0x0, 63, 0⟩
/-- R332. -/
abbrev VEC_CNT_DRAWS_V : Fld := ⟨0x860, 0x0, 63, 0⟩
/-- R332. -/
abbrev VEC_CNT_ATOMICS_V : Fld := ⟨0x868, 0x0, 63, 0⟩
/-- R332. -/
abbrev VEC_CNT_IDX_SKIP_V : Fld := ⟨0x870, 0x0, 63, 0⟩
/-- R332. -/
abbrev VEC_CNT_STASH_CLAMP_V : Fld := ⟨0x878, 0x0, 63, 0⟩
/-- R332. -/
abbrev VEC_CNT_UPD_SKIPPED_V : Fld := ⟨0x880, 0x0, 63, 0⟩
/-- R95. -/
abbrev ARR_STAT_MODE : Fld := ⟨0x0, 0x0, 1, 0⟩
/-- R95. -/
abbrev ARR_STAT_QUAD : Fld := ⟨0x0, 0x0, 2, 2⟩
/-- R95. -/
abbrev ARR_STAT_BUSY : Fld := ⟨0x0, 0x0, 3, 3⟩
/-- R95. -/
abbrev ARR_STAT_ARR_SUSPECT : Fld := ⟨0x0, 0x0, 4, 4⟩
/-- R95. -/
abbrev ARR_STAT_CHK_SUSPECT : Fld := ⟨0x0, 0x0, 5, 5⟩
/-- R95. -/
abbrev ARR_STAT_VOTING : Fld := ⟨0x0, 0x0, 6, 6⟩
/-- R95. -/
abbrev ARR_STAT_ARR_VERDICTS : Fld := ⟨0x0, 0x0, 15, 8⟩
/-- R95. -/
abbrev ARR_STAT_CHK_VERDICTS : Fld := ⟨0x0, 0x0, 23, 16⟩
/-- R95. -/
abbrev ARR_STAT_JOB : Fld := ⟨0x0, 0x0, 29, 24⟩
/-- R95. -/
abbrev ARR_STAT_JOB_VALID : Fld := ⟨0x0, 0x0, 30, 30⟩
/-- R95. -/
abbrev ARR_VOTE_LOG_OUTCOME : Fld := ⟨0x8, 0x0, 1, 0⟩
/-- R95. -/
abbrev ARR_VOTE_LOG_SIBLING : Fld := ⟨0x8, 0x0, 3, 2⟩
/-- R95. -/
abbrev ARR_VOTE_LOG_QUAD_MODE : Fld := ⟨0x8, 0x0, 4, 4⟩
/-- R95. -/
abbrev ARR_VOTE_LOG_QUAD : Fld := ⟨0x8, 0x0, 6, 5⟩
/-- R95. -/
abbrev ARR_VOTE_LOG_ROW : Fld := ⟨0x8, 0x0, 12, 7⟩
/-- R95. -/
abbrev ARR_VOTE_LOG_FLAGGED : Fld := ⟨0x8, 0x0, 19, 13⟩
/-- R95. -/
abbrev ARR_VOTE_LOG_PASS : Fld := ⟨0x8, 0x0, 21, 20⟩
/-- R95. -/
abbrev ARR_VOTE_LOG_INJECTED : Fld := ⟨0x8, 0x0, 22, 22⟩
/-- R95. -/
abbrev ARR_VOTE_LOG_SEGMENT : Fld := ⟨0x8, 0x0, 35, 24⟩
/-- R95. -/
abbrev ARR_VOTE_LOG_JOB : Fld := ⟨0x8, 0x0, 41, 36⟩
/-- R95. -/
abbrev ARR_CNT_SWEEP_V : Fld := ⟨0x10, 0x0, 63, 0⟩
/-- R95. -/
abbrev ARR_CNT_LOAD_STALL_V : Fld := ⟨0x18, 0x0, 63, 0⟩
/-- R95. -/
abbrev ARR_CNT_DRAIN_STALL_V : Fld := ⟨0x20, 0x0, 63, 0⟩
/-- R95. -/
abbrev ARR_CNT_SHARE_WAIT_V : Fld := ⟨0x28, 0x0, 63, 0⟩
/-- R95. -/
abbrev ARR_CNT_SLOT_IDLE_V : Fld := ⟨0x30, 0x0, 63, 0⟩
/-- R95. -/
abbrev ARR_CNT_SLOT_USED_V : Fld := ⟨0x38, 0x0, 63, 0⟩
/-- R95. -/
abbrev ARR_CNT_VOTE_V : Fld := ⟨0x40, 0x0, 63, 0⟩
/-- R95. -/
abbrev ARR_CHECKS_V : Fld := ⟨0x48, 0x0, 63, 0⟩
/-- R95. -/
abbrev ARR_MISMATCH_COUNT : Fld := ⟨0x50, 0x0, 15, 0⟩
/-- R95. -/
abbrev ARR_INJECT_ARM : Fld := ⟨0x58, 0x0, 0, 0⟩
/-- R95. -/
abbrev ARR_INJECT_TARGET : Fld := ⟨0x58, 0x0, 1, 1⟩
/-- R95. -/
abbrev ARR_INJECT_LANE : Fld := ⟨0x58, 0x0, 8, 2⟩
/-- R297. -/
abbrev BANK_OWN_OWNER : Fld := ⟨0x0, 0x0, 2, 0⟩
/-- R297. -/
abbrev BANK_OWN_PENDING : Fld := ⟨0x0, 0x0, 3, 3⟩
/-- R297. -/
abbrev BANK_OWN_REFUSED : Fld := ⟨0x0, 0x0, 4, 4⟩
/-- R297. -/
abbrev BANK_OWN_REFUSED_CODE : Fld := ⟨0x0, 0x0, 7, 5⟩
/-- R297. -/
abbrev BANK_OWN_JOB : Fld := ⟨0x0, 0x0, 13, 8⟩
/-- R297. -/
abbrev BANK_OWN_JOB_VALID : Fld := ⟨0x0, 0x0, 14, 14⟩
/-- R297. -/
abbrev BANK_STAT_READY : Fld := ⟨0x8, 0x0, 0, 0⟩
/-- R297. -/
abbrev BANK_STAT_PWR : Fld := ⟨0x8, 0x0, 2, 1⟩
/-- R297. -/
abbrev BANK_STAT_COLLIDE : Fld := ⟨0x8, 0x0, 3, 3⟩
/-- R297. -/
abbrev BANK_STAT_COL_PORT : Fld := ⟨0x8, 0x0, 4, 4⟩
/-- R297. -/
abbrev BANK_STAT_COL_KIND : Fld := ⟨0x8, 0x0, 5, 5⟩
/-- R297. -/
abbrev BANK_STAT_NONOWNER : Fld := ⟨0x8, 0x0, 6, 6⟩
/-- R297. -/
abbrev BANK_STAT_FAILED : Fld := ⟨0x8, 0x0, 7, 7⟩
/-- R297. -/
abbrev BANK_STAT_COL_WORD : Fld := ⟨0x8, 0x0, 31, 12⟩
/-- R297. -/
abbrev BANK_CTRL_PWR_REQ : Fld := ⟨0x10, 0x0, 1, 0⟩
/-- R297. -/
abbrev BANK_NOWN_LOG_UNIT : Fld := ⟨0x18, 0x0, 2, 0⟩
/-- R297. -/
abbrev BANK_NOWN_LOG_WRITE : Fld := ⟨0x18, 0x0, 3, 3⟩
/-- R297. -/
abbrev BANK_NOWN_LOG_WORD : Fld := ⟨0x18, 0x0, 23, 4⟩
/-- R297. -/
abbrev BANK_NOWN_LOG_JOB : Fld := ⟨0x18, 0x0, 29, 24⟩
/-- R297. -/
abbrev BANK_NOWN_LOG_JOB_VALID : Fld := ⟨0x18, 0x0, 30, 30⟩
/-- R297. -/
abbrev BANK_ECC_CE : Fld := ⟨0x20, 0x0, 0, 0⟩
/-- R297. -/
abbrev BANK_ECC_UE : Fld := ⟨0x20, 0x0, 1, 1⟩
/-- R297. -/
abbrev BANK_ECC_GRANULE : Fld := ⟨0x20, 0x0, 17, 2⟩
/-- R297. -/
abbrev BANK_REPAIR_USED : Fld := ⟨0x28, 0x0, 4, 0⟩
/-- R297. -/
abbrev BANK_REPAIR_LAST_ROW : Fld := ⟨0x28, 0x0, 27, 16⟩
/-- R297. -/
abbrev BANK_CNT_COLLIDE_V : Fld := ⟨0x40, 0x0, 63, 0⟩
/-- R297. -/
abbrev BANK_CNT_ATOMIC_STALL_V : Fld := ⟨0x48, 0x0, 63, 0⟩
/-- R297. -/
abbrev BANK_CNT_NONOWNER_V : Fld := ⟨0x50, 0x0, 63, 0⟩
/-- R297. -/
abbrev BANK_CNT_REFUSED_V : Fld := ⟨0x58, 0x0, 63, 0⟩
/-- R297. -/
abbrev BANK_CNT_HANDOVER_WAIT_V : Fld := ⟨0x60, 0x0, 63, 0⟩
/-- R297. -/
abbrev BANK_CNT_WAKE_STALL_V : Fld := ⟨0x68, 0x0, 63, 0⟩
/-- R297. -/
abbrev BANK_CNT_CE_V : Fld := ⟨0x70, 0x0, 63, 0⟩
/-- R297. -/
abbrev BANK_CNT_UE_V : Fld := ⟨0x78, 0x0, 63, 0⟩
/-- R297. -/
abbrev BANK_DBG_ADDR_WORD : Fld := ⟨0x80, 0x0, 19, 0⟩
/-- R297. -/
abbrev BANK_DBG_ADDR_POISON : Fld := ⟨0x80, 0x0, 31, 31⟩
/-- R297. -/
abbrev BANK_DBG_DATA_V : Fld := ⟨0x88, 0x0, 63, 0⟩

end Sys2Proof.Machine
end

