-- ==== Sys2Proof/Machine/Tab.lean ====
section
/-!
DEFINITION. Sparse tables: lists of (key, value) with keys strictly rising, the one shape in which the state holds
registers, memory cells, queue pairs, jobs, cores and every other collection addressed by a number.
-/
namespace Sys2Proof.Machine

/-- A sparse table keyed by natural numbers; its canonical form has its keys strictly rising (`Tab.sorted`). -/
abbrev Tab (α : Type) := List (Nat × α)

/-- The value a table lists for a key. -/
def Tab.find {α : Type} : Tab α → Nat → Option α
  | [], _ => none
  | (j, w) :: t, k => if j = k then some w else Tab.find t k

/-- List a value for a key, in the key's place. -/
def Tab.put {α : Type} : Tab α → Nat → α → Tab α
  | [], k, v => [(k, v)]
  | (j, w) :: t, k, v =>
    if k < j then (k, v) :: (j, w) :: t
    else if k = j then (k, v) :: t
    else (j, w) :: Tab.put t k v

/-- Strike a key. -/
def Tab.erase {α : Type} (t : Tab α) (k : Nat) : Tab α := t.filter (fun c => c.1 != k)

/-- The value of a key, `d` where the table lists none. -/
def Tab.getD {α : Type} (t : Tab α) (k : Nat) (d : α) : α := (Tab.find t k).getD d

/-- Set a key's value where an unlisted key reads as `d`: a value equal to `d` is not listed. -/
def Tab.setD {α : Type} [DecidableEq α] (t : Tab α) (k : Nat) (v d : α) : Tab α :=
  if v = d then Tab.erase t k else Tab.put t k v

/-- The keys rise strictly. -/
def Tab.sorted {α : Type} : Tab α → Bool
  | [] => true
  | [_] => true
  | (j, _) :: (k, w) :: t => decide (j < k) && Tab.sorted ((k, w) :: t)

end Sys2Proof.Machine
end

