-- ==== Sys2Proof/Machine/Mem.lean ====
section
/-!
DEFINITION. Byte memories in one canonical form: (address, byte) pairs, addresses strictly rising, no entry equal to
what an unlisted address reads as (zero); beside them the poisoned 64-byte granules, rising. Every change of a memory is
a splice: a range of addresses loses its cells and receives others.
-/
namespace Sys2Proof.Machine

/-- What a byte that nothing has written reads as (log entry 3). -/
abbrev Mem.blank : Byte := 0

/-- A byte-addressed memory with one poison bit for each 64-byte granule (R280). -/
structure Mem where
  /-- (address, byte), addresses rising, no byte zero. -/
  cells  : List Host.Cell := []
  /-- Granule numbers (address / 64) that are poisoned, rising. -/
  poison : List Nat := []
deriving DecidableEq, Repr

/-- The byte at an address. -/
def Mem.read1 (m : Mem) (a : Nat) : Byte := (Tab.find m.cells a).getD Mem.blank

/-- `n` bytes from an address. -/
def Mem.read (m : Mem) (a n : Nat) : List Byte := (List.range n).map (fun i => m.read1 (a + i))

/-- Little-endian number of `n` bytes at an address (R10). -/
def Mem.readN (m : Mem) (a n : Nat) : Nat := natLE (m.read a n)

/-- The cells that a byte string makes from an address on: zero bytes are not listed. -/
def Mem.cellsOf : Nat → List Byte → List Host.Cell
  | _, [] => []
  | a, b :: bs => if b = Mem.blank then Mem.cellsOf (a + 1) bs else (a, b) :: Mem.cellsOf (a + 1) bs

/-- The cells with those of [a, a + n) replaced. -/
def Mem.spliceCells (cs : List Host.Cell) (a n : Nat) (new : List Host.Cell) : List Host.Cell :=
  cs.filter (fun c => decide (c.1 < a)) ++ new ++ cs.filter (fun c => decide (a + n ≤ c.1))

/-- Write a byte string at an address; poison bits stay. -/
def Mem.write (m : Mem) (a : Nat) (bs : List Byte) : Mem :=
  { m with cells := Mem.spliceCells m.cells a bs.length (Mem.cellsOf a bs) }

/-- The cells of [sa, sa + n), moved to start at `da`. -/
def Mem.window (cs : List Host.Cell) (sa n da : Nat) : List Host.Cell :=
  (cs.filter (fun c => decide (sa ≤ c.1) && decide (c.1 < sa + n))).map (fun c => (c.1 - sa + da, c.2))

/-- Copy `n` bytes from `src` at `sa` to `da`; poison bits stay. -/
def Mem.copyBytes (m src : Mem) (da sa n : Nat) : Mem :=
  { m with cells := Mem.spliceCells m.cells da n (Mem.window src.cells sa n da) }

/-- Zero `n` bytes from an address; poison bits stay. -/
def Mem.zero (m : Mem) (a n : Nat) : Mem := { m with cells := Mem.spliceCells m.cells a n [] }

/-- Is the granule of an address poisoned? -/
def Mem.poisoned (m : Mem) (a : Nat) : Bool := m.poison.contains (a / 64)

/-- The granules that [a, a + n) touches, as first and count. -/
def granuleSpan (a n : Nat) : Nat × Nat :=
  if n = 0 then (a / 64, 0) else (a / 64, (a + n - 1) / 64 + 1 - a / 64)

/-- Is any granule that [a, a + n) touches poisoned? -/
def Mem.anyPoison (m : Mem) (a n : Nat) : Bool :=
  m.poison.any (fun g => decide ((granuleSpan a n).1 ≤ g) &&
    decide (g < (granuleSpan a n).1 + (granuleSpan a n).2))

/-- The poison list with granules [g, g + n) replaced by `new`. -/
def Mem.splicePoison (ps : List Nat) (g n : Nat) (new : List Nat) : List Nat :=
  ps.filter (fun x => decide (x < g)) ++ new ++ ps.filter (fun x => decide (g + n ≤ x))

/-- Set or clear the poison bit of every granule that [a, a + n) touches. -/
def Mem.setPoison (m : Mem) (a n : Nat) (p : Bool) : Mem :=
  let new := if p then (List.range (granuleSpan a n).2).map (fun i => (granuleSpan a n).1 + i) else []
  { m with poison := Mem.splicePoison m.poison (granuleSpan a n).1 (granuleSpan a n).2 new }

/-- Copy the poison bits of the granules of [sa, sa + n) to those of [da, da + n); `sa` and `da` granule aligned. -/
def Mem.copyPoison (m src : Mem) (da sa n : Nat) : Mem :=
  let inside := src.poison.filter (fun g => decide (sa / 64 ≤ g) && decide (g < sa / 64 + ceilDiv n 64))
  let new := inside.map (fun g => g - sa / 64 + da / 64)
  { m with poison := Mem.splicePoison m.poison (da / 64) (ceilDiv n 64) new }

/-- Copy `n` bytes with their poison bits, granule for granule. -/
def Mem.copy (m src : Mem) (da sa n : Nat) : Mem := (m.copyBytes src da sa n).copyPoison src da sa n

/-- Zero `n` bytes and clear the poison of their granules. -/
def Mem.scrub (m : Mem) (a n : Nat) : Mem := (m.zero a n).setPoison a n false

/-- Write a byte string and give its granules one poison value. -/
def Mem.writeP (m : Mem) (a : Nat) (bs : List Byte) (p : Bool) : Mem := (m.write a bs).setPoison a bs.length p

/-- Write poisoned zeros. -/
def Mem.poisonZero (m : Mem) (a n : Nat) : Mem := (m.zero a n).setPoison a n true

/-- The poisoned granules among those of [a, a + n). -/
def Mem.poisonIn (m : Mem) (a n : Nat) : List Nat :=
  m.poison.filter (fun g => decide ((granuleSpan a n).1 ≤ g) && decide (g < (granuleSpan a n).1 + (granuleSpan a n).2))

/-- Their number. -/
def Mem.countPoison (m : Mem) (a n : Nat) : Nat := (m.poisonIn a n).length

/-- Give `n` bytes from an address contents that a list of (offset, byte) pairs spells, zero elsewhere; poison stays. -/
def Mem.spell (m : Mem) (a n : Nat) (cs : List (Nat × Byte)) : Mem :=
  cs.foldl (fun m c => if c.1 < n then m.write (a + c.1) [c.2] else m) (m.zero a n)

/-- Poison exactly the granules of [a, a + n) that a list numbers from the first one on. -/
def Mem.spellPoison (m : Mem) (a n : Nat) (gs : List Nat) : Mem :=
  gs.foldl (fun m g => if g * 64 < n then m.setPoison (a + g * 64) 1 true else m) (m.setPoison a n false)

/-- Give [da, da + n) the bytes and the poison that another memory holds from `sa` on, whatever form that memory has; `sa` and
`da` granule aligned. -/
def Mem.paste (m src : Mem) (da sa n : Nat) : Mem :=
  let cs := (src.cells.filter (fun c => decide (sa ≤ c.1))).map (fun c => (c.1 - sa, c.2))
  let gs := (src.poison.filter (fun g => decide (sa / 64 ≤ g))).map (fun g => g - sa / 64)
  (m.spell da n cs).spellPoison da n gs

/-- The numbers of a list rise strictly. -/
def rising : List Nat → Bool
  | [] => true
  | [_] => true
  | a :: b :: t => decide (a < b) && rising (b :: t)

/-- The canonical form: addresses strictly rising, no byte that an unlisted address reads as, poison strictly rising. -/
def Mem.wf (m : Mem) : Bool :=
  rising (m.cells.map Prod.fst) && m.cells.all (fun c => decide (c.2 ≠ Mem.blank)) && rising m.poison

end Sys2Proof.Machine
end

