-- ==== Sys2Proof/Machine/Types.lean ====
section
/-!
DEFINITION. The parts of the state that belong to the hub: pins and power, hub NVM, the security block, the mailbox
engine and the queue pairs. Plain data throughout.
-/
namespace Sys2Proof.Machine

/-- Pins of the connector (Table 15-4), as levels after the filter of R550. `true` means asserted (or fitted). -/
structure Pins where
  /-- PERST#, as the filter passes it. -/
  perst     : Bool := true
  /-- PWRGD, as the filter passes it. -/
  pwrgd     : Bool := false
  /-- X0_PRSNT# low: a partner is fitted on X0. -/
  x0Prsnt   : Bool := false
  x1Prsnt   : Bool := false
  /-- SMB_ADDR1 and SMB_ADDR0. -/
  addrSel   : Nat := 0
  /-- X0_PERST# and X1_PERST# (driven together, R553). -/
  xPerst    : Bool := true
  wake      : Bool := false
  thermtrip : Bool := false
  /-- The boundary cells that EXTEST drives and SAMPLE/PRELOAD loads (R521). -/
  boundary  : Nat := 0
  /-- The last value shifted out on TDO by a JTAG instruction. -/
  tdo       : Nat := 0
deriving DecidableEq, Repr

/-- What a governor ramp serves when it completes (R474, R483, R487, R490, R494, R497). -/
inductive RampFor where
  /-- A raise asked by the PWR that is in flight in the die queue of a job: die and lead slot. -/
  | pwr (die slot : Nat)
  /-- The SET_POWER_CAP of a slot. -/
  | cap (slot : Nat)
  /-- The SET_POWER_STATE of a slot. -/
  | pstate (slot : Nat)
  /-- A waking of the module for work (R490). -/
  | wake
  /-- An FLR that found the module in P2 or P3 (R483). -/
  | flr
  /-- The shutdown of R474. -/
  | off
  /-- Nothing waits for it. -/
  | none
deriving DecidableEq, Repr

/-- One ramp of the governor's queue (R494): a die that moves to its effective level, or (none) the module as a whole that
moves to the figures of a power state, 0 to 4; when it arrived. -/
structure Ramp where
  die    : Option Nat
  state  : Nat
  serves : RampFor
  since  : Nat
deriving DecidableEq, Repr

/-- Power entry, start-up and the governor (R471 to R501). -/
structure Power where
  inputDv   : Nat := 0
  /-- The 54 V input has entered its operating range and has not been lost. -/
  inRange   : Bool := false
  charged   : Bool := false
  /-- The hub's auxiliary domain is powered. -/
  aux       : Bool := false
  /-- The hub's main domain is powered. -/
  main      : Bool := false
  /-- Start-up follows a cold power-up. -/
  cold      : Bool := true
  /-- Dies whose larder zeroing is not finished, bit d. -/
  zeroing   : Nat := 0
  /-- The trip latch of R501. -/
  tripped   : Bool := false
  /-- Dies with a per-die reset under way, bit d. -/
  dieReset  : Nat := 0
  ramps     : List Ramp := []
  /-- Owner fields recorded at entry to P2, by bank number (R488). -/
  p2owners  : Tab Nat := []
  /-- Work waits for the module to reach P0 (R490). -/
  waking    : Bool := false
  /-- Attic ports that failed to retrain, bit x: out of service until PERST# or a cold power cycle (R287). -/
  atticOut  : Nat := 0
  /-- The bank wake-up of R490 has not been done yet after the wake ramp, and what it serves. -/
  wakeBanks : Option RampFor := none
  /-- P3 is being left through stages 2 to 6 and 9 (R489): what that serves. -/
  leaving   : Option RampFor := none
  /-- Ballast energy below 1 mJ, in 10 µJ (Table 13-9). -/
  ballastRem : Nat := 0
  /-- When each die last ran a job, by die (R496); under 4, when the module was last at work or not in P0 (R486). What is not listed
  stands for 0. -/
  rest      : Tab Nat := []
  /-- Operating plans: voltages in mV for 1,200 to 1,900 MHz of each island, by d × 100 + p (R504). -/
  plans     : Tab (List Nat) := []
  /-- Ring-oscillator samples of each island against the factory reference (R503). -/
  osc       : Tab Nat := []
deriving DecidableEq, Repr

/-- A firmware copy of hub NVM, as the header of R515 and its verification give it. -/
structure FwCopy where
  digest   : List Byte
  svn      : Nat
  stepping : Nat
  /-- The ML-DSA-65 signature verifies under the Avouhild firmware key. -/
  sigOk    : Bool
deriving DecidableEq, Repr

/-- One record of the ageing ledger (R507). -/
structure LedgerRec where
  ts      : Nat
  powered : Nat
  grade   : Nat
  /-- (F_MAX, V(1.75 GHz), slack) of each listed island, by d × 100 + p. -/
  islands : Tab (Nat × Nat × Nat)
  /-- (operating, retention) minimum voltages of each listed bank. -/
  banks   : Tab (Nat × Nat)
  /-- (width, height) of each listed eye. -/
  eyes    : Tab (Nat × Nat)
deriving DecidableEq, Repr

/-- A two-phase decision that a part has not yet applied (R398): the die and the command's bytes and block. -/
structure Deferred where
  die   : Nat
  slot  : Nat
  bytes : List Byte
  param : List Byte
deriving DecidableEq, Repr

/-- A repair record: a row of a bank and the spare row that takes its place (R277). -/
structure Repair where
  bank  : Nat
  row   : Nat
  spare : Nat
deriving DecidableEq, Repr

/-- Hub NVM and the fuses (R1, R19, R277, R473, R501, R507, R515, R519, R520). -/
structure Nvm where
  fwA         : FwCopy
  fwB         : FwCopy
  claimed     : Bool := false
  ownerDigest : List Byte := []
  ownerSeed   : List Byte := []
  ownerKey    : List Byte := []
  spoiled     : Bool := false
  returned    : Bool := false
  seedLock    : Bool := false
  svnMin      : Nat := 0
  /-- Replacements made: die × 96 + L ↦ physical core (R19). -/
  replaced    : Tab Nat := []
  /-- Spares marked FAILED: die × 100 + p (R19). -/
  failedCores : List Nat := []
  /-- Row repairs, oldest first (R277). -/
  repairs     : List Repair := []
  /-- Banks marked FAILED (R278). -/
  failedBanks : List Nat := []
  ledger      : List LedgerRec := []
  trip        : Bool := false
  powerLoss   : Bool := false
  deferred    : List Deferred := []
  /-- Cores retired for ageing (Table 13-8). -/
  retiredAge  : Nat := 0
  /-- (operating, retention) minimum voltages measured, in 5 mV units (R503). -/
  vmin        : Tab (Nat × Nat) := []
  /-- (width, height, minimum width) of each eye measured (R503). -/
  eyes        : Tab (Nat × Nat × Nat) := []
deriving DecidableEq, Repr

/-- Who asked for a debug session: the queue pair of a slot, or a mailbox message (its path and TAG). -/
inductive Asker where
  | keager (slot : Nat)
  | mailbox (path : MboxPath) (tag : Nat)
deriving DecidableEq, Repr

/-- A mailbox request that the engine holds (R537). -/
structure MboxReq where
  path    : MboxPath
  msg     : Nat
  tag     : Nat
  payload : List Byte
deriving DecidableEq, Repr

/-- The security block (R511 to R533), with the keys of Table 14-1 while they are present; no key bit is reachable. -/
structure Sec where
  drs    : Option (List Byte) := none
  /-- The seed of the device identity key. -/
  dik    : Option (List Byte) := none
  ors    : Option (List Byte) := none
  /-- CK as the block holds it. -/
  ck     : Option (List Byte) := none
  /-- The copy of CK in the cellar controller (R513). -/
  ckCellar : Option (List Byte) := none
  /-- The trace ring: record index ↦ 16 B as a number (R522). -/
  trace  : Tab Nat := []
  /-- A DEBUG_ENTER at D2 whose checks have passed waits for P0 and for the cellar (R527): who asked. -/
  d2wait : Option Asker := none
deriving DecidableEq, Repr

/-- The mailbox engine (R536, R537). -/
structure Mbox where
  /-- The buffer at 0x0021_0000. -/
  buf     : Mem := {}
  /-- Requests accepted and not yet served, in order of arrival: the first is being served. -/
  queue   : List MboxReq := []
  /-- The last reply on SMBus and on PCIe VDM. -/
  replySmb : List Byte := []
  replyPci : List Byte := []
  /-- Endpoint identifiers assigned on SMBus and on PCIe VDM. -/
  eidSmb  : Nat := 0
  eidPci  : Nat := 0
  /-- The firmware staging area, 16 MiB. -/
  staging : Mem := {}
deriving DecidableEq, Repr

/-- A fetched command that has not been posted (R377 to R399). -/
structure Cmd where
  bytes    : List Byte
  seq      : Nat
  /-- The parameter block, once read (R376). -/
  param    : Option (List Byte) := none
  started  : Bool := false
  /-- The internal completion is present (R388), and its time. -/
  done     : Bool := false
  doneTs   : Nat := 0
  /-- Outcomes gathered so far (R390). -/
  outcomes : List Nat := []
  /-- Parts that completed their share (R380). -/
  parts    : Nat := 0
  result   : Nat := 0
  /-- Event-ring index of the first entry written for it. -/
  evt      : Option Nat := none
  grazed   : Bool := false
  /-- The deadline won; the completion waits for the stop to finish (R392). -/
  stopped  : Bool := false
  /-- Two-phase: parts that are to prepare, and those that have (R396). -/
  want     : Nat := 0
  prepared : Nat := 0
  /-- Two-phase: parts that hold its record, and parts that have replied or been lost. -/
  asked    : Nat := 0
  replied  : Nat := 0
  /-- Waits after its decision for a target to be reached (R487, R497). -/
  waiting  : Bool := false
deriving DecidableEq, Repr

/-- A queue pair beyond its registers (R369 to R379). -/
structure Qp where
  sqBase   : Nat := 0
  cqBase   : Nat := 0
  evtBase  : Nat := 0
  sqLog    : Nat := 6
  cqLog    : Nat := 6
  evtLog   : Nat := 6
  /-- The last valid heads that the host has written (R372, R402): KGR_CQ_HEADj and KGR_EVT_HEADj show what was written, the
  model works on with these (log entry 44). -/
  cqHead   : Nat := 0
  evtHead  : Nat := 0
  cqPhase  : Bool := true
  evtPhase : Bool := true
  cmds     : List Cmd := []
  /-- Completions that wait for CQ space, PHASE bit clear (R372), each with its IRQ flag. -/
  held     : List (List Byte × Bool) := []
  /-- SEQ and status, none before completion, of the last 4,096 fetched commands, newest first (R378). -/
  outcomes : List (Nat × Option Nat) := []
  /-- Event entries dropped since the last LOST entry (R402). -/
  dropped  : Nat := 0
deriving DecidableEq, Repr

end Sys2Proof.Machine
end

