-- ==== Sys2Proof/Machine/JobTypes.lean ====
section
/-!
DEFINITION. The parts of the state that belong to jobs, dies, cores, links, the attic and the cellar.
-/
namespace Sys2Proof.Machine

/-- A plan binding: the fields of Table 10-8 and the plan image as the loader copied it to the plan areas (R217). -/
structure Binding where
  imageLa    : Nat
  imageBytes : Nat
  /-- Plan area, larder base and spill area of each die. -/
  area       : List Nat
  ldrBase    : List Nat
  atcBase    : Nat
  spill      : List Nat
  rkey       : Nat
  /-- The image has passed the plan loader (R208). -/
  loaded     : Bool := false
  /-- What the queues fetch from: the copied tables, by offset in the image. -/
  plan       : Mem := {}
  /-- Block size of each state tensor of each section, as the loader found it (R325): section × 2^32 + TENSOR_ID. -/
  states     : Tab Nat := []
deriving DecidableEq, Repr

/-- Steering state of one layer of a job (R176); `variant` none stands for the plan's default. -/
structure LayerSt where
  variant : Option Nat := none
  dwell   : Nat := 0
  /-- Consecutive boundaries without an up trigger. -/
  quiet   : Nat := 0
  /-- The steward changed the variant at the last boundary (R231). -/
  fresh   : Bool := false
deriving DecidableEq, Repr

/-- Steering state of one tensor of a job (R176); `xOut` none stands for the plan's value. -/
structure TensorSt where
  xOut   : Option Int := none
  zrun   : Nat := 0
  /-- The underflow event has been logged since ZRUN was last 0 (R168). -/
  logged : Bool := false
  quiet  : Nat := 0
deriving DecidableEq, Repr

/-- A partial or merged tally of a tensor in one step (Table 4-1). SSE and SSS are FP64 patterns. -/
structure Tally where
  elements : Nat := 0
  zero     : Nat := 0
  sat      : Nat := 0
  nonfin   : Nat := 0
  sse      : Nat := 0
  sss      : Nat := 0
  sampled  : Nat := 0
  maxExp   : Int := -128
  tiles    : Nat := 0
  recomp   : Nat := 0
  poison   : Bool := false
deriving DecidableEq, Repr

/-- The kept ring digests of one step (Table 10-17). -/
structure DigestRec where
  step     : Nat
  set      : Nat
  mismatch : Nat
  stepSet  : Nat
  tx       : List (List Byte)
  rx       : List (List Byte)
deriving DecidableEq, Repr

/-- An instruction in flight in a queue: its position, opcode, VOP or 0, and what its completion needs. -/
structure Fly where
  idx  : Nat
  op   : Nat
  /-- PWR: level asked. RED: bucket. XFER: engine, with 8 × (engine + 1) of another destination die's. -/
  arg  : Nat := 0
  /-- Banks that hold accepted accesses of it (R260, R261). -/
  banks : List Nat := []
  /-- XFER: ranges whose reads and whose writes were denied when it issued (R263): first key and bytes. -/
  noRd : List (Nat × Nat) := []
  noWr : List (Nat × Nat) := []
  /-- XFER: source granules whose reads collided, and destination granules whose writes were dropped (R266), each by its key
  divided by 64. -/
  undef : List Nat := []
  drop  : List Nat := []
deriving DecidableEq, Repr

/-- One instruction queue of a running job (R225). -/
structure QueueSt where
  /-- Index within the phase of the next instruction to issue. -/
  pos     : Nat := 0
  fly     : List Fly := []
  /-- A YIELD that has issued and waits at its yield point: its YIELD_ID and STEP_END. -/
  yielded : Option (Nat × Bool) := none
deriving DecidableEq, Repr

/-- A chunk record at work in a ring unit: exponent, FLAGS, BS16 elements (R341). -/
structure ChunkRec where
  x     : Nat
  flags : Nat
  m     : List Int
deriving DecidableEq, Repr

/-- A RED in flight on one member (R346): plan die, position in its die queue, bucket. -/
structure RedSt where
  die      : Nat
  idx      : Nat
  bucket   : Nat
  /-- The 32 B of the instruction. -/
  raw      : List Byte
  /-- Credits from the next member have arrived. -/
  credit   : Bool := false
  /-- Chunks sent, received and acknowledged so far, in the order of R347. -/
  sent     : Nat := 0
  recvd    : Nat := 0
  acked    : Nat := 0
  /-- Outputs of the adder and gathered records, by chunk; whether the record is the result (R349). -/
  acc      : Tab (Bool × ChunkRec) := []
  /-- Compressed chunks held, by origin × 16,384 + chunk: the wire bytes (R355). -/
  held     : Tab (List Byte) := []
  /-- Resends of the chunk awaited. -/
  resends  : Nat := 0
  /-- A wait timed out: its entry is written, and nothing more is awaited (R359). -/
  timedOut : Bool := false
  /-- When the present wait began (R358). -/
  since    : Nat := 0
deriving DecidableEq, Repr

/-- A chunk on its way over the ring to plan die `to`: its header and payload as sent (Table 9-1). -/
structure ChunkFly where
  dest     : Nat
  bucket : Nat
  wire   : List Byte
deriving DecidableEq, Repr

/-- A (source, stored) pair in a measurement queue (R312): phase and position of its instruction, key of the tally, the FP32
values. -/
structure Pair where
  order  : Nat
  key    : Nat
  src    : Nat
  stored : Nat
deriving DecidableEq, Repr

/-- What eviction keeps of a core (R247, R249): codebook slots with their registers, tally partials, the beater's
step-wide registers and its pairs that wait. -/
structure SavedCore where
  books   : Tab (List Nat)
  cbRegs  : List Nat
  tallies : Tab Tally
  measure : List Pair
  nonfin  : Bool
  gnPois  : Bool
  vecStat : Nat
  gnorm   : Nat
  clip    : Nat
  ssq     : Nat
deriving DecidableEq, Repr

/-- A run in progress (R386, R387). -/
structure Run where
  /-- Slots of the members, lead first, and the SEQ of each member's RUN. -/
  members  : List Nat
  seqs     : List Nat
  mbs      : List Nat
  /-- Index of the section, and the physical die of each plan die (R236). -/
  sect     : Nat
  map      : List Nat
  /-- Members of a reduction: the replica count of the section (R348). -/
  n        : Nat
  /-- The job's replica set at the start. -/
  set      : Nat
  step     : Nat
  phase    : Nat := 0
  /-- Queues by plan die × 97 + q. -/
  queues   : Tab QueueSt := []
  /-- Token counters by plan die × 1,024 + token (R227). -/
  tokens   : Tab Nat := []
  /-- Ownership writes that have taken effect: by bank number, the latest boundary of its timeline done, as phase × 2^32 +
  position (R262). -/
  handed   : Tab Nat := []
  reds     : List RedSt := []
  chunks   : List ChunkFly := []
  /-- Failed parts, by physical die (R393). -/
  failed   : Nat := 0
  /-- Run-time lengths supplied (R187). -/
  rtl      : Tab Nat := []
  /-- Tile status ring: LA, log2 and the number of records written (R404). -/
  tileLa   : Nat := 0
  tileLog  : Nat := 6
  tiles    : Nat := 0
  /-- Internal completion reached (R388); stop asked (R392); evicted and spilled (R247). -/
  ended    : Bool := false
  stopping : Bool := false
  spilled  : Bool := false
  startTs  : Nat := 0
  /-- Outcomes gathered per member (R390). -/
  outcomes : List (Nat × Nat) := []
  /-- Boundary work done: watermark, steward. -/
  wmDone   : Bool := false
  stewDone : Bool := false
  /-- When its internal completion was reached, in arrival order at the boundary (R154). -/
  endTs    : Nat := 0
  /-- The continue or evict decision has been taken for the yield point reached. -/
  evict    : Bool := false
  /-- A job that ended keeps its footprint until evicted (R245). -/
  parked   : Bool := false
  /-- Bank reports already sent to the event ring in this phase (R263, R268). -/
  noted    : List Nat := []
  /-- Loss-scale exponent latched at the start, of each member (R305). -/
  ls       : List Int := []
  /-- Members whose update was skipped, with the physical die where it was (R321). -/
  skipped  : List (Nat × Nat) := []
  /-- Physical dies on which an ADAM or SGD of the step has executed (R328). -/
  optRan   : List Nat := []
  /-- Queues that a poisoned fetch stopped, by plan die × 97 + q (R294). -/
  poisonQ  : List Nat := []
  /-- Chunks that each member sent and received in the step, by plan die, oldest first (R360). -/
  tx       : Tab (List (List Byte)) := []
  rx       : Tab (List (List Byte)) := []
  /-- Core state aside while the job is evicted, by plan die × 96 + L (R247). -/
  saved    : Tab SavedCore := []
  /-- The boundary rolled back or found the job held (R450); the completions are posted. -/
  rolled   : Bool := false
  posted   : Bool := false
deriving DecidableEq, Repr

/-- A captured region (Table 12-4): where it lies, its digest, and the parts of it that a restore writes (R446). -/
structure SnapRegion where
  die     : Nat
  attic   : Bool
  addr    : Nat
  zero    : Bool
  sectors : Nat
  digest  : List Byte
  /-- Captured ranges, as first and last + 1 addresses. -/
  spans   : List (Nat × Nat)
  /-- Poisoned granules, numbered from the region's first. -/
  poison  : List Nat
  /-- The data slot that holds it; 0 before it is stored, and for a ZERO region. -/
  slot    : Nat := 0
deriving DecidableEq, Repr

/-- The state record of a manifest (Table 12-1): the items that the header does not carry. -/
structure SnapJob where
  policy   : Option (List Byte)
  ls       : Option Int
  clean    : Nat
  layers   : Tab LayerSt
  tensors  : Tab TensorSt
  merged   : Tab Tally
  compress : Tab Nat
deriving DecidableEq, Repr

/-- A snapshot: what its manifest holds (R445 to R456) and its retention marks. -/
structure Snap where
  id        : Nat
  slot      : Nat
  parent    : Nat
  ts        : Nat
  epoch     : Nat
  /-- FLAGS of Table 12-3. -/
  flags     : Nat
  plan      : List Byte
  dataPos   : Nat
  dataMb    : Nat
  streamPos : Nat
  streamMb  : Nat
  ostep     : Nat
  rkey      : Nat
  set       : Nat
  replicas  : Nat
  wmStep    : Option Nat
  regions   : List SnapRegion
  /-- STORED_BYTES, and the bytes of the manifest. -/
  stored    : Nat
  size      : Nat
  job       : SnapJob
  /-- The state record, whose layout Musko alone reads (R455). -/
  record    : List Byte
  auto      : Bool
  pinned    : Bool
  /-- The data slots of the manifest, and its sectors as stored there (R443). -/
  slots     : List Nat := []
  sealed    : List Byte := []
deriving DecidableEq, Repr

/-- A region as the cellar holds it (R443, R444): its data slot, its digest, whether the directory finds it by that digest, and
its sectors as stored. -/
structure Stored where
  slot   : Nat
  digest : List Byte
  shared : Bool
  sealed : List Byte
deriving DecidableEq, Repr

/-- A snapshot command under way (R450, R451). -/
structure Capture where
  /-- SEQ of the SNAP_TAKE; ENTRY point. -/
  seq   : Nat
  entry : Bool
  /-- Waits for the boundary of the RUN directly before it. -/
  waits : Bool := false
  /-- What the freeze captured; none before it. -/
  snap  : Option Snap := none
  /-- The freeze goes on: the job's queues issue nothing (R451). -/
  frozen : Bool := false
  /-- Regions of the snapshot, by index, that the freeze reads; the others are the parent's (R452). -/
  reads : List Nat := []
  /-- Regions that are not stored yet: digest and contents. -/
  fresh : List (List Byte × Mem) := []
  /-- Regions written during the freeze, by index: what their copies hold (R453). -/
  torn  : List (Nat × Mem) := []
  notes : List Nat := []
  /-- A die of the set has left service (R454). -/
  lost  : Bool := false
deriving DecidableEq, Repr

/-- A job slot. -/
structure Job where
  /-- Larder windows: base (die-local offset) and bytes of each die; attic window (R384). -/
  ldrBase   : List Nat := [0, 0, 0, 0]
  ldrBytes  : List Nat := [0, 0, 0, 0]
  atcBase   : Nat := 0
  atcBytes  : Nat := 0
  binding   : Option Binding := none
  /-- Policy in force and policy waiting for the next boundary, raw bytes (R171, R174). -/
  policy    : Option (List Byte) := none
  policyNew : Option (List Byte) := none
  /-- The waiting policy takes effect at the boundary that comes (R174). -/
  policyRipe : Bool := false
  /-- Loss-scale exponent (none stands for LS_INIT) and clean count (R164, R176). -/
  ls        : Option Int := none
  clean     : Nat := 0
  layers    : Tab LayerSt := []
  tensors   : Tab TensorSt := []
  /-- Merged tallies of the last step acted on, by tensor index (R445). -/
  merged    : Tab Tally := []
  /-- Step counter (R386). -/
  step      : Nat := 0
  /-- Has the job completed a step since its binding, reset or restore (R231)? -/
  firstStep : Bool := true
  /-- The watermark is due at the next boundary whatever PERIOD gives (R381, R431). -/
  wmDue     : Bool := false
  /-- Compressed buckets and LS_E of each, as two's-complement exponents offset by 2^31 (R356). -/
  compress  : Tab Nat := []
  digests   : List DigestRec := []
  jobKey    : Option (List Byte) := none
  /-- Binds since start-up (R535). -/
  binds     : Nat := 0
  /-- MB of the last steps run, by step (R448). -/
  mbs       : Tab Nat := []
  /-- Step of the last agreement (Table 12-3). -/
  agreed    : Option Nat := none
  run       : Option Run := none
  capture   : Option Capture := none
  /-- Ranges that a SNAP_RESTORE before its decision has written: tier, first address, bytes (R462). -/
  restoring : List (Nat × Nat × Nat) := []
deriving DecidableEq, Repr

/-- A fill in progress or queued (R414). -/
structure FillSt where
  logical : Nat
  source  : Nat
  cause   : Nat
  target  : Nat := 127
  /-- 0 queued, 1 waiting for banks, 2 copied, 3 known-answer check passed. -/
  stage   : Nat := 0
  poisoned : Nat := 0
  /-- Owner code and job of each bank of the failed core before the fill takes the banks (R417). -/
  owners   : List (Nat × Option Nat) := []
  /-- When the fill first started, and how often it started on a next spare (R423). -/
  began    : Nat := 0
  restarts : Nat := 0
deriving DecidableEq, Repr

/-- A write-back that a bank has pending (R258): the bank, the offset of its 8 B, whether it sets the granule's poison copies,
and whether the granule was poisoned before the error was found. -/
structure WriteBack where
  bank : Nat
  off  : Nat
  ue   : Bool
  was  : Bool
deriving DecidableEq, Repr

/-- A PRESERVING march under way (R276): its bank, and the slot and SEQ of the MARCH_PRESERVING. -/
structure March where
  bank : Nat
  slot : Nat
  seq  : Nat
deriving DecidableEq, Repr

/-- A compute die beyond its registers. -/
structure DieSt where
  fills  : List FillSt := []
  /-- Issue gaps of R495. -/
  gaps   : Bool := false
  /-- The banks under a PRESERVING march, at most 16 (R274, R276). -/
  marches : List March := []
  /-- Write-backs of its banks that are pending (R258). -/
  backs  : List WriteBack := []
  /-- The attic is out of the die's reach: its hub link is down. -/
  cut    : Bool := false
  /-- The self-test of R437 runs. -/
  testing : Bool := false
  /-- The last of the fabric sensors' readings outside 97 °C to 100 °C was below (R499). -/
  cool    : Bool := true
  /-- What the die's work draws, in W (R493). -/
  work    : Nat := 0
deriving DecidableEq, Repr

/-- Flagged rows of one array that wait for a vote (R90), or the vote's outcome (Table 2-12). -/
structure Vote where
  arr     : Nat
  quad    : Nat
  rows    : List Nat
  /-- Pass accumulator of the first failed check of the first flagged row, from 1. -/
  pass    : Nat
  seg     : Nat
  /-- ARR_INJECT alone caused the mismatch (R96). -/
  inj     : Bool := false
  outcome : Nat := 0
deriving DecidableEq, Repr

/-- One row of an accumulator bank (R62): its lanes, 32 or 40 bits wide, by pass accumulator (those of the four quadrants one
after another), and the predicted residues by pass accumulator and quadrant (R88). -/
structure BankRow where
  lanes : List (List Int)
  pred  : List (List Int)
deriving DecidableEq, Repr

/-- An MMA in flight in a core (R225, R58 to R71). -/
structure MmaFly where
  lead   : Nat
  idx    : Nat
  /-- Ranges of the shelves that were denied when it issued (R263): first key and bytes. -/
  denied : List (Nat × Nat) := []
  /-- 0 sweeping or draining, 1 last segment drained, 2 specials slot over, 3 output drained. -/
  stage  : Nat := 0
  /-- The segment that sweeps, the buffer swaps made in it, and the segments that have been drained. -/
  seg    : Nat := 0
  swaps  : Nat := 0
  drained : Nat := 0
  /-- Scale exponents of the two most recent segments, rows and columns of each stream, by segment × 16 + stream (R81). -/
  exps   : Tab (List Int × List Int) := []
  /-- Parity errors so far, each with its segment; the mask planes' with none (R89, R93). -/
  errs   : List (Option Nat × Parity) := []
  /-- FP32 accumulators: (stream × 64 + row) × 128 + column; those with the sticky overflow bit (R66). -/
  acc    : Tab Nat := []
  sticky : List Nat := []
  pend   : List Vote := []
  votes  : List Vote := []
  /-- Streams (by position) poisoned by a three-way verdict. -/
  bad    : List Nat := []
  /-- Streams whose tile raised the overflow flag. -/
  excess   : List Nat := []
deriving DecidableEq, Repr

/-- A physical core beyond its registers. -/
structure Core where
  /-- Codebook slots: 256 levels each (R103). -/
  books    : Tab (List Nat) := []
  /-- The weight buffers (R54, R58): the front one, which sweeps read, and the back one; a byte beyond the list is zero. -/
  front    : List Byte := []
  back     : List Byte := []
  /-- Accumulator banks in use, by array × 2 + bank: their rows (R62); a bank that is not listed is empty. -/
  banks    : Tab (List BankRow) := []
  /-- MMAs issued and not complete, oldest first; at most two (R72). -/
  mmas     : List MmaFly := []
  /-- Armed injections: array ↦ ARR_INJECT value (R96). -/
  armed    : Tab Nat := []
  /-- Partial tallies, by slot × 65,536 + tensor index (R146). -/
  tallies  : Tab Tally := []
  /-- Pairs that wait to be folded, by their instructions' order of issue (R312). -/
  measure  : List Pair := []
  nonfin   : Bool := false
  gnPoison : Bool := false
  halted   : Bool := false
  /-- Thermal limit in MHz, and the limit of R495. -/
  thermal  : Option Nat := none
  powerCap : Option Nat := none
  /-- Limit that a drop of R505 leaves until the next re-plan. -/
  slackCap : Option Nat := none
  /-- The last of the island's readings outside 97 °C to 100 °C was below (R499). -/
  cool     : Bool := true
  gap      : Bool := false
  /-- Verdict counts that R412 compares stand in ARR_STAT; the core has been marked for retirement. -/
  retiring : Bool := false
deriving DecidableEq, Repr

/-- One direction of a link (R334, R335): flits sent and not acknowledged, replays of the present flit. -/
structure LinkSt where
  replays : Nat := 0
  held    : Nat := 0
deriving DecidableEq, Repr

/-- An attic request of 64 B that is outstanding (R285). -/
structure AtticReq where
  id     : Nat
  port   : Nat
  write  : Bool
  aa     : Nat
  /-- Where a read's granule goes: tier, physical die, physical core, address. -/
  tier   : Nat := 2
  die    : Nat := 0
  core   : Nat := 0
  addr   : Nat := 0
  /-- Bytes that move: 64, or those of a packed row. -/
  bytes  : Nat := 64
  /-- The owner of a read's destination bank did not admit the transfer when it issued, or the write was dropped (R263, R266). -/
  denied : Bool := false
  /-- What a write carries. -/
  data   : List Byte := []
  poison : Bool := false
  /-- The port has it outstanding: at most 4,096 reads and 4,096 writes (R285). -/
  sent   : Bool := true
  /-- When it was sent (R286). -/
  ts     : Nat := 0
  /-- Lead slot of the run, or slot of the command, that it serves. -/
  slot   : Nat := 0
  /-- SEQ of the COPY or FILL that it serves; none for an XFER. -/
  cmd    : Option Nat := none
  /-- Plan die and position of the XFER that it serves. -/
  pd     : Nat := 0
  idx    : Nat := 0
deriving DecidableEq, Repr

/-- The cellar (R442 to R467). -/
structure Cellar where
  /-- Committed snapshots, by ascending SNAP_ID. -/
  snaps  : List Snap := []
  /-- Stored regions (R444). -/
  store  : List Stored := []
  nextId : Nat := 1
  epoch  : Nat := 0
  /-- Captures without a commit record that recovery will discard, and whether a power loss met operations in flight
  (R466, R467). -/
  lost   : Nat := 0
  holdup : Bool := false
deriving DecidableEq, Repr

end Sys2Proof.Machine
end

