-- ==== Sys2Proof/Machine/State.lean ====
section
/-!
DEFINITION. The state of the block: everything the spec gives the module, as plain data, and the queue of the commands
that wait. Every BAR0 register has one home, the table `regs`; an unlisted register reads as its reset value.
-/
namespace Sys2Proof.Machine

/-- The last completion that the host, a JTAG master or an MCTP master received from a read (R34, R43, R282, R521). -/
structure ReadBack where
  data   : List Byte := []
  poison : Bool := false
deriving DecidableEq, Repr

/-- The state of the module (INVENTORY.md, State). -/
structure State where
  /-- The commands that wait, first in first out. -/
  pending  : List Instr := []
  /-- HUB_TIMESTAMP (R7). -/
  ts       : Nat := 0
  /-- The model's own counter of free values drawn (log entry 2). -/
  fresh    : Nat := 0
  /-- BAR0 registers that differ from their reset values, by BAR0 address. -/
  regs     : Tab Word := []
  /-- The BAR0 latch: register address and bits [63:32] (R43). -/
  latch    : Option (Nat × Nat) := none
  /-- Size of the BAR2 window that the host has selected, 2^(28 + bar2Log) B: 0 to 9 (R33). -/
  bar2Log  : Nat := 9
  /-- What the last read returned. -/
  rd       : ReadBack := {}
  /-- MSI-X messages sent, by vector (R373). -/
  msix     : Tab Nat := []
  pins     : Pins := {}
  power    : Power := {}
  nvm      : Nvm
  sec      : Sec := {}
  mbox     : Mbox := {}
  /-- Host memory, by bus address. -/
  host     : Mem := {}
  /-- The larder, by LA (R32). -/
  larder   : Mem := {}
  /-- The attic, by AA (R284). -/
  attic    : Mem := {}
  /-- Shelves: (d × 100 + p) × 5,242,880 + SA (R183). -/
  shelf    : Mem := {}
  /-- Store rooms: d × 2^26 + address (R255). -/
  store    : Mem := {}
  /-- Last-write epoch of each 2 MiB larder region, by LA / 2^21 (R452). -/
  epochs   : Tab Nat := []
  /-- Capture epoch at the last zeroing of each die's larder (R452). -/
  epochBase : Tab Nat := []
  qps      : Tab Qp := []
  /-- Prepared records, by part (R396): slot, SEQ and when the prepare began. -/
  prepared : Tab (Nat × Nat × Nat) := []
  jobs     : Tab Job := []
  dies     : Tab DieSt := []
  /-- Cores, by d × 100 + p. -/
  cores    : Tab Core := []
  /-- Links, by number × 2 + direction (R334). -/
  links    : Tab LinkSt := []
  /-- Attic requests outstanding, oldest first, and the number of the next one (R285). -/
  attics   : List AtticReq := []
  atticNext : Nat := 0
  /-- Bank power transitions in progress: bank ↦ from × 4 + to (Table 7-5). -/
  bankTrans : Tab Nat := []
  cellar   : Cellar := {}
deriving DecidableEq, Repr

/-- Why a step stops: the access is none of this module's. -/
inductive Fault where
  /-- A BAR0 access at or above 64 MiB (R36), or a BAR2 access outside the window's 128 GiB (R33): raised by the host's
  access commands, safe (such a transaction does not reach the module). -/
  | outsideBar
deriving DecidableEq, Repr

/-- Why a command is refused. -/
inductive Refusal where
  /-- The command has no meaning yet: raised by the dispatch only, safe. -/
  | notModelled (mnemonic : String)
deriving DecidableEq, Repr

/-- The firmware copies of a module as shipped (log entry 4). -/
def shippedFw : FwCopy := ⟨List.replicate 64 0, 0, 0xB0, true⟩

/-- The module right after reset, before power enters: every register at its reset value, memories blank, no command
waiting. Values the spec does not give are named in log entries 3 to 7. -/
def State.reset : State := { nvm := { fwA := shippedFw, fwB := shippedFw } }

end Sys2Proof.Machine
end

