-- ==== Sys2Proof/Machine/Ops.lean ====
section
/-!
DEFINITION. The named operations over registers, memories and the tables of the state that every meaning uses.
-/
namespace Sys2Proof.Machine

/-! ## Register addresses -/

/-- Base of a compute die's window (R36). -/
def dieAt (d : Nat) : Nat := 0x1000000 + d * 0x400000
/-- Base of a physical core's block (Table 1-10). -/
def coreAt (d p : Nat) : Nat := dieAt d + 0x100000 + p * 0x2000
/-- Base of an array's block (Table 1-11). -/
def arrAt (d p n : Nat) : Nat := coreAt d p + 0xC00 + n * 0x100
/-- Base of a shelf's block (Table 1-11). -/
def shelfAt (d p k : Nat) : Nat := coreAt d p + 0x1000 + k * 0x100
/-- Base of a store-room bank's block (Table 1-10). -/
def storeAt (d b : Nat) : Nat := dieAt d + 0x80000 + b * 0x100
/-- Die of a bank number. -/
def bankDie (b : Nat) : Nat := b / 816
/-- Is the bank a store-room bank? -/
def bankIsStore (b : Nat) : Bool := decide (800 ≤ b % 816)
/-- Base of a bank's block. -/
def bankAt (b : Nat) : Nat :=
  if bankIsStore b then storeAt (bankDie b) (b % 816 - 800)
  else shelfAt (bankDie b) (b % 816 / 8) (b % 816 % 8)
/-- Bank number of shelf k of core p of die d. -/
def shelfBank (d p k : Nat) : Nat := d * 816 + p * 8 + k
/-- Bank number of store-room bank b of die d. -/
def storeBank (d b : Nat) : Nat := d * 816 + 800 + b

/-- The row that describes offset `o` of a block. -/
def rowOf (rows : List RegRow) (o : Nat) : Option RegRow :=
  rows.find? (fun r => decide (r.off ≤ o) &&
    (if r.stride = 0 then o == r.off else (o - r.off) % r.stride == 0 && decide ((o - r.off) / r.stride < r.count)))

/-- The row that describes a BAR0 address (R36 to R38); none where the range is reserved. -/
def regRow (a : Nat) : Option RegRow :=
  if a < 0x1000000 then rowOf hubRows a
  else if a < 0x2000000 then
    let o := (a - 0x1000000) % 0x400000
    if o < 0x80000 then rowOf dieRows o
    else if o < 0x81000 then rowOf bankRows (o % 0x100)
    else if o < 0x100000 then none
    else if o < 0x1C8000 then
      let c := (o - 0x100000) % 0x2000
      if c < 0xC00 then rowOf coreRows c
      else if c < 0x1000 then rowOf arrRows (c % 0x100)
      else if c < 0x1800 then rowOf bankRows (c % 0x100)
      else none
    else none
  else none

/-- Reset value of the register at an address; KGR_QCFGj.VECTOR resets to j (Table 10-14). -/
def regReset (a : Nat) : Word :=
  match regRow a with
  | none => 0
  | some r =>
    if r.off = 0x101018 then BitVec.ofNat 64 (r.reset + (a - r.off) / 0x80 * 2 ^ 14)
    else BitVec.ofNat 64 r.reset

/-! ## Registers and fields -/

/-- The value of a register. -/
def State.reg (s : State) (a : Nat) : Word := (Tab.find s.regs a).getD (regReset a)

/-- Set a register. -/
def State.setReg (s : State) (a : Nat) (v : Word) : State :=
  { s with regs := Tab.setD s.regs a v (regReset a) }

/-- Address of the i-th register that holds a field, in the block at `base`. -/
def Fld.at (f : Fld) (base i : Nat) : Nat := base + f.off + i * f.stride

/-- The value of a field. -/
def State.fld (s : State) (base : Nat) (f : Fld) (i : Nat := 0) : Nat := bitsOf (s.reg (f.at base i)) f.hi f.lo

/-- A one-bit field. -/
def State.bit (s : State) (base : Nat) (f : Fld) (i : Nat := 0) : Bool := s.fld base f i == 1

/-- Set a field, to the low bits of `v`. -/
def State.setFld (s : State) (base : Nat) (f : Fld) (v : Nat) (i : Nat := 0) : State :=
  s.setReg (f.at base i) (withBits (s.reg (f.at base i)) f.hi f.lo v)

/-- Advance a counter field. -/
def State.bump (s : State) (base : Nat) (f : Fld) (n : Nat := 1) (i : Nat := 0) : State :=
  s.setFld base f (s.fld base f i + n) i

/-- Advance a counter that saturates at its width. -/
def State.bumpSat (s : State) (base : Nat) (f : Fld) (n : Nat := 1) (i : Nat := 0) : State :=
  s.setFld base f (min (s.fld base f i + n) (2 ^ (f.hi + 1 - f.lo) - 1)) i

/-- Return every register whose address satisfies `p` to its reset value. -/
def State.resetRegs (s : State) (p : Nat → Bool) : State :=
  { s with regs := s.regs.filter (fun c => !p c.1) }

/-- Is an address in [lo, hi)? -/
def within (lo hi a : Nat) : Bool := decide (lo ≤ a) && decide (a < hi)

/-! ## Free values (log entry 2) -/

/-- The free value that the next draw gives. -/
def State.free (s : State) : Word := Config.freeBits s.fresh

/-- The state after a draw. -/
def State.drawn (s : State) : State := { s with fresh := s.fresh + 1 }

/-- `n` bytes of free values: byte i from the draw `at + i`. -/
def freeBytes (start n : Nat) : List Byte :=
  (List.range n).map (fun i => BitVec.ofNat 8 (Config.freeBits (start + i)).toNat)

/-- The state after `n` draws. -/
def State.drawnN (s : State) (n : Nat) : State := { s with fresh := s.fresh + n }

/-! ## Queue pairs, jobs, dies, cores -/

/-- Queue pair j. -/
def State.qp (s : State) (j : Nat) : Qp := Tab.getD s.qps j {}
/-- Replace queue pair j. -/
def State.setQp (s : State) (j : Nat) (q : Qp) : State := { s with qps := Tab.setD s.qps j q {} }
/-- Change queue pair j. -/
def State.modQp (s : State) (j : Nat) (f : Qp → Qp) : State := s.setQp j (f (s.qp j))
/-- Job j. -/
def State.job (s : State) (j : Nat) : Job := Tab.getD s.jobs j {}
/-- Replace job j. -/
def State.setJob (s : State) (j : Nat) (v : Job) : State := { s with jobs := Tab.setD s.jobs j v {} }
/-- Change job j. -/
def State.modJob (s : State) (j : Nat) (f : Job → Job) : State := s.setJob j (f (s.job j))
/-- Die d. -/
def State.die (s : State) (d : Nat) : DieSt := Tab.getD s.dies d {}
/-- Replace die d. -/
def State.setDie (s : State) (d : Nat) (v : DieSt) : State := { s with dies := Tab.setD s.dies d v {} }
/-- Change die d. -/
def State.modDie (s : State) (d : Nat) (f : DieSt → DieSt) : State := s.setDie d (f (s.die d))
/-- Core p of die d. -/
def State.core (s : State) (d p : Nat) : Core := Tab.getD s.cores (d * 100 + p) {}
/-- Replace core p of die d. -/
def State.setCore (s : State) (d p : Nat) (v : Core) : State :=
  { s with cores := Tab.setD s.cores (d * 100 + p) v {} }
/-- Change core p of die d. -/
def State.modCore (s : State) (d p : Nat) (f : Core → Core) : State := s.setCore d p (f (s.core d p))

/-- Change hub NVM. -/
def State.modNvm (s : State) (f : Nvm → Nvm) : State := { s with nvm := f s.nvm }

/-- Apply a change for every entry of a list. -/
def State.forAll {α : Type} (s : State) (l : List α) (f : State → α → State) : State := l.foldl f s

/-! ## Memories -/

/-- Key of shelf address SA of core p of die d (R183). -/
def shelfKey (d p sa : Nat) : Nat := (d * 100 + p) * 5242880 + sa
/-- Key of a store-room address of die d (R255). -/
def storeKey (d a : Nat) : Nat := d * 2 ^ 26 + a
/-- Bytes of a bank: 640 KiB of a shelf, 4 MiB of a store-room bank (R28). -/
def bankBytes (b : Nat) : Nat := if bankIsStore b then 4194304 else 655360
/-- Key of a bank's first byte. -/
def bankKey (b : Nat) : Nat :=
  if bankIsStore b then storeKey (bankDie b) ((b % 816 - 800) * 4194304)
  else shelfKey (bankDie b) (b % 816 / 8) (b % 816 % 8 * 655360)
/-- Address of a bank's first byte in its core's shelves or its die's store room (R255). -/
def bankAddr (b : Nat) : Nat := if bankIsStore b then (b % 816 - 800) * 4194304 else b % 816 % 8 * 655360
/-- Bytes from `off` of a bank. -/
def State.bankRead (s : State) (b off n : Nat) : List Byte :=
  if bankIsStore b then s.store.read (bankKey b + off) n else s.shelf.read (bankKey b + off) n
/-- Is a granule of a bank poisoned? -/
def State.bankPoisoned (s : State) (b off n : Nat) : Bool :=
  if bankIsStore b then s.store.anyPoison (bankKey b + off) n else s.shelf.anyPoison (bankKey b + off) n
/-- Change a bank's memory. -/
def State.modBank (s : State) (b : Nat) (f : Mem → Mem) : State :=
  if bankIsStore b then { s with store := f s.store } else { s with shelf := f s.shelf }
/-- Zero a bank, poison clear. -/
def State.bankZero (s : State) (b : Nat) : State := s.modBank b (fun m => m.scrub (bankKey b) (bankBytes b))

/-- Is a larder address populated (R32)? -/
def laPopulated (la : Nat) : Bool := decide (la < 2 ^ 37) && decide (la % 2 ^ 35 < 32000000000)
/-- Does [la, la + n) stay in the populated range of its die? -/
def laRange (la n : Nat) : Bool :=
  decide (la < 2 ^ 37) && decide (la % 2 ^ 35 + n ≤ 32000000000)
/-- Last-write epoch of a 2 MiB larder region (R452): the capture epoch that the cellar holds, which CLR_EPOCH shows. -/
def State.regionEpoch (s : State) (r : Nat) : Nat :=
  (Tab.find s.epochs r).getD (Tab.getD s.epochBase (r / 2 ^ 14) 0)
/-- Note the capture epoch in the regions that a larder write touches (R452). -/
def State.touchEpoch (s : State) (la n : Nat) : State :=
  if n = 0 then s else
  let e := s.cellar.epoch
  s.forAll (List.range ((la + n - 1) / 2097152 + 1 - la / 2097152))
    (fun s i => { s with epochs := Tab.put s.epochs (la / 2097152 + i) e })
/-- Zero a die's larder, poison clear; this counts as a write to every region (R296, R452). -/
def State.zeroLarder (s : State) (d : Nat) : State :=
  let m := s.larder.scrub (d * 2 ^ 35) (2 ^ 35)
  let keep := s.epochs.filter (fun c => c.1 / 2 ^ 14 != d)
  { s with larder := m, epochs := keep, epochBase := Tab.setD s.epochBase d s.cellar.epoch 0 }
/-- Change [la, la + n) of the larder. -/
def State.modLarder (s : State) (la n : Nat) (f : Mem → Mem) : State :=
  { s with larder := f s.larder }.touchEpoch la n
/-- Write bytes to the larder, poison of their granules set to `p`. -/
def State.larderWrite (s : State) (la : Nat) (bs : List Byte) (p : Bool) : State :=
  s.modLarder la bs.length (fun m => m.writeP la bs p)
/-- Write bytes to host memory by a bus-master write (R369). -/
def State.hostWrite (s : State) (a : Nat) (bs : List Byte) : State := { s with host := s.host.write a bs }

/-! ## Dies and the core map -/

/-- The four dies. -/
def allDies : List Nat := [0, 1, 2, 3]
/-- HUB_DIE_STATEd.STATE: 0 IN_SERVICE (Table 11-9). -/
def State.dieState (s : State) (d : Nat) : Nat := s.fld 0 HUB_DIE_STATE_STATE d
/-- Is die d in service? -/
def State.inService (s : State) (d : Nat) : Bool := s.dieState d == 0 && bitN (s.fld 0 HUB_STATUS_DIES) d
/-- Dies in service, as a mask. -/
def State.serviceMask (s : State) : Nat :=
  (allDies.filter (fun d => s.inService d)).foldl (fun m d => m + 2 ^ d) 0
/-- Physical core of logical core L of die d (R18). -/
def State.phys (s : State) (d l : Nat) : Nat := s.fld (dieAt d) DIE_CORE_MAP_PHYS l
/-- Logical place that maps to physical core p of die d, if any. -/
def State.logicalOf (s : State) (d p : Nat) : Option Nat :=
  (List.range 96).find? (fun l => s.bit (dieAt d) DIE_CORE_MAP_MAPPED l && s.phys d l == p)

/-- The compute die whose window holds a BAR0 address. -/
def dieOf (a : Nat) : Option Nat := if within 0x1000000 0x2000000 a then some ((a - 0x1000000) / 0x400000) else none

/-- HUB_STATUS.READY. -/
def State.ready (s : State) : Bool := s.bit 0 HUB_STATUS_READY
/-- HUB_STATUS.PSTATE. -/
def State.pstate (s : State) : Nat := s.fld 0 HUB_STATUS_PSTATE
/-- Does a BAR0 access reach registers at this address? A die in per-die reset and, in P3, every die read zero and take no
write (R42, R566); with FATAL set only the registers of Tables 13-5 to 13-7 are served (R478). -/
def State.serves (s : State) (a : Nat) : Bool :=
  (match dieOf a with
    | some d => s.pstate != 3 && s.dieState d != 5
    | none => true) && (!s.bit 0 HUB_STATUS_FATAL || decide (a < 0x90))
/-- The effect of a write to the register at `a`, which a die in reset, P3 or FATAL withholds (R42, R478, R566). -/
def State.served (s : State) (a : Nat) (f : State → State) : State := if s.serves a then f s else s
/-- Set the power state in both registers that report it (R486). -/
def State.setPstate (s : State) (p : Nat) : State :=
  (s.setFld 0 HUB_STATUS_PSTATE p).setFld 0 PWR_STAT_PSTATE p
/-- The seed of the device identity key (R511, R512). -/
def State.dikSeed (s : State) : List Byte := s.sec.dik.getD []
/-- SEC_STAT.LEVEL: the active debug level (Table 14-4). -/
def State.level (s : State) : Nat := s.fld 0 SEC_STAT_LEVEL


/-! ## The trace unit (R522) -/

/-- Record an event of a class of Table 14-12 on a die, if the unit records it: HUB_TIMESTAMP, class, die, logical core (96
for a die queue or the die), job slot, and a 4-byte argument. The argument and the room of the die's trace path are open. -/
def State.trace (s : State) (cls die core slot : Nat) : State :=
  if s.level = 0 || !s.bit 0 SEC_TRACE_CTRL_EN || !bitN (s.fld 0 SEC_TRACE_CTRL_DIES) die
      || !bitN (s.fld 0 SEC_TRACE_CTRL_CLASSES) cls then s
  else
    let v := s.free.toNat
    let s := s.drawn
    if bitN v 32 then s.bump 0 SEC_TRACE_STAT_DROPPED
    else
      let i := s.fld 0 SEC_TRACE_STAT_WR_INDEX
      let rec_ := s.ts + cls * 2 ^ 64 + die % 256 * 2 ^ 72 + core % 256 * 2 ^ 80 + slot % 256 * 2 ^ 88 + v % 2 ^ 32 * 2 ^ 96
      let s := { s with sec := { s.sec with trace := Tab.setD s.sec.trace i rec_ 0 } }
      let s := s.setFld 0 SEC_TRACE_STAT_WR_INDEX ((i + 1) % 32768)
      if i + 1 = 32768 then s.setFld 0 SEC_TRACE_STAT_WRAPPED 1 else s

end Sys2Proof.Machine
end

