-- ==== Sys2Proof/Machine/Flags.lean ====
section
/-!
DEFINITION. Status codes, their priority, alerts, MSI-X messages and event entries: everything by which the module tells
the host what happened.
-/
namespace Sys2Proof.Machine

/-- Class of a status code (R15). -/
def statusClass (st : Nat) : Nat := st / 256 % 256

/-- Does a status satisfy a dependency (R377: class 0x00 or 0x01)? -/
def statusMet (st : Nat) : Bool := decide (statusClass st ≤ 1)

/-- Rank of an outcome: the command reports the outcome of least rank (R390). -/
def statusRank (st : Nat) : Nat :=
  if st = 0x1007 then 1
  else if st = 0x1010 then 2
  else if statusClass st = 0x10 || statusClass st = 0x30 then 3
  else if st = 0x2054 then 4
  else if st = 0x2040 then 5
  else if st = 0x2043 then 6
  else if st = 0x2042 then 7
  else if st = 0x2044 then 8
  else if st = 0x2041 then 9
  else if statusClass st = 0x20 then 10
  else if st = 0x0110 then 11
  else if st = 0x0111 then 12
  else if st = 0x0101 then 13
  else if st = 0x0112 then 14
  else if statusClass st = 1 then 15
  else 16

/-- The single status that a list of outcomes reports (R390); success where there is none. -/
def pickStatus (outs : List Nat) : Nat := (minBy statusRank outs).getD 0

/-! ## Messages and alerts -/

/-- Send the MSI-X message of a vector (R373). -/
def State.raise (s : State) (v : Nat) : State := { s with msix := Tab.setD s.msix v (Tab.getD s.msix v 0 + 1) 0 }

/-- ALERT# follows the alert registers and their enables (R551). -/
def State.syncAlert (s : State) : State :=
  let on := s.fld 0 PWR_ALERT_BITS &&& s.fld 0 PWR_ALERT_EN_BITS
  let sec := s.fld 0 SEC_ALERT_BITS &&& s.fld 0 SEC_ALERT_EN_BITS
  s.setFld 0 HUB_SB_STAT_ALERT (b2n (on != 0 || sec != 0))

/-- A module alert becomes pending: the module vector is raised, and WAKE# while PERST# is asserted (R502, R551). -/
def State.moduleAlert (s : State) : State :=
  let s := s.raise (s.fld 0 KGR_MOD_VEC_VECTOR)
  if s.pins.perst && s.power.aux then
    { s with pins := { s.pins with wake := true } }.setFld 0 HUB_SB_STAT_WAKE 1
  else s

/-- Set bit `b` of PWR_ALERT; a bit that becomes 1 while enabled raises the module alert (R502). -/
def State.pwrAlert (s : State) (b : Nat) : State :=
  let now := s.fld 0 PWR_ALERT_BITS
  if bitN now b then s else
  let s := s.setFld 0 PWR_ALERT_BITS (orBit now b)
  (if bitN (s.fld 0 PWR_ALERT_EN_BITS) b then s.moduleAlert else s).syncAlert

/-- Set bit `b` of SEC_ALERT; each bit raises the module vector when its enable is set (Table 14-13). -/
def State.secAlert (s : State) (b : Nat) : State :=
  let s := s.setFld 0 SEC_ALERT_BITS (orBit (s.fld 0 SEC_ALERT_BITS) b)
  (if bitN (s.fld 0 SEC_ALERT_EN_BITS) b then s.moduleAlert else s).syncAlert

/-! ## The event ring -/

/-- An event entry as its raiser gives it (Table 10-10). -/
structure Event where
  type   : Nat
  /-- Physical die, where one applies. -/
  die    : Option Nat := none
  /-- The command during which it arose; none for KGR_SEQ_NEXTj - 1. -/
  seq    : Option Nat := none
  step   : Option Nat := none
  tensor : Option Nat := none
  a : Nat := 0
  b : Nat := 0
  c : Nat := 0
  d : Nat := 0
  e : Nat := 0
deriving DecidableEq, Repr

/-- The 64 B of an event entry (Table 10-10). -/
def Event.bytes (ev : Event) (j ts seqNext : Nat) (phase : Bool) : List Byte :=
  let wh := (match ev.die with | some d => d % 4 + 4 | none => 0) + (if phase then 128 else 0)
  bytesLE 2 ev.type ++ bytesLE 1 wh ++ bytesLE 1 j
    ++ bytesLE 4 (ev.seq.getD ((seqNext + 2 ^ 32 - 1) % 2 ^ 32))
    ++ bytesLE 8 ts ++ bytesLE 8 (ev.step.getD (2 ^ 64 - 1)) ++ bytesLE 4 (ev.tensor.getD 0xFFFFFFFF)
    ++ bytesLE 8 ev.a ++ bytesLE 8 ev.b ++ bytesLE 8 ev.c ++ bytesLE 8 ev.d ++ bytesLE 4 ev.e

/-- Is the pair stopped by a bus error (R374)? -/
def State.qpStopped (s : State) (j : Nat) : Bool :=
  s.bit 0 KGR_QSTAT_ERROR j && decide (4 ≤ s.fld 0 KGR_QSTAT_ERR_CAUSE j)

/-- Free entries of the event ring of pair j (R402: one entry always stays free, as for the CQ). -/
def State.evtFree (s : State) (j : Nat) : Nat :=
  let size := 2 ^ (s.qp j).evtLog
  ((s.qp j).evtHead + size - 1 - s.fld 0 KGR_QSTAT_EVT_TAIL j) % size

/-- Write one entry at the event tail and advance it. -/
def State.putEvent (s : State) (j : Nat) (ev : Event) : State :=
  let q := s.qp j
  let tail := s.fld 0 KGR_QSTAT_EVT_TAIL j
  let next := (tail + 1) % 2 ^ q.evtLog
  let s := s.hostWrite (q.evtBase + tail * 64) (ev.bytes j s.ts (s.fld 0 KGR_SEQ_NEXT_V j) q.evtPhase)
  let s := s.setFld 0 KGR_QSTAT_EVT_TAIL next j
  let s := if next = 0 then s.modQp j (fun q => { q with evtPhase := !q.evtPhase }) else s
  if s.bit 0 KGR_QCFG_EVT_IRQ j then s.raise (s.fld 0 KGR_QCFG_VECTOR j) else s

/-- Drop an event entry and count it (R402). -/
def State.dropEvent (s : State) (j : Nat) : State :=
  (s.bump 0 KGR_CNT_EVT_LOST_V 1 j).modQp j (fun q => { q with dropped := q.dropped + 1 })

/-- Note the event-ring index of a command's first entry (Table 10-4). -/
def State.noteEvent (s : State) (j seq idx : Nat) : State :=
  s.modQp j (fun q => { q with
    cmds := q.cmds.map (fun c => if c.seq == seq && c.evt.isNone then { c with evt := some idx } else c) })

/-- Post an event to job j's ring: written, with a LOST entry before it where entries were dropped, or dropped while the
ring is full or the pair cannot take events (R374, R402). Nothing is posted on a disabled pair. -/
def State.event (s : State) (j : Nat) (ev : Event) : State :=
  if !s.bit 0 KGR_QSTAT_ENABLED j then s
  else if s.qpStopped j || (s.bit 0 KGR_QSTAT_ERROR j && s.fld 0 KGR_QSTAT_ERR_CAUSE j == 3) then s.dropEvent j
  else
    let lost := (s.qp j).dropped
    if s.evtFree j < (if lost = 0 then 1 else 2) then s.dropEvent j
    else
      let s := if lost = 0 then s else
        (s.putEvent j { type := 0x14, a := lost }).modQp j (fun q => { q with dropped := 0 })
      let s := match ev.seq with
        | some n => s.noteEvent j n (s.fld 0 KGR_QSTAT_EVT_TAIL j)
        | none => s
      s.putEvent j ev

/-- The INTERNAL event that names the cause of a 0x2001 (Table 10-11). -/
def State.internal (s : State) (j seq cause : Nat) : State :=
  s.event j { type := 0x16, seq := some seq, a := cause }

end Sys2Proof.Machine
end

