-- ==== Sys2Proof/Machine/Queue.lean ====
section
/-!
DEFINITION. Keager queue pairs (R369 to R380, R388 to R391): fetching and checking commands, starting them in order,
completing them with the one status R390 selects, posting completions.
-/
namespace Sys2Proof.Machine

/-! ## The command's fields (Table 10-1) -/

/-- OPCODE. -/
def Cmd.op (c : Cmd) : Nat := leAt c.bytes 0 2
/-- FLAGS. -/
def Cmd.flags (c : Cmd) : Nat := leAt c.bytes 2 2
/-- FLAGS.ASYNC. -/
def Cmd.async (c : Cmd) : Bool := bitN c.flags 0
/-- FLAGS.IRQ. -/
def Cmd.irq (c : Cmd) : Bool := bitN c.flags 1
/-- FLAGS.DEP_EN. -/
def Cmd.depEn (c : Cmd) : Bool := bitN c.flags 2
/-- FLAGS.PARAM. -/
def Cmd.hasParam (c : Cmd) : Bool := bitN c.flags 3
/-- DEP_JOB. -/
def Cmd.depJob (c : Cmd) : Nat := leAt c.bytes 5 1 % 64
/-- DEP_SEQ. -/
def Cmd.depSeq (c : Cmd) : Nat := leAt c.bytes 12 4
/-- DEADLINE. -/
def Cmd.deadline (c : Cmd) : Nat := leAt c.bytes 16 8
/-- PARAM_ADDR. -/
def Cmd.paramAddr (c : Cmd) : Nat := leAt c.bytes 32 8
/-- PARAM_LEN. -/
def Cmd.paramLen (c : Cmd) : Nat := leAt c.bytes 40 4
/-- `n` operand bytes from byte `o` of the command. -/
def Cmd.opnd (c : Cmd) (o n : Nat) : Nat := leAt c.bytes o n
/-- `n` bytes from byte `o` of the parameter block. -/
def Cmd.blk (c : Cmd) (o n : Nat) : Nat := leAt (c.param.getD []) o n

/-! ## The opcode table (Table 10-3) -/

/-- Is the opcode listed in Table 10-3? -/
def opKnown (op : Nat) : Bool :=
  decide (op ≤ 7) || op == 0x1000 || op == 0x1001 || within 0x2000 0x2003 op || within 0x3000 0x3004 op
    || op == 0x4000 || op == 0x4001 || within 0x5000 0x5005 op || within 0x6000 0x6003 op

/-- May the opcode carry ASYNC? -/
def opAsync (op : Nat) : Bool :=
  [0x0000, 0x0001, 0x1000, 0x1001, 0x3002, 0x5000, 0x5004, 0x6001, 0x6002].contains op

/-- Does the opcode take a parameter block? A RUN does when it names its own slot as LEAD (R387). -/
def opParam (c : Cmd) (j : Nat) : Bool :=
  [0x0002, 0x0005, 0x2000, 0x3000, 0x5000, 0x5001, 0x5003, 0x5004].contains c.op
    || (c.op == 0x2002 && c.opnd 44 1 % 64 == j)

/-- Is PARAM_LEN the opcode's block length (Table 10-2, check 5)? -/
def opParamLen (op len : Nat) : Bool :=
  if op = 0x0002 then len == 128
  else if op = 0x0005 then decide (64 ≤ len) && len % 64 == 0 && decide ((len - 64) / 64 ≤ 256)
  else if op = 0x2000 then len == 256
  else if op = 0x2002 then len == 1120
  else if op = 0x3000 then len == 256
  else if op = 0x5001 || op = 0x5003 then len == 3456
  else len == 64

/-- Bits of command bytes a to b, as a mask over bytes 32 to 63. -/
def opndMask (a b : Nat) : Nat := (256 ^ (b + 1 - a) - 1) * 256 ^ (a - 32)

/-- The operand bits that an opcode uses, as a mask over bytes 32 to 63; the others are reserved (Table 10-3). -/
def opOperands (c : Cmd) (j : Nat) : Nat :=
  let op := c.op
  if op = 0x0001 || op = 0x6001 || op = 0x6002 then opndMask 32 39
  else if op = 0x0003 then opndMask 32 35
  else if op = 0x0004 || op = 0x0006 || op = 0x0007 then opndMask 32 32
  else if op = 0x1000 then opndMask 32 55 + 0x0F * 256 ^ 24
  else if op = 0x1001 then opndMask 32 47 + 0x0C * 256 ^ 16 + opndMask 52 55
  else if op = 0x2002 then
    if c.opnd 44 1 % 64 = j then opndMask 32 43 + 0x3F * 256 ^ 12
    else 0x3F * 256 ^ 12 + opndMask 48 51
  else if op = 0x3001 || op = 0x3003 then opndMask 32 39 + 256 ^ 8
  else if op = 0x3002 then opndMask 32 43 + 256 ^ 12
  else if op = 0x4000 then opndMask 32 33
  else if op = 0x6000 then opndMask 32 32 + opndMask 34 36
  else if opParam c j then opndMask 32 43
  else 0

/-- Is some reserved field or reserved operand byte non-zero (R12)? -/
def Cmd.reservedSet (c : Cmd) (j : Nat) : Bool :=
  c.flags / 16 != 0 || leAt c.bytes 4 1 / 64 != 0 || leAt c.bytes 5 1 / 64 != 0 || leAt c.bytes 6 2 != 0
    || leAt c.bytes 24 8 != 0
    || (leAt c.bytes 32 32 &&& (256 ^ 32 - 1 - opOperands c j)) != 0

/-- The status of the first fetch check of Table 10-2 that fails, if any (R375). -/
def fetchCheck (s : State) (j : Nat) (c : Cmd) : Option Nat :=
  if !opKnown c.op then some 0x1001
  else if c.reservedSet j then some 0x1002
  else if leAt c.bytes 4 1 % 64 ≠ j then some 0x1004
  else if c.seq ≠ s.fld 0 KGR_SEQ_NEXT_V j then some 0x1003
  else if c.async && !opAsync c.op then some 0x1008
  else if c.hasParam != opParam c j then some 0x1008
  else if c.hasParam && !opParamLen c.op c.paramLen then some 0x1008
  else if within 0x3000 0x3004 c.op && s.bit 0 CLR_STAT_LOCKED then some 0x3001
  else if c.op = 0x5003 && (s.fld 0 SEC_STAT_STATE == 0 || s.fld 0 SEC_STAT_STATE == 3) then some 0x3001
  else none

/-! ## Completions -/

/-- The 32 B of a completion with PHASE clear (Table 10-4). -/
def completionBytes (c : Cmd) (j status sqHead : Nat) : List Byte :=
  let cf := b2n (status == 0x2040) + 2 * b2n c.grazed + 4 * b2n c.evt.isSome
  bytesLE 4 c.seq ++ bytesLE 2 status ++ bytesLE 1 (j % 64) ++ bytesLE 1 cf ++ bytesLE 2 c.parts
    ++ bytesLE 2 sqHead ++ bytesLE 4 (c.evt.getD 0) ++ bytesLE 8 c.doneTs ++ bytesLE 8 c.result

/-- Free entries of the completion queue of pair j (R372). -/
def State.cqFree (s : State) (j : Nat) : Nat :=
  let size := 2 ^ (s.qp j).cqLog
  ((s.qp j).cqHead + size - 1 - s.fld 0 KGR_QSTAT_CQ_TAIL j) % size

/-- Write a completion at the CQ tail with the current phase, advance the tail, raise the vector if asked
(R372, R373). -/
def State.postEntry (s : State) (j : Nat) (e : List Byte) (irq : Bool) : State :=
  let q := s.qp j
  let tail := s.fld 0 KGR_QSTAT_CQ_TAIL j
  let next := (tail + 1) % 2 ^ q.cqLog
  let b6 := leAt e 6 1 % 128 + (if q.cqPhase then 128 else 0)
  let s := s.hostWrite (q.cqBase + tail * 32) (putAt e 6 (bytesLE 1 b6))
  let s := s.setFld 0 KGR_QSTAT_CQ_TAIL next j
  let s := if next = 0 then s.modQp j (fun q => { q with cqPhase := !q.cqPhase }) else s
  let s := s.bump 0 KGR_CNT_CMDS_V 1 j
  let s := s.setFld 0 KGR_QSTAT_OUTSTANDING (s.fld 0 KGR_QSTAT_OUTSTANDING j - 1) j
  if irq then s.raise (s.fld 0 KGR_QCFG_VECTOR j) else s

/-- Post the oldest held completion if the queue has space and the pair is not stopped (R372, R374). -/
def State.postHeld (s : State) (j : Nat) : State :=
  match (s.qp j).held with
  | [] => s
  | (e, irq) :: rest =>
    if s.qpStopped j || s.cqFree j == 0 then s
    else (s.modQp j (fun q => { q with held := rest })).postEntry j e irq

/-- Post or hold one completion entry, in order (R372, R379). -/
def State.postOrHold (s : State) (j : Nat) (e : List Byte) (irq : Bool) : State :=
  if s.qpStopped j || s.cqFree j == 0 || !(s.qp j).held.isEmpty then
    s.modQp j (fun q => { q with held := q.held ++ [(e, irq)] })
  else s.postEntry j e irq

/-- A command has been fetched: of the last 4,096 the outcomes are kept (R378). -/
def Qp.note (q : Qp) (seq : Nat) : Qp := { q with outcomes := ((seq, none) :: q.outcomes).take 4096 }

/-- The outcome of the newest command of a SEQ that has none yet, among the last 4,096 fetched. -/
def keepIn (seq st : Nat) : List (Nat × Option Nat) → List (Nat × Option Nat)
  | [] => []
  | o :: rest => if o = (seq, none) then (seq, some st) :: rest else o :: keepIn seq st rest

/-- Keep the outcome of a command for dependencies (R378). -/
def Qp.keep (q : Qp) (seq st : Nat) : Qp := { q with outcomes := keepIn seq st q.outcomes }

/-- Read the parameter block of the first command whose every earlier command has started (R376). -/
def readParam (host : Mem) : List Cmd → List Cmd
  | [] => []
  | c :: rest =>
    if c.started then c :: readParam host rest
    else if c.hasParam && c.param.isNone then
      { c with param := some (host.read c.paramAddr c.paramLen) } :: rest
    else c :: rest

/-- Read parameter blocks that are due on pair j. -/
def State.params (s : State) (j : Nat) : State := s.modQp j (fun q => { q with cmds := readParam s.host q.cmds })

/-- The end of a command with a status: its outcome is kept, its completion is posted or held. -/
def State.conclude (s : State) (j : Nat) (c : Cmd) (st : Nat) : State :=
  let c := if c.done then c else { c with done := true, doneTs := s.ts }
  (s.modQp j (fun q => q.keep c.seq st)).postOrHold j (completionBytes c j st (s.fld 0 KGR_QSTAT_SQ_HEAD j)) c.irq

/-- Complete a command with a status: it leaves the pair's list and ends; the block of a command behind it may be due. -/
def State.complete (s : State) (j : Nat) (c : Cmd) (st : Nat) : State :=
  ((s.modQp j (fun q => { q with cmds := q.cmds.filter (fun x => x.seq != c.seq) })).params j).conclude j c st

/-- The command of pair j with a SEQ. -/
def State.cmd (s : State) (j seq : Nat) : Option Cmd := (s.qp j).cmds.find? (fun c => c.seq == seq)
/-- Change the command of pair j with a SEQ. -/
def State.modCmd (s : State) (j seq : Nat) (f : Cmd → Cmd) : State :=
  s.modQp j (fun q => { q with cmds := q.cmds.map (fun c => if c.seq == seq then f c else c) })
/-- Add an outcome to a command (R390). -/
def State.outcome (s : State) (j seq st : Nat) : State :=
  s.modCmd j seq (fun c => { c with outcomes := c.outcomes ++ [st] })

/-- A DEADLINE outcome: 0x1010 joins the command's outcomes, the counter advances and one DEADLINE event is written
(R391). -/
def State.deadlineWins (s : State) (j seq : Nat) : State :=
  match s.cmd j seq with
  | none => s
  | some c =>
    let s := (s.outcome j seq 0x1010).bump 0 KGR_CNT_DEADLINE_V 1 j
    s.event j { type := 0x13, seq := some seq, a := c.deadline, b := c.deadline, c := seq }

/-- The internal completion of a command (R388): its time is taken, and a deadline judges it at its evaluation edge,
after the two or three nanoseconds that its synchronising into the timer island takes (R26, R391). -/
def State.internally (s : State) (j seq : Nat) : State :=
  match s.cmd j seq with
  | none => s
  | some c =>
    if c.done then s else
    let s := s.modCmd j seq (fun c => { c with done := true, doneTs := s.ts })
    if c.deadline = 0 || c.outcomes.contains 0x1010 then s else
    let arrive := s.ts + 2 + s.free.toNat % 2
    let s := s.drawn
    if arrive < c.deadline then s
    else if arrive = c.deadline then
      (s.modCmd j seq (fun c => { c with grazed := true })).bump 0 KGR_CNT_GRAZED_V 1 j
    else s.deadlineWins j seq

/-- Post the completion of an internally complete command with the status that R390 selects. -/
def State.postCmd (s : State) (j seq : Nat) : State :=
  match s.cmd j seq with
  | none => s
  | some c => s.complete j c (pickStatus c.outcomes)

/-- Internal completion and posting at once: commands whose effect ends here. -/
def State.finish (s : State) (j seq : Nat) : State := (s.internally j seq).postCmd j seq

/-- Refuse a command at its start: PART_MASK 0, no other effect (R380). -/
def State.refuse (s : State) (j seq st : Nat) : State :=
  ((s.modCmd j seq (fun c => { c with parts := 0, result := 0 })).outcome j seq st).finish j seq

/-! ## Fetching -/

/-- Fetch one command of pair j and check it (R371, R375). -/
def State.fetchOne (s : State) (j : Nat) : State :=
  let q := s.qp j
  let head := s.fld 0 KGR_QSTAT_SQ_HEAD j
  let bs := s.host.read (q.sqBase + head * 64) 64
  let c : Cmd := { bytes := bs, seq := leAt bs 8 4 }
  let bad := fetchCheck s j c
  let s := s.setFld 0 KGR_QSTAT_SQ_HEAD ((head + 1) % 2 ^ q.sqLog) j
  let s := s.setFld 0 KGR_SEQ_NEXT_V ((c.seq + 1) % 2 ^ 32) j
  let s := s.setFld 0 KGR_QSTAT_OUTSTANDING (s.fld 0 KGR_QSTAT_OUTSTANDING j + 1) j
  let s := s.modQp j (fun q => q.note c.seq)
  match bad with
  | some st => s.conclude j c st
  | none => (s.modQp j (fun q => { q with cmds := q.cmds ++ [c] })).params j

/-- May pair j fetch now (R370, R371, R374, R401, R478, R479)? -/
def State.mayFetch (s : State) (j : Nat) : Bool :=
  s.ready && !s.bit 0 HUB_STATUS_FATAL && s.bit 0 KGR_QSTAT_ENABLED j && !s.bit 0 KGR_QSTAT_ERROR j
    && !s.bit 0 KGR_QSTAT_RESETTING j && s.fld 0 KGR_QSTAT_SQ_HEAD j != s.fld 0 KGR_SQ_TAIL_V j

/-- Fetch from head towards tail, at most `fuel` commands. -/
def fetchLoop : Nat → State → Nat → State
  | 0, s, _ => s
  | n + 1, s, j => if s.mayFetch j then fetchLoop n (s.fetchOne j) j else s

/-- Fetch every command between head and tail of pair j (R371). -/
def State.fetch (s : State) (j : Nat) : State :=
  let size := 2 ^ (s.qp j).sqLog
  fetchLoop ((s.fld 0 KGR_SQ_TAIL_V j + size - s.fld 0 KGR_QSTAT_SQ_HEAD j) % size) s j

/-- Fetch on every pair that has been enabled: READY has become 1, or fetching resumes (R479). -/
def State.fetchAll (s : State) : State := s.forAll (s.qps.map Prod.fst) State.fetch

/-! ## Starting -/

/-- How a dependency stands (R377, R378). -/
inductive Dep where
  | met | waits | failed
deriving DecidableEq, Repr

/-- Is `a` the SEQ `b` or less than 2^31 ahead of it? -/
def seqAhead (a b : Nat) : Bool := decide ((a + 2 ^ 32 - b) % 2 ^ 32 < 2 ^ 31)

/-- Place an awaited SEQ against the awaited queue; one of the command itself or of a later command of its queue waits (R378). -/
def State.dep (s : State) (c : Cmd) : Dep :=
  if !c.depEn then .met
  else if seqAhead c.depSeq (s.fld 0 KGR_SEQ_NEXT_V c.depJob) then .waits
  else if c.depJob == leAt c.bytes 4 1 % 64 && seqAhead c.depSeq c.seq then .waits
  else match (s.qp c.depJob).outcomes.find? (fun o => o.1 == c.depSeq) with
    | some (_, some st) => if statusMet st then .met else .failed
    | some (_, none) => .waits
    | none => .met

/-- Is `seq` the first command of the list that has not started, with its earlier commands as R377 condition 1 asks? -/
def orderOk (async : Bool) (seq : Nat) : List Cmd → Bool
  | [] => false
  | c :: rest => if c.seq == seq then true else c.started && async && orderOk async seq rest

/-- The first waiting (not started) command of pair j with an opcode that a predicate accepts. -/
def State.waitingCmd (s : State) (j : Nat) (p : Cmd → Bool) : Option Cmd :=
  (s.qp j).cmds.find? (fun c => !c.started && p c)

/-- Opcodes that P3 accepts (R489, R539). -/
def opInP3 (op : Nat) : Bool := [0x0000, 0x0001, 0x0003, 0x0004, 0x5000, 0x5001, 0x5002, 0x5003, 0x5004].contains op

/-- Start the first waiting command of an opcode on pair j, if R377 lets it start, and give it its effect `f`. A failed
dependency completes it with 0x1006 (R378); P3 completes it with 0x2001 (R489). Otherwise nothing happens: it waits. -/
def State.start (s : State) (j : Nat) (p : Cmd → Bool) (f : State → Cmd → State) : State :=
  match s.waitingCmd j p with
  | none => s
  | some c =>
    if s.qpStopped j || s.bit 0 KGR_QSTAT_RESETTING j then s
    else if !orderOk c.async c.seq (s.qp j).cmds then s
    else match s.dep c with
      | .waits => s
      | .failed => s.refuse j c.seq 0x1006
      | .met =>
        if s.pstate == 3 && !opInP3 c.op then
          ((s.modCmd j c.seq (fun c => { c with started := true })).internal j c.seq 0x0201).refuse j c.seq 0x2001
        else
          let s := s.modCmd j c.seq (fun c => { c with started := true })
          (f s { c with started := true }).params j

/-- The same for work that needs a die: it waits, asking for power, until the module is in P0 (R486, R490). In P3 the
rule of R489 applies as in `State.start`. -/
def State.startOnDie (s : State) (j : Nat) (p : Cmd → Bool) (f : State → Cmd → State) : State :=
  if (s.waitingCmd j p).isSome && (s.pstate == 1 || s.pstate == 2) then
    { s with power := { s.power with waking := true } }
  else s.start j p f

/-! ## Queue-pair commands -/

/-- A ring size field held to its bounds (Table 10-14). -/
def clampLog (v hi : Nat) : Nat := min (max v 6) hi

/-- Write every field of KGR_QCFGj. -/
def State.putQcfg (s : State) (j cfg : Nat) : State := s.setReg (0x101018 + j * 0x80) (BitVec.ofNat 64 (cfg % 2 ^ 22))

/-- Enable a disabled pair (R370). -/
def State.qpEnable (s : State) (j cfg : Nat) : State :=
  let s := s.putQcfg j cfg
  let s := s.setFld 0 KGR_QSTAT_ENABLED 1 j
  let s := ((s.setFld 0 KGR_QSTAT_SQ_HEAD 0 j).setFld 0 KGR_QSTAT_CQ_TAIL 0 j).setFld 0 KGR_QSTAT_EVT_TAIL 0 j
  let s := s.setFld 0 KGR_SEQ_NEXT_V (s.fld 0 KGR_SEQ_START_V j) j
  s.setQp j { sqBase := s.fld 0 KGR_SQ_BASE_ADDR j * 4096, cqBase := s.fld 0 KGR_CQ_BASE_ADDR j * 4096,
              evtBase := s.fld 0 KGR_EVT_BASE_ADDR j * 4096,
              sqLog := clampLog (s.fld 0 KGR_QCFG_SQ_LOG2 j) 12, cqLog := clampLog (s.fld 0 KGR_QCFG_CQ_LOG2 j) 12,
              evtLog := clampLog (s.fld 0 KGR_QCFG_EVT_LOG2 j) 16 }

/-- Does a run in progress involve slot j: as lead or member, its completions not posted? -/
def State.running (s : State) (j : Nat) : Bool :=
  s.jobs.any (fun e => match e.2.run with
    | some r => !r.posted && r.members.contains j
    | none => false)

/-- Disable a pair, or refuse where a command is outstanding or a run is in progress (R370). -/
def State.qpDisable (s : State) (j cfg : Nat) : State :=
  if s.fld 0 KGR_QSTAT_OUTSTANDING j = 0 && !s.running j then
    let s := (s.putQcfg j cfg).setFld 0 KGR_QSTAT_ENABLED 0 j
    ((s.setFld 0 KGR_SQ_TAIL_V 0 j).setFld 0 KGR_CQ_HEAD_V 0 j).setFld 0 KGR_EVT_HEAD_V 0 j
  else s.setFld 0 KGR_QSTAT_EN_REFUSED 1 j

/-- A write of KGR_QCFGj, whatever its EN (R370): while the pair is enabled the size fields keep their values. -/
def State.qcfgWrite (s : State) (j cfg : Nat) : State :=
  if s.bit 0 KGR_QSTAT_ENABLED j then
    if cfg % 2 = 0 then s.qpDisable j cfg
    else (s.setFld 0 KGR_QCFG_VECTOR (bitsN cfg 20 14) j).setFld 0 KGR_QCFG_EVT_IRQ (bitsN cfg 21 21) j
  else if cfg % 2 = 1 then s.qpEnable j cfg
  else s.putQcfg j cfg

/-- Set ERROR with a cause; the first cause stands until the job reset, but a bus error (causes 4 to 6), which stops the
pair, replaces a lesser one. -/
def State.qpError (s : State) (j cause : Nat) : State :=
  if s.bit 0 KGR_QSTAT_ERROR j && (decide (cause < 4) || decide (4 ≤ s.fld 0 KGR_QSTAT_ERR_CAUSE j)) then s
  else (s.setFld 0 KGR_QSTAT_ERROR 1 j).setFld 0 KGR_QSTAT_ERR_CAUSE cause j

/-- A write of KGR_SQ_TAILj (R371). -/
def State.sqTail (s : State) (j v : Nat) : State :=
  if !s.bit 0 KGR_QSTAT_ENABLED j then s else
  let v := v % 4096
  let s := s.setFld 0 KGR_SQ_TAIL_V v j
  if 2 ^ (s.qp j).sqLog ≤ v then s.qpError j 1 else s.fetch j

/-- Is `v` an index that does not pass `tail`, from the old head on, in a ring of `size`? -/
def headOk (size old tail v : Nat) : Bool :=
  decide (v < size) && decide ((v + size - old) % size ≤ (tail + size - old) % size)

/-- A write of KGR_CQ_HEADj (R372): the field takes the value written; an invalid head is an error and frees nothing. -/
def State.cqHead (s : State) (j v : Nat) : State :=
  if !s.bit 0 KGR_QSTAT_ENABLED j then s else
  let v := v % 4096
  let s := s.setFld 0 KGR_CQ_HEAD_V v j
  if headOk (2 ^ (s.qp j).cqLog) (s.qp j).cqHead (s.fld 0 KGR_QSTAT_CQ_TAIL j) v then
    s.modQp j (fun q => { q with cqHead := v })
  else s.qpError j 2

/-- A write of KGR_EVT_HEADj (R402), likewise. -/
def State.evtHead (s : State) (j v : Nat) : State :=
  if !s.bit 0 KGR_QSTAT_ENABLED j then s else
  let v := v % 65536
  let s := s.setFld 0 KGR_EVT_HEAD_V v j
  if headOk (2 ^ (s.qp j).evtLog) (s.qp j).evtHead (s.fld 0 KGR_QSTAT_EVT_TAIL j) v then
    s.modQp j (fun q => { q with evtHead := v })
  else s.qpError j 3

/-- QP_ENABLE: a write of KGR_QCFGj with EN = 1. -/
def execQpEnable (j : Slot) (cfg : Nat) (s : State) : Host.Outcome State Fault Refusal :=
  .next (s.served (0x101018 + j * 0x80) (fun s => s.qcfgWrite j (cfg / 2 * 2 + 1)))

/-- QP_DISABLE: a write of KGR_QCFGj with EN = 0. -/
def execQpDisable (j : Slot) (cfg : Nat) (s : State) : Host.Outcome State Fault Refusal :=
  .next (s.served (0x101018 + j * 0x80) (fun s => s.qcfgWrite j (cfg / 2 * 2)))

/-- SQ_TAIL_DOORBELL. -/
def execSqTailDoorbell (j : Slot) (v : Nat) (s : State) : Host.Outcome State Fault Refusal :=
  .next (s.served (0x180000 + j * 0x10) (fun s => s.sqTail j v))

/-- CQ_HEAD_DOORBELL. -/
def execCqHeadDoorbell (j : Slot) (v : Nat) (s : State) : Host.Outcome State Fault Refusal :=
  .next (s.served (0x180004 + j * 0x10) (fun s => s.cqHead j v))

/-- EVT_HEAD_DOORBELL. -/
def execEvtHeadDoorbell (j : Slot) (v : Nat) (s : State) : Host.Outcome State Fault Refusal :=
  .next (s.served (0x180008 + j * 0x10) (fun s => s.evtHead j v))

/-- COMPLETION_POST: the oldest held completion of the pair is posted once space has appeared. -/
def execCompletionPost (j : Slot) (s : State) : Host.Outcome State Fault Refusal := .next (s.postHeld j)

/-- HOST_BUS_ERROR (R374, R376, R382). On a parameter block the first command that has not started completes with
0x2044; on copy data the first running COPY stops with 0x2044 and completes when its stop has finished. -/
def execHostBusError (j : Slot) (point : BusPoint) (s : State) : Host.Outcome State Fault Refusal :=
  .next (match point with
    | .sqFetch => if s.bit 0 KGR_QSTAT_ENABLED j then s.qpError j 4 else s
    | .cqWrite => if s.bit 0 KGR_QSTAT_ENABLED j then s.qpError j 5 else s
    | .evtWrite => if s.bit 0 KGR_QSTAT_ENABLED j then s.qpError j 6 else s
    | .paramRead =>
      match s.waitingCmd j (fun c => c.hasParam && c.param.isSome) with
      | some c => s.refuse j c.seq 0x2044
      | none => s
    | .copyData =>
      match (s.qp j).cmds.find? (fun c => c.started && c.op == 0x1000 && !c.stopped
          && (bitsN (c.opnd 56 1) 1 0 == 0 || bitsN (c.opnd 56 1) 3 2 == 0)) with
      | some c => (s.outcome j c.seq 0x2044).modCmd j c.seq (fun c => { c with stopped := true })
      | none => s)

end Sys2Proof.Machine
end

