-- ==== Sys2Proof/Machine/Access.lean ====
section
/-!
DEFINITION. Accesses to the tiers (R254 to R273, R289 to R295): which bank a byte lies in, who owns it, what a non-owner
access does, how a bank wakes, and how a unit reads and changes a range of a tier.
-/
namespace Sys2Proof.Machine

/-- A range of a tier. `tier`: 0 shelf, 1 store room, 2 larder, 3 attic, 4 host. `die` and `core` are physical. `addr` is
an SA, a store-room address, an LA, an AA or a bus address. -/
structure Place where
  tier : Nat
  die  : Nat := 0
  core : Nat := 0
  addr : Nat
  len  : Nat
deriving DecidableEq, Repr

/-- Key of the first byte in the memory that holds the tier. -/
def Place.key (p : Place) : Nat :=
  if p.tier = 0 then shelfKey p.die p.core p.addr
  else if p.tier = 1 then storeKey p.die p.addr
  else p.addr

/-- The memory of a tier. -/
def State.tierMem (s : State) (tier : Nat) : Mem :=
  if tier = 0 then s.shelf else if tier = 1 then s.store else if tier = 2 then s.larder
  else if tier = 3 then s.attic else s.host

/-- Replace the memory of a tier. -/
def State.setTierMem (s : State) (tier : Nat) (m : Mem) : State :=
  if tier = 0 then { s with shelf := m } else if tier = 1 then { s with store := m }
  else if tier = 2 then { s with larder := m } else if tier = 3 then { s with attic := m } else { s with host := m }

/-- The pieces of a range by bank: (bank, offset in the bank, bytes); none outside the shelves and store rooms. -/
def Place.pieces (p : Place) : List (Nat × Nat × Nat) :=
  if p.len = 0 || 2 ≤ p.tier then [] else
  let size := if p.tier = 0 then 655360 else 4194304
  let first := p.addr / size
  let last := (p.addr + p.len - 1) / size
  (List.range (last + 1 - first)).map (fun i =>
    let k := first + i
    let lo := max p.addr (k * size)
    let hi := min (p.addr + p.len) ((k + 1) * size)
    (if p.tier = 0 then shelfBank p.die p.core (k % 8) else storeBank p.die (k % 16), lo - k * size, hi - lo))

/-! ## Open contents -/

/-- The contents of a range become open: whatever bytes a free value spells; `pois` says what becomes of the poison of its
granules: none keeps it, some true sets it, some false leaves it open too (log entry 2). -/
def State.scramble (s : State) (tier key n : Nat) (pois : Option Bool) : State :=
  let m := (s.tierMem tier).spell key n (Config.openCells s.fresh)
  let m := match pois with
    | none => m
    | some true => m.setPoison key n true
    | some false => m.spellPoison key n (Config.openPoison s.fresh)
  (s.setTierMem tier m).drawn

/-! ## Bank power (R271 to R273) -/

/-- A bank's PWR code: 0 ON, 1 RETAIN, 2 OFF, 3 in transition. -/
def State.bankPwr (s : State) (b : Nat) : Nat := s.fld (bankAt b) BANK_STAT_PWR
/-- A bank that wakes from OFF reads as zero (R273); it ends ON and READY. -/
def State.bankWake (s : State) (b : Nat) : State :=
  let off := match Tab.find s.bankTrans b with
    | some t => t / 4 == 2 || t % 4 == 2
    | none => s.bankPwr b == 2
  let s := { s with bankTrans := Tab.erase s.bankTrans b }
  let s := if off then s.bankZero b else s
  ((s.setFld (bankAt b) BANK_STAT_READY 1).setFld (bankAt b) BANK_STAT_PWR 0).setFld (bankAt b) BANK_CTRL_PWR_REQ 0
/-- A bank enters RETAIN (1) or OFF (2); OFF loses the contents. -/
def State.bankSleep (s : State) (b dest : Nat) : State :=
  let s := if dest = 2 then s.bankZero b else s
  ((s.setFld (bankAt b) BANK_STAT_READY 0).setFld (bankAt b) BANK_STAT_PWR dest).setFld (bankAt b) BANK_CTRL_PWR_REQ dest
/-- An access from the owner to a bank that is not ready wakes it and waits (R272); for how many clocks is open (log
entry 9). -/
def State.bankReady (s : State) (b : Nat) : State :=
  if s.bit (bankAt b) BANK_STAT_READY then s
  else ((s.bankWake b).bump (bankAt b) BANK_CNT_WAKE_STALL_V (s.free.toNat + 1)).drawn

/-! ## Ownership (R259 to R263) -/

/-- Write the owner of a bank, with the job that holds it. -/
def State.setOwner (s : State) (b code : Nat) (job : Option Nat) : State :=
  let a := bankAt b
  let s := (s.setFld a BANK_OWN_OWNER code).trace 3 (bankDie b) (if bankIsStore b then 96 else
    (s.logicalOf (bankDie b) (b % 816 / 8)).getD 96) (job.getD 0)
  match job with
  | some j => (s.setFld a BANK_OWN_JOB j).setFld a BANK_OWN_JOB_VALID 1
  | none => (s.setFld a BANK_OWN_JOB 0).setFld a BANK_OWN_JOB_VALID 0
/-- Refuse an ownership write (R260). -/
def State.refuseOwner (s : State) (b code : Nat) : State :=
  let a := bankAt b
  ((s.setFld a BANK_OWN_REFUSED 1).setFld a BANK_OWN_REFUSED_CODE code).bump a BANK_CNT_REFUSED_V
/-- May an ownership write of a code take effect (R260)? -/
def State.mayOwn (s : State) (b code : Nat) : Bool :=
  !s.bit (bankAt b) BANK_OWN_PENDING && code != 7 && !(bankIsStore b && (code == 1 || code == 3))
/-- One attempt at an ownership write (R260, R264). -/
def State.tryOwn (s : State) (b code : Nat) (job : Option Nat) : State :=
  if s.mayOwn b code then s.setOwner b code job else s.refuseOwner b code

/-- Bank code of MARCH_PRESERVING and of events: L × 8 + k, or 1,024 + b. A bank of an unmapped core takes its physical
index. -/
def State.bankCode (s : State) (b : Nat) : Nat :=
  if bankIsStore b then 1024 + (b % 816 - 800)
  else ((s.logicalOf (bankDie b) (b % 816 / 8)).getD (b % 816 / 8)) * 8 + b % 8

/-- Lead slot and run in progress that a slot takes part in. -/
def State.runOf (s : State) (j : Nat) : Option (Nat × Run) :=
  (s.jobs.findSome? (fun e => match e.2.run with
    | some r => if !r.posted && r.members.contains j then some (e.1, r) else none
    | none => none))
/-- Change the run of a lead slot. -/
def State.modRun (s : State) (lead : Nat) (f : Run → Run) : State :=
  s.modJob lead (fun x => { x with run := x.run.map f })

/-- An event that a bank's report raises: one entry for each bank in each phase (R263, R268). -/
def State.bankEvent (s : State) (job b type word : Nat) : State :=
  match s.runOf job with
  | none => s.event job { type := type, die := some (bankDie b), a := word, b := s.bankCode b }
  | some (lead, r) =>
    let mark := b * 2 + type % 2
    if r.noted.contains mark then s else
    let seq := (r.members.zip r.seqs).findSome? (fun x => if x.1 == job then some x.2 else none)
    (s.modRun lead (fun r => { r with noted := mark :: r.noted })).event job
      { type := type, die := some (bankDie b), seq := seq, step := some r.step, a := word, b := s.bankCode b, e := r.phase }

/-- A non-owner access (R263): reported, logged once, counted for each granule that it touches. -/
def State.nonOwner (s : State) (b unit off n : Nat) (write : Bool) (job : Option Nat) : State :=
  let a := bankAt b
  let log := unit % 8 + b2n write * 8 + (off / 4) * 16
    + (match job with | some j => j * 2 ^ 24 + 2 ^ 30 | none => 0)
  let s := if s.bit a BANK_STAT_NONOWNER then s
    else (s.setFld a BANK_STAT_NONOWNER 1).setReg (BANK_NOWN_LOG_UNIT.at a 0) (BitVec.ofNat 64 log)
  let s := s.bump a BANK_CNT_NONOWNER_V (granuleSpan off n).2
  match job with
  | some j => s.bankEvent j b 0x08 (s.reg (BANK_NOWN_LOG_UNIT.at a 0)).toNat
  | none => s

/-- Present the accesses of a unit to every bank of a range: an admitted bank is woken, the others are non-owner accesses.
Answers the keys (first, bytes) that are denied. -/
def State.allow (s : State) (unit : Nat) (write : Bool) (job : Option Nat) (p : Place) : State × List (Nat × Nat) :=
  p.pieces.foldl (fun (acc : State × List (Nat × Nat)) x =>
    let (b, off, n) := x
    if acc.1.fld (bankAt b) BANK_OWN_OWNER == unit then (acc.1.bankReady b, acc.2)
    else (acc.1.nonOwner b unit off n write job, acc.2 ++ [(bankKey b + off, n)])) (s, [])

/-- What a unit reads of a tier: the tier's memory, with denied ranges read as zeros without poison (R263). -/
def State.view (s : State) (unit : Nat) (job : Option Nat) (p : Place) : State × Mem :=
  let (s, no) := s.allow unit false job p
  (s, no.foldl (fun m x => m.scrub x.1 x.2) (s.tierMem p.tier))

/-- Present accesses to several ranges. -/
def State.allowAll (s : State) (unit : Nat) (write : Bool) (job : Option Nat) (ps : List Place) : State × List (Nat × Nat) :=
  ps.foldl (fun (acc : State × List (Nat × Nat)) p =>
    let r := acc.1.allow unit write job p
    (r.1, acc.2 ++ r.2)) (s, [])

/-- Is a key in one of some ranges? -/
def inRanges (rs : List (Nat × Nat)) (k : Nat) : Bool := rs.any (fun r => decide (r.1 ≤ k) && decide (k < r.1 + r.2))

/-- Write-backs that are pending in the banks of a tier (R258). -/
def State.backsIn (s : State) (tier : Nat) : List WriteBack :=
  allDies.flatMap (fun d => (s.die d).backs.filter (fun w => bankIsStore w.bank == (tier == 1)))

/-- Key of the 8 B that a write-back waits for. -/
def WriteBack.key (w : WriteBack) : Nat := bankKey w.bank + w.off

/-- Change the memory of a tier where owners' writes meet pending write-backs (R258): in the granules that `touched` accepts the
change acts on the poison copies as stored; a write-back whose 8 B `hit` accepts is dropped, the others stay pending. -/
def State.settle (s : State) (tier : Nat) (touched hit : Nat → Bool) (f : Mem → Mem) : State :=
  let ws := if tier < 2 then (s.backsIn tier).filter (fun w => touched w.key) else []
  let m := f (ws.foldl (fun m w => if w.ue then m.setPoison w.key 1 w.was else m) (s.tierMem tier))
  let stay := ws.filter (fun w => !hit w.key)
  let s := s.setTierMem tier (stay.foldl (fun m w => if w.ue then m.setPoison w.key 1 true else m) m)
  s.forAll ((ws.map (fun w => bankDie w.bank)).eraseDups) (fun s d => s.modDie d (fun x => { x with
    backs := (x.backs.filter (fun w => !(ws.contains w && hit w.key))).map (fun w =>
      if ws.contains w then { w with was := m.poisoned w.key } else w) }))

/-- Change ranges of a tier but for the keys (first, bytes) that were denied, which keep their contents; `hit` says of which 8 B
something is written. -/
def State.changeBut (s : State) (tier : Nat) (ps : List Place) (no : List (Nat × Nat)) (f : Mem → Mem)
    (hit : Nat → Bool := fun _ => true) : State :=
  let mine := fun k => ps.any (fun p => decide (p.key / 64 ≤ k / 64) && decide (k < p.key + p.len)) && !inRanges no k
  let s := s.settle tier mine (fun k => mine k && hit k) (fun old => no.foldl (fun m x => m.copy old x.1 x.1 x.2) (f old))
  if tier = 2 then s.forAll ps (fun s p => s.touchEpoch p.addr p.len) else s

/-- A unit changes ranges of a tier, each presented by itself; denied ranges keep their contents. -/
def State.updateIn (s : State) (unit : Nat) (job : Option Nat) (tier : Nat) (ps : List Place) (f : Mem → Mem)
    (hit : Nat → Bool := fun _ => true) : State :=
  let (s, no) := s.allowAll unit true job ps
  s.changeBut tier ps no f hit

/-- A unit changes a range of a tier. -/
def State.update (s : State) (unit : Nat) (job : Option Nat) (p : Place) (f : Mem → Mem) : State :=
  s.updateIn unit job p.tier [p] f

/-! ## Poison that a job consumes (R293, R294) -/

/-- A member of a run consumes poison: its run completes with 0x2041; its first consumption is an event. -/
def State.consume (s : State) (lead slot tier addr how : Nat) (die : Option Nat) : State :=
  match (s.job lead).run with
  | none => s
  | some r =>
    match (List.range r.members.length).find? (fun m => r.members.getD m 0 == slot) with
    | none => s
    | some m =>
      if r.outcomes.contains (m, 0x2041) then s else
      let s := s.modRun lead (fun r => { r with outcomes := r.outcomes ++ [(m, 0x2041)] })
      s.event slot { type := 0x0A, die := die, seq := some (r.seqs.getD m 0), step := some r.step, a := tier, b := addr,
                     c := how }

/-- Record of a poisoned larder granule, while none is held (Table 7-19). -/
def State.poisonLog (s : State) (source la : Nat) : State :=
  if s.bit 0 LDR_POISON_LOG_VALID then s
  else s.setReg 0x400810 (BitVec.ofNat 64 (1 + source * 2 + la / 64 % 2 ^ 31 * 64))

/-! ## DMA engines (R289) -/

/-- The lowest free DMA engine of a die. -/
def State.freeEngine (s : State) (d : Nat) : Option Nat :=
  (List.range 8).find? (fun e => !s.bit (dieAt d) DIE_DMA_STAT_BUSY e)
/-- A DMA engine takes a transfer. -/
def State.engineOn (s : State) (d e source job : Nat) : State :=
  ((s.setFld (dieAt d) DIE_DMA_STAT_BUSY 1 e).setFld (dieAt d) DIE_DMA_STAT_SOURCE source e).setFld (dieAt d)
    DIE_DMA_STAT_JOB job e
/-- A DMA engine ends a transfer of `n` bytes with `p` poisoned granules. -/
def State.engineOff (s : State) (d e n p : Nat) : State :=
  let s := s.setFld (dieAt d) DIE_DMA_STAT_BUSY 0 e
  (s.bump (dieAt d) DIE_DMA_CNT_BYTES_V n e).bump (dieAt d) DIE_DMA_CNT_POISON_V p e

end Sys2Proof.Machine
end

