-- ==== Sys2Proof/Machine/Links.lean ====
section
/-!
DEFINITION. Couch links (R334 to R338): which links work, which way a transfer goes round the ring, what it counts, and
which dies reach one another.
-/
namespace Sys2Proof.Machine

/-- Is couch link n (CDn to CDn+1) in service (R335)? -/
def State.linkOk (s : State) (n : Nat) : Bool := !s.bit (dieAt (n % 4)) RING_LINK_STAT_OUT_OF_SERVICE 0

/-- Is couch link n trained and up? -/
def State.linkUp (s : State) (n : Nat) : Bool := s.bit (dieAt (n % 4)) RING_LINK_STAT_UP 0

/-- Write a field of both ends of couch link n: port 0 of CDn and port 1 of CDn+1 (Table 9-4). -/
def State.setLink (s : State) (n : Nat) (f : Fld) (v : Nat) : State :=
  (s.setFld (dieAt n) f v 0).setFld (dieAt ((n + 1) % 4)) f v 1

/-- Hops from die a to die b, clockwise or anticlockwise: (die left, port, link). -/
def hopsOf (a b : Nat) (cw : Bool) : List (Nat × Nat × Nat) :=
  if cw then (List.range ((b + 4 - a) % 4)).map (fun k => ((a + k) % 4, 0, (a + k) % 4))
  else (List.range ((a + 4 - b) % 4)).map (fun k => ((a + 4 - k) % 4, 1, (a + 3 - k) % 4))

/-- The direction of fewer hops, clockwise when both are equal (R236). -/
def shortCw (a b : Nat) : Bool := decide ((b + 4 - a) % 4 ≤ (a + 4 - b) % 4)

/-- The path of a transfer that prefers a direction: the other one where a link of the first is out of service (R336); none
where neither direction works. -/
def State.path (s : State) (a b : Nat) (cw : Bool) : Option (List (Nat × Nat × Nat)) :=
  let ok := fun (h : List (Nat × Nat × Nat)) => h.all (fun x => s.linkOk x.2.2)
  if ok (hopsOf a b cw) then some (hopsOf a b cw)
  else if ok (hopsOf a b (!cw)) then some (hopsOf a b (!cw)) else none

/-- Do two dies reach each other over couch links in service (R336, R337, R428)? -/
def State.conn (s : State) (a b : Nat) : Bool := a == b || (s.path a b true).isSome

/-- Count `n` payload bytes over a path: sent and received at the ends of each hop, forwarded by the dies on the way
(Table 9-4). -/
def State.countPath (s : State) (h : List (Nat × Nat × Nat)) (n : Nat) : State :=
  s.forAll (h.zip (List.range h.length)) (fun s x =>
    let (d, port, _) := x.1
    let dest := if port = 0 then (d + 1) % 4 else (d + 3) % 4
    let s := (s.bump (dieAt d) RING_LINK_CNT_TX_V n port).bump (dieAt dest) RING_LINK_CNT_RX_V n (1 - port)
    if x.2 = 0 then s else s.bump (dieAt d) RING_LINK_CNT_FWD_V n port)

/-- RING_STAT.DEGRADED on every die follows the links (R336). -/
def State.showDegraded (s : State) : State :=
  let bad := (List.range 4).any (fun n => !s.linkOk n)
  s.forAll allDies (fun s d => s.setFld (dieAt d) RING_STAT_DEGRADED (b2n bad))

/-- The largest group of in-service dies among `ds` that reach one another; of equal groups the one with the
lowest-numbered die (R428). -/
def State.largestGroup (s : State) (ds : List Nat) : List Nat :=
  let live := ds.filter (fun d => s.dieState d == 0)
  (live.map (fun d => live.filter (fun e => s.conn d e))).foldl
    (fun best g => if best.length < g.length then g else best) []

/-- A list of dies as a mask. -/
def maskOf (ds : List Nat) : Nat := ds.foldl orBit 0

end Sys2Proof.Machine
end

