-- ==== Sys2Proof/Machine/Plan.lean ====
section
/-!
DEFINITION. Reading a plan image: its header, sections, buffers, tensors, layers, intervals, mapping records, deckles and
instructions (Tables 5-1, 5-5, 6-1 to 6-9, 8-1, 9-2), the logical extents of a run (R186) and the regions that an
instruction reads and writes (R184).
-/
namespace Sys2Proof.Machine

/-! ## Tables of the image -/

/-- A section entry (Table 6-2). -/
structure Section where
  bucket    : Nat
  replicas  : Nat
  deckles   : Nat
  buffers   : Nat
  maps      : Nat
  instrs    : Nat
  intervals : Nat
  deckleOff : Nat
  bufferOff : Nat
  mapOff    : Nat
  schedOff  : Nat
  instrOff  : Nat
  ownOff    : Nat
deriving DecidableEq, Repr

/-- Section entry k of a plan. -/
def planSection (pl : Mem) (k : Nat) : Section :=
  let o := pl.readN 112 8 + 96 * k
  ⟨pl.readN o 1, pl.readN (o + 1) 1, pl.readN (o + 4) 4, pl.readN (o + 8) 4, pl.readN (o + 12) 4, pl.readN (o + 16) 4,
   pl.readN (o + 20) 4, pl.readN (o + 32) 8, pl.readN (o + 40) 8, pl.readN (o + 48) 8, pl.readN (o + 56) 8,
   pl.readN (o + 64) 8, pl.readN (o + 72) 8⟩

/-- SECTIONS. -/
def planSections (pl : Mem) : Nat := pl.readN 120 4
/-- PHASES. -/
def planPhases (pl : Mem) : Nat := pl.readN 84 1
/-- MEMBERS. -/
def planMembers (pl : Mem) : Nat := pl.readN 85 1
/-- LAYERS. -/
def planLayers (pl : Mem) : Nat := pl.readN 88 2
/-- TENSORS. -/
def planTensors (pl : Mem) : Nat := pl.readN 90 2
/-- BUCKET_COUNT. -/
def planBuckets (pl : Mem) : Nat := pl.readN 50 1
/-- BUCKET_SIZE[k]. -/
def planBucketSize (pl : Mem) (k : Nat) : Nat := pl.readN (52 + 4 * k) 4
/-- DIE_BINDING is REPLICA. -/
def planReplica (pl : Mem) : Bool := bitsN (pl.readN 51 1) 5 4 == 1
/-- PLAN_DIGEST. -/
def planDigest (pl : Mem) : List Byte := pl.read 16 32

/-- A buffer entry (Table 6-3). -/
structure Buffer where
  tier : Nat
  die  : Nat
  core : Nat
  base : Nat
  size : Nat
deriving DecidableEq, Repr

/-- Buffer entry k of a section. -/
def planBuffer (pl : Mem) (sec : Section) (k : Nat) : Buffer :=
  let o := sec.bufferOff + 32 * k
  ⟨pl.readN o 1, pl.readN (o + 1) 1, pl.readN (o + 2) 2, pl.readN (o + 8) 8, pl.readN (o + 16) 8⟩

/-- A signed byte. -/
def signed8 (n : Nat) : Int := if n < 128 then (n : Int) else (n : Int) - 256

/-- A tensor entry (Table 6-4). -/
structure Tensor where
  id     : Nat
  layer  : Nat
  format : Nat
  kind   : Nat
  tally  : Bool
  xOut   : Int
  xStep  : Int
  member : Nat
deriving DecidableEq, Repr

/-- Tensor entry k. An XOUT_STEP of 0 means +4 (R112). -/
def planTensor (pl : Mem) (k : Nat) : Tensor :=
  let o := pl.readN 96 8 + 32 * k
  let st := pl.readN (o + 9) 1
  ⟨pl.readN o 4, pl.readN (o + 4) 2, pl.readN (o + 6) 1 % 16, pl.readN (o + 7) 1 % 16, bitN (pl.readN (o + 7) 1) 4,
   signed8 (pl.readN (o + 8) 1), if st = 0 then 4 else signed8 st, pl.readN (o + 10) 1⟩

/-- Index of the tensor entry with an identifier. -/
def planTensorIdx (pl : Mem) (id : Nat) : Option Nat :=
  (List.range (planTensors pl)).find? (fun k => (planTensor pl k).id == id)

/-- Member that owns a tensor: a group-owned tensor is member 0's (R234). -/
def Tensor.owner (t : Tensor) : Nat := if t.member = 0xFF then 0 else t.member % 4

/-- A layer entry (Table 6-5). -/
structure Layer where
  id      : Nat
  present : Nat
  dflt    : Nat
  member  : Nat
deriving DecidableEq, Repr

/-- Layer entry k. -/
def planLayer (pl : Mem) (k : Nat) : Layer :=
  let o := pl.readN 104 8 + 16 * k
  ⟨pl.readN o 2, pl.readN (o + 2) 1, pl.readN (o + 3) 1, pl.readN (o + 4) 1⟩

/-- An ownership interval (Table 6-6). -/
structure Interval where
  die   : Nat
  bank  : Nat
  core  : Nat
  phase : Nat
  owner : Nat
  start : Nat
  stop  : Nat
deriving DecidableEq, Repr

/-- Interval entry k of a section. -/
def planInterval (pl : Mem) (sec : Section) (k : Nat) : Interval :=
  let o := sec.ownOff + 16 * k
  ⟨pl.readN o 1, pl.readN (o + 1) 1, pl.readN (o + 2) 2, pl.readN (o + 4) 1, pl.readN (o + 5) 1, pl.readN (o + 8) 4,
   pl.readN (o + 12) 4⟩

/-- First instruction index and count of a queue in a phase (R222). -/
def planSched (pl : Mem) (sec : Section) (d q phase : Nat) : Nat × Nat :=
  let o := sec.schedOff + ((d * 97 + q) * 16 + phase) * 8
  (pl.readN o 4, pl.readN (o + 4) 4)

/-- Does a queue hold instructions in some phase of a section (R244)? -/
def planUses (pl : Mem) (sec : Section) (d q : Nat) : Bool :=
  (List.range (planPhases pl + 1)).any (fun ph => (planSched pl sec d q ph).2 != 0)

/-- The plan image of a binding: as loaded, else as it stands in the larder. -/
def State.planOf (s : State) (b : Binding) : Mem :=
  if b.loaded then b.plan else { cells := Mem.window s.larder.cells b.imageLa b.imageBytes 0 }

/-! ## Deckles -/

/-- A deckle (Table 5-1). -/
structure Deckle where
  tensor  : Nat
  problem : Nat
  buf     : Nat
  format  : Nat
  role    : Nat
  cb      : Nat
  sa      : Nat
  pitch   : Nat
  orgR    : Nat
  orgC    : Nat
  shapeR  : Nat
  shapeC  : Nat
  logR    : Nat
  logC    : Nat
  padR    : Nat
  padC    : Nat
  rag     : Nat
  selR    : Nat
  selC    : Nat
  banks   : Nat
  /-- Bytes of a block of 64 parameters where an optimizer takes the deckle as its state (R325); 0 elsewhere. -/
  block   : Nat := 0
deriving DecidableEq, Repr

/-- The deckle that 64 B spell. -/
def Deckle.ofBytes (b : List Byte) : Deckle :=
  ⟨leAt b 0 4, leAt b 4 4, leAt b 8 2, leAt b 10 1 % 16, bitsN (leAt b 10 1) 6 4, leAt b 11 1 % 8,
   leAt b 12 4 % 2 ^ 23, leAt b 16 4 % 2 ^ 23, leAt b 20 4, leAt b 24 4, leAt b 28 4, leAt b 32 4, leAt b 36 4,
   leAt b 40 4, leAt b 44 4, leAt b 48 4, leAt b 52 1, leAt b 53 1, leAt b 54 1, leAt b 55 1, 0⟩

/-- Deckle k of a section. -/
def planDeckle (pl : Mem) (sec : Section) (k : Nat) : Deckle := Deckle.ofBytes (pl.read (sec.deckleOff + 64 * k) 64)

/-- Bits of one element of a format (Table 3-1). -/
def fmtBits (f : Nat) : Nat :=
  if f = 0 || f = 1 || f = 4 then 4 else if f ≤ 7 then 8 else if f = 8 || f = 9 then 16 else if f = 10 then 32 else 16

/-- Block size of an optimizer's state by its VOP and OFLAGS (Table 8-3). -/
def stateBlock (vop flags : Nat) : Nat := if vop = 0x20 then 896 else if bitN flags 5 then 640 else 384

/-- Fields of a state block: offset and bytes of one parameter; F first, X last (Table 8-3). -/
def stateFields (block : Nat) : List (Nat × Nat) :=
  if block = 896 then [(0, 4), (256, 4), (512, 4), (768, 2)]
  else if block = 640 then [(0, 4), (256, 4), (512, 2)] else [(0, 4), (256, 2)]

/-- ROW_BYTES of a deckle (R184, R325). -/
def Deckle.rowBytes (k : Deckle) : Nat :=
  if k.block = 0 then ceilDiv (k.shapeC * fmtBits k.format) 8 else k.shapeC / 64 * k.block

/-- First byte and length of a deckle's region (R184). -/
def Deckle.region (k : Deckle) : Nat × Nat :=
  (k.sa, alignUp (k.sa + (k.shapeR - 1) * k.pitch + k.rowBytes) 64 - k.sa)

/-- Byte of element (i, j) within its buffer space, and whether a 4-bit element stands in the upper nibble (R184). -/
def Deckle.elemAt (k : Deckle) (i j : Nat) : Nat × Bool :=
  if fmtBits k.format = 4 then (k.sa + i * k.pitch + j / 2, j % 2 == 1)
  else (k.sa + i * k.pitch + j * (fmtBits k.format / 8), false)

/-- Where parameter j of tile row i has its field at offset `o` of the state block, `w` bytes wide (R325). -/
def Deckle.stateAt (k : Deckle) (o w i j : Nat) : Nat := k.sa + i * k.pitch + j / 64 * k.block + o + w * (j % 64)

/-- Ranges of a transfer between two deckles that stand at `pa` and `pb`: source address, destination address and bytes (R207:
whole granules, row by row where the pitches differ). Where one side packs its rows (check 8) and the other does not, a row's own
bytes move, and what else stands in the granule of the other side's row stays (log entry 46, DESIGN CHOICE). -/
def deckleRuns (a b : Deckle) (pa pb : Nat) : List (Nat × Nat × Nat) :=
  if a.pitch = b.pitch && a.region.2 == b.region.2 then [(pa, pb, a.region.2)]
  else (List.range a.shapeR).map (fun r =>
    (pa + r * a.pitch, pb + r * b.pitch, if a.pitch % 64 != 0 || b.pitch % 64 != 0 then a.rowBytes else alignUp a.rowBytes 64))

/-- First bytes of what stands for element (i, j): the element's, or those of a parameter's fields. -/
def Deckle.partsAt (k : Deckle) (i j : Nat) : List Nat :=
  if k.block = 0 then [(k.elemAt i j).1] else (stateFields k.block).map (fun f => k.stateAt f.1 f.2 i j)

/-- Rows and columns are ragged-eligible in this deckle. -/
def Deckle.ragR (k : Deckle) : Bool := bitN k.rag 0
/-- Columns are ragged-eligible in this deckle. -/
def Deckle.ragC (k : Deckle) : Bool := bitN k.rag 1
/-- Effective rows under the run-time lengths of a run (R186). -/
def Deckle.effR (k : Deckle) (rtl : Tab Nat) : Nat :=
  if k.ragR then min k.logR (Tab.getD rtl k.selR k.logR) else k.logR
/-- Effective columns (R186). -/
def Deckle.effC (k : Deckle) (rtl : Tab Nat) : Nat :=
  if k.ragC then min k.logC (Tab.getD rtl k.selC k.logC) else k.logC
/-- Logical rows of the tile: the tile rows within the logical extent. -/
def Deckle.rowsIn (k : Deckle) (rtl : Tab Nat) : Nat := min k.shapeR (k.effR rtl - k.orgR)
/-- Logical columns of the tile. -/
def Deckle.colsIn (k : Deckle) (rtl : Tab Nat) : Nat := min k.shapeC (k.effC rtl - k.orgC)

/-! ## Instructions -/

/-- An instruction of a plan (Table 6-7): its 32 B. -/
abbrev PInstr := List Byte
/-- Instruction k of a section. -/
def planInstr (pl : Mem) (sec : Section) (k : Nat) : PInstr := pl.read (sec.instrOff + 32 * k) 32
/-- OP. -/
def iOp (i : PInstr) : Nat := leAt i 0 1
/-- FLAGS: WAIT_EN, SIG_EN, VGATE, ENTRY. -/
def iFlag (i : PInstr) (b : Nat) : Bool := bitN (leAt i 1 1) b
/-- WAIT_TOKEN. -/
def iWaitTok (i : PInstr) : Nat := leAt i 2 2 % 1024
/-- SIG token. -/
def iSigTok (i : PInstr) : Nat := leAt i 4 2 % 1024
/-- SIG target plan die. -/
def iSigDie (i : PInstr) : Nat := bitsN (leAt i 4 2) 11 10
/-- VG_LAYER. -/
def iVgLayer (i : PInstr) : Nat := leAt i 6 2
/-- VG_MASK. -/
def iVgMask (i : PInstr) : Nat := leAt i 8 1 % 16
/-- WAIT_COUNT. -/
def iWaitCount (i : PInstr) : Nat := leAt i 10 2
/-- A deckle index of 22 bits at byte `o`. -/
def iDeckle (i : PInstr) (o : Nat) : Nat := leAt i o 3 % 2 ^ 22

/-- MMA: arrays with a stream. -/
def mmaArrays (i : PInstr) : Nat := leAt i 24 1 % 16
/-- MMA: quadrants present. -/
def mmaQuads (i : PInstr) : Nat := leAt i 24 1 / 16
/-- MMA MODE: 0 4×4, 1 8×4, 2 8×8. -/
def mmaMode (i : PInstr) : Nat := leAt i 25 1 % 4
/-- MMA passes. -/
def mmaPasses (i : PInstr) : Nat := bitsN (leAt i 25 1) 3 2
/-- MMA quadrant mode. -/
def mmaQuadMode (i : PInstr) : Bool := bitN (leAt i 25 1) 4
/-- MMA segment length S_K. -/
def mmaSk (i : PInstr) : Nat := 16 * leAt i 26 2
/-- MMA conversion control. -/
def mmaConv (i : PInstr) : Nat := leAt i 28 1
/-- MMA auxiliary deckles present. -/
def mmaAux (i : PInstr) : Nat := leAt i 29 1
/-- MMA random stream. -/
def mmaRstream (i : PInstr) : Nat := leAt i 30 1

/-- The streams of an MMA: (array, quadrant), ascending; quadrant 0 outside quadrant mode (R224). -/
def mmaStreams (i : PInstr) : List (Nat × Nat) :=
  let qs := if mmaQuadMode i then maskBits 4 (mmaQuads i) else [0]
  (maskBits 4 (mmaArrays i)).flatMap (fun a => qs.map (fun q => (a, q)))

/-- Offset of a stream's ACT and OUT deckle from their bases. -/
def mmaStreamIdx (i : PInstr) (st : Nat × Nat) : Nat := if mmaQuadMode i then 4 * st.1 + st.2 else st.1
/-- ACT deckle index of a stream. -/
def mmaAct (i : PInstr) (st : Nat × Nat) : Nat := iDeckle i 12 + mmaStreamIdx i st
/-- OUT deckle index of a stream. -/
def mmaOut (i : PInstr) (st : Nat × Nat) : Nat := iDeckle i 15 + mmaStreamIdx i st
/-- WGT deckle index of a stream's quadrant. -/
def mmaWgt (i : PInstr) (st : Nat × Nat) : Nat := iDeckle i 18 + (if mmaQuadMode i then st.2 else 0)

/-- Auxiliary deckle index: kind 0 WSCALE, 1 ZPT, 2 GSCALE (one for each present quadrant), 3 ASCALE (one for each
stream); none where absent (R224). -/
def mmaAuxIdx (i : PInstr) (kind : Nat) (st : Nat × Nat) : Option Nat :=
  if !bitN (mmaAux i) kind then none else
  let qs := if mmaQuadMode i then maskBits 4 (mmaQuads i) else [0]
  let before := ((List.range kind).filter (fun k => bitN (mmaAux i) k)).length * qs.length
  let within := if kind = 3 then (mmaStreams i).findIdx (fun x => x == st) else qs.findIdx (fun q => q == st.2)
  some (iDeckle i 21 + before + within)

/-- VEC: VOP. -/
def vecOp (i : PInstr) : Nat := leAt i 12 1
/-- VEC: VMODE. -/
def vecMode (i : PInstr) : Nat := leAt i 13 1
/-- VEC: deckle index of D0 to D3 (0 to 3) and P (4), where present. -/
def vecDeckle (i : PInstr) (k : Nat) : Option Nat :=
  if bitN (leAt i 31 1) k then some (iDeckle i (14 + 3 * k)) else none

/-- Operand columns of a VOP (Table 8-2): for D0, D1, D2, D3, P: 0 absent, 1 read, 2 written, 3 read and written,
4 optional and written. -/
def vopShape (v : Nat) : Option (List Nat) :=
  if v = 0x01 then some [1, 0, 0, 2, 0]
  else if v = 0x02 || v = 0x03 then some [1, 1, 0, 2, 0]
  else if v = 0x04 then some [1, 1, 1, 2, 0]
  else if v = 0x05 then some [1, 1, 0, 2, 1]
  else if v = 0x06 then some [1, 0, 0, 0, 1]
  else if v = 0x08 || v = 0x09 || v = 0x0A then some [1, 0, 0, 2, 0]
  else if v = 0x0B || v = 0x0C then some [1, 1, 0, 2, 0]
  else if v = 0x10 || v = 0x11 || v = 0x12 || v = 0x13 || v = 0x14 then some [1, 0, 0, 2, 0]
  else if v = 0x15 then some [1, 0, 0, 0, 0]
  else if v = 0x18 || v = 0x19 then some [1, 1, 2, 2, 1]
  else if v = 0x1A then some [1, 1, 1, 2, 1]
  else if v = 0x1B then some [1, 1, 1, 2, 0]
  else if v = 0x1C || v = 0x1E then some [1, 0, 0, 2, 0]
  else if v = 0x1D then some [1, 1, 0, 2, 0]
  else if v = 0x20 || v = 0x21 then some [1, 3, 0, 4, 1]
  else if v = 0x24 then some [1, 0, 2, 2, 0]
  else if v = 0x25 then some [1, 1, 0, 2, 0]
  else if v = 0x28 || v = 0x29 then some [1, 0, 0, 2, 1]
  else if v = 0x2C || v = 0x2D then some [1, 0, 0, 2, 0]
  else if v = 0x30 || v = 0x32 then some [1, 1, 0, 3, 0]
  else if v = 0x31 then some [1, 0, 0, 3, 0]
  else none

/-- Is operand `k` of a VOP written? -/
def vopWrites (v k : Nat) : Bool :=
  match vopShape v with
  | some l => [2, 3, 4].contains (l.getD k 0)
  | none => false
/-- Is operand `k` of a VOP read? -/
def vopReads (v k : Nat) : Bool :=
  match vopShape v with
  | some l => [1, 3].contains (l.getD k 0)
  | none => false

/-- Deckles that an instruction names, each with whether it is written: (deckle index, written). -/
def instrDeckles (i : PInstr) : List (Nat × Bool) :=
  if iOp i = 0x01 then
    (mmaStreams i).flatMap (fun st =>
      [(mmaAct i st, false), (mmaWgt i st, false), (mmaOut i st, true)]
        ++ (List.range 4).filterMap (fun k => (mmaAuxIdx i k st).map (fun x => (x, false))))
  else if iOp i = 0x02 then
    (List.range 5).filterMap (fun k => (vecDeckle i k).map (fun x => (x, vopWrites (vecOp i) k)))
  else if iOp i = 0x08 then [(iDeckle i 12, false), (iDeckle i 15, true)]
  else []

/-- A region of some tier: tier, plan die, core (0xFFFF outside shelves), first byte, length, written. -/
structure Region where
  tier  : Nat
  die   : Nat
  core  : Nat
  start : Nat
  len   : Nat
  write : Bool
deriving DecidableEq, Repr

/-- Is operand k of a VEC an optimizer's state (Table 8-2)? -/
def vecState (i : PInstr) (k : Nat) : Bool := k == 1 && (vecOp i == 0x20 || vecOp i == 0x21)

/-- What the regions of an instruction take from data: whether the image that a TBL names is a KQ8 one (R104), the block size
of the state that an optimizer names, and those of the section's state tensors (R325). -/
structure RegionFacts where
  kq8    : Bool := true
  block  : Nat := 0
  states : Tab Nat := []
deriving DecidableEq, Repr

/-- Bytes of a TBL's image (R104). -/
def RegionFacts.image (f : RegionFacts) : Nat := if f.kq8 then 320 else 64

/-- The region of a deckle in its buffer's space: shelf and store-room deckles by their SA, larder and attic deckles at
their buffer's base plus SA (R183, R219); `block` for an optimizer's state. -/
def deckleRegion (pl : Mem) (sec : Section) (k : Nat) (write : Bool) (block : Nat := 0) : Region :=
  let dk := { planDeckle pl sec k with block := block }
  let b := planBuffer pl sec dk.buf
  let r := dk.region
  if b.tier = 0 then ⟨0, b.die, b.core, r.1, r.2, write⟩
  else ⟨b.tier, b.die, 0xFFFF, b.base + r.1, r.2, write⟩

/-- The regions that an instruction touches. -/
def instrRegions (pl : Mem) (sec : Section) (d core : Nat) (i : PInstr) (f : RegionFacts) : List Region :=
  if iOp i = 0x03 then
    [⟨0, d, core, leAt i 13 3 % 2 ^ 23, f.image, false⟩]
  else if iOp i = 0x02 then
    (List.range 5).filterMap (fun k => (vecDeckle i k).map (fun x =>
      deckleRegion pl sec x (vopWrites (vecOp i) k) (if vecState i k then f.block else 0)))
  else if iOp i = 0x04 then
    let buf := fun o w => let b := planBuffer pl sec (leAt i o 2); Region.mk b.tier b.die b.core b.base b.size w
    [buf 12 false, buf 14 true] ++ (if leAt i 16 2 = 0xFFFF then [] else [buf 16 true])
  else (instrDeckles i).map (fun x => deckleRegion pl sec x.1 x.2 (Tab.getD f.states (planDeckle pl sec x.1).tensor 0))

/-- Do two regions meet in a conflicting way (R225: one of them written)? -/
def Region.conflicts (a b : Region) : Bool :=
  (a.write || b.write) && a.tier == b.tier && a.die == b.die && a.core == b.core
    && decide (a.start < b.start + b.len) && decide (b.start < a.start + a.len)

end Sys2Proof.Machine
end

