-- ==== Sys2Proof/Machine/Banks.lean ====
section
/-!
DEFINITION. Banks, larder scrub and attic (R254 to R299): ownership writes, bank power, the host debug window, error
write-back, and the attic's requests, timeouts and link changes.
-/
namespace Sys2Proof.Machine

/-- Is debug level D2 active (Table 14-4)? -/
def State.d2 (s : State) : Bool := s.level == 2

/-! ## Ownership -/

/-- BANK_OWN_WRITE: a host write of BANK_OWN acts on OWNER only under D2 and only for codes 0 and 6 (R264); REFUSED is
cleared by writing 1. -/
def State.bankOwnWrite (s : State) (b v : Nat) : State :=
  let s := if bitN v 4 then s.setFld (bankAt b) BANK_OWN_REFUSED 0 else s
  if s.d2 && (v % 8 == 0 || v % 8 == 6) then s.tryOwn b (v % 8) none else s

/-- BANK_OWN_WRITE. -/
def execBankOwnWrite (b : BankNo) (v : Nat) (s : State) : Host.Outcome State Fault Refusal :=
  .next (s.served (bankAt b) (fun s => s.bankOwnWrite b v))

/-- Queue state of a run's queue. -/
def Run.queue (r : Run) (pd q : Nat) : QueueSt := Tab.getD r.queues (pd * 97 + q) {}

/-- Place of a bank in the timelines of a run's plan (Table 6-6): plan die × 1,024 + logical core × 8 + shelf, or + 768 + store-room
bank. -/
def State.planBank (s : State) (r : Run) (b : Nat) : Nat :=
  r.map.findIdx (fun d => d == bankDie b) * 1024 + (if bankIsStore b then 768 + (b % 816 - 800)
    else (s.logicalOf (bankDie b) (b % 816 / 8)).getD 96 * 8 + b % 8)

/-- Place that an interval's bank has. -/
def Interval.place (iv : Interval) : Nat := iv.die * 1024 + (if iv.bank < 8 then iv.core * 8 + iv.bank else 760 + iv.bank)

/-- A boundary of a timeline as one number that rises along the run, from 1: phase and position. -/
def boundaryOf (phase pos : Nat) : Nat := phase * 2 ^ 32 + pos + 1

/-- The latest boundary of a bank's timeline that its queue has reached, and the code that is due there (R262): that of the
interval that starts at it, else 0; none before the bank's first interval. -/
def State.due (s : State) (r : Run) (pl : Mem) (b : Nat) : Option (Nat × Nat) :=
  let sec := planSection pl r.sect
  let at_ := s.planBank r b
  let pos := (r.queue (at_ / 1024) (if bankIsStore b then 96 else at_ % 1024 / 8)).pos
  let ivs := ((List.range sec.intervals).map (planInterval pl sec)).filter (fun iv => iv.place == at_)
  let now := boundaryOf r.phase pos
  let top := (ivs.flatMap (fun iv => [boundaryOf iv.phase iv.start, boundaryOf iv.phase iv.stop])).foldl
    (fun m x => if x ≤ now then max m x else m) 0
  if top = 0 then none
  else some (top, ((ivs.find? (fun iv => boundaryOf iv.phase iv.start == top)).map Interval.owner).getD 0)

/-- Note that a bank's boundary has taken effect. -/
def State.setHanded (s : State) (lead place boundary : Nat) : State :=
  s.modRun lead (fun r => { r with handed := Tab.put r.handed place boundary })

/-- HANDOVER_WRITE: the handover logic of a bank writes the code that is due at the present position of job j's timeline, and
retries while it is refused (R262); each call is one attempt. -/
def execHandoverWrite (j : Slot) (b : BankNo) (s : State) : Host.Outcome State Fault Refusal :=
  .next (match (s.job j).run, (s.job j).binding with
    | some r, some bi =>
      if r.parked || r.spilled || r.posted || !r.map.contains (bankDie b) || bitN r.failed (bankDie b) then s else
      match s.due r bi.plan b with
      | none => s
      | some (top, code) =>
        if top ≤ Tab.getD r.handed (s.planBank r b) 0 then s
        else if s.mayOwn b code then
          (s.setOwner b code (if 1 ≤ code ∧ code ≤ 3 then some j.val else none)).setHanded j (s.planBank r b) top
        else (s.refuseOwner b code).bump (bankAt b) BANK_CNT_HANDOVER_WAIT_V
    | _, _ => s)

/-! ## Power -/

/-- Has a bank a write-back pending? -/
def State.backPending (s : State) (b : Nat) : Bool := (s.die (bankDie b)).backs.any (fun w => w.bank == b)

/-- Begin a power transition of a bank towards its request, if it has one to make and neither an access nor a write-back is
pending (R272). -/
def State.bankTransBegin (s : State) (b : Nat) : State :=
  let a := bankAt b
  let now := s.bankPwr b
  let dest := s.fld a BANK_CTRL_PWR_REQ
  if (Tab.find s.bankTrans b).isSome || now == dest || dest == 3 || s.bit a BANK_OWN_PENDING || s.backPending b then s
  else
    let s := (s.setFld a BANK_STAT_READY 0).setFld a BANK_STAT_PWR 3
    { s with bankTrans := Tab.put s.bankTrans b (now * 4 + dest) }

/-- BANK_PWR_REQ_WRITE: effective only under D2 (R271); code 3 is reserved and leaves the request. -/
def State.bankPwrReq (s : State) (b v : Nat) : State :=
  if !s.d2 || v % 4 == 3 then s else (s.setFld (bankAt b) BANK_CTRL_PWR_REQ (v % 4)).bankTransBegin b

/-- BANK_PWR_REQ_WRITE. -/
def execBankPwrReqWrite (b : BankNo) (v : Nat) (s : State) : Host.Outcome State Fault Refusal :=
  .next (s.served (bankAt b) (fun s => s.bankPwrReq b v))

/-- BANK_POWER_TRANSITION: the transition in progress ends (Table 7-5); a bank that wakes from OFF reads as zero (R273);
a request made meanwhile begins its own transition. -/
def execBankPowerTransition (b : BankNo) (s : State) : Host.Outcome State Fault Refusal :=
  .next (match Tab.find s.bankTrans b with
    | none => s.bankTransBegin b
    | some t =>
      let s := { s with bankTrans := Tab.erase s.bankTrans b }
      let s := if t / 4 == 2 || t % 4 == 2 then s.bankZero b else s
      let s := (s.setFld (bankAt b) BANK_STAT_READY (b2n (t % 4 == 0))).setFld (bankAt b) BANK_STAT_PWR (t % 4)
      s.bankTransBegin b)

/-! ## The host debug window (Table 7-17) -/

/-- Byte offset of the 8 B that WORD names, none beyond a shelf bank's end. -/
def State.dbgAt (s : State) (b : Nat) : Option Nat :=
  let w := s.fld (bankAt b) BANK_DBG_ADDR_WORD
  if !bankIsStore b && decide (163840 ≤ w) then none else some (w / 2 * 8)

/-- A debug read of 8 B: the data and the state after it. -/
def State.dbgRead (s : State) (b : Nat) : State × Nat :=
  match s.dbgAt b with
  | none => (s.setFld (bankAt b) BANK_DBG_ADDR_POISON 0, 0)
  | some o =>
    if s.fld (bankAt b) BANK_OWN_OWNER ≠ 6 then
      ((s.nonOwner b 6 o 8 false none).setFld (bankAt b) BANK_DBG_ADDR_POISON 0, 0)
    else
      let s := s.bankReady b
      (s.setFld (bankAt b) BANK_DBG_ADDR_POISON (b2n (s.bankPoisoned b o 8)), natLE (s.bankRead b o 8))

/-- A debug write of `n` bytes, `skip` bytes into the 8 B. -/
def State.dbgWrite (s : State) (b skip n v : Nat) : State :=
  match s.dbgAt b with
  | none => s
  | some o =>
    if s.fld (bankAt b) BANK_OWN_OWNER ≠ 6 then s.nonOwner b 6 (o + skip) n true none
    else (s.bankReady b).changeBut (if bankIsStore b then 1 else 0)
      [⟨if bankIsStore b then 1 else 0, bankDie b, b % 816 / 8, bankAddr b + o + skip, n⟩] []
      (fun m => m.write (bankKey b + o + skip) (bytesLE n v))

/-- BANK_DBG_READ: an 8 B read of BANK_DBG_DATA. -/
def execBankDbgRead (b : BankNo) (s : State) : Host.Outcome State Fault Refusal :=
  .next (let r := if s.serves (bankAt b) then s.dbgRead b else (s, 0); { r.1 with rd := ⟨bytesLE 8 r.2, false⟩ })

/-- BANK_DBG_WRITE: an 8 B write of BANK_DBG_DATA. -/
def execBankDbgWrite (b : BankNo) (v : Nat) (s : State) : Host.Outcome State Fault Refusal :=
  .next (s.served (bankAt b) (fun s => s.dbgWrite b 0 8 v))

/-! ## Errors -/

/-- A corrected error of a bank is counted (R257, R258). -/
def State.countCe (s : State) (b : Nat) : State := (s.setFld (bankAt b) BANK_ECC_CE 1).bump (bankAt b) BANK_CNT_CE_V

/-- A bank has a write-back of the 8 B at `off` pending; an uncorrectable error makes its granule read as poisoned from now
on (R258). -/
def State.pendBack (s : State) (b off : Nat) (ue : Bool) : State :=
  let o := off / 8 * 8
  let ws := (s.die (bankDie b)).backs
  if ws.any (fun w => w.bank == b && w.off == o && (w.ue || !ue)) then s else
  let was := match ws.find? (fun w => w.bank == b && w.off / 64 == o / 64 && w.ue) with
    | some w => w.was
    | none => s.bankPoisoned b o 8
  let s := if ue then s.modBank b (fun m => m.setPoison (bankKey b + o) 1 true) else s
  s.modDie (bankDie b) (fun x => { x with
    backs := x.backs.filter (fun w => !(w.bank == b && w.off == o)) ++ [⟨b, o, ue, was⟩] })

/-- A read meets a granule of whose three poison copies some have changed (R257): the majority counts; one copy that differs
is a corrected error. -/
def State.poisonCopies (s : State) (b off mask : Nat) : State :=
  let n := (maskBits 3 mask).length
  let g := (bankKey b + off) / 64
  let s := if n < 2 then s else s.settle (if bankIsStore b then 1 else 0) (fun k => k / 64 == g) (fun _ => false)
    (fun m => m.setPoison (64 * g) 1 (!m.poisoned (64 * g)))
  if n = 1 || n = 2 then s.countCe b else s

/-- The write-back of the 8 B at `off` is made (R258): the poison copies that it sets are stored. -/
def State.writeBack (s : State) (b off : Nat) : State :=
  let mine := fun (w : WriteBack) => w.bank == b && w.off == off / 8 * 8
  let ue := (s.die (bankDie b)).backs.any (fun w => mine w && w.ue)
  s.modDie (bankDie b) (fun x => { x with backs := (x.backs.filter (fun w => !mine w)).map (fun w =>
    if ue && w.bank == b && w.off / 64 == off / 64 then { w with was := true } else w) })

/-- ECC_WRITEBACK: what the error logic of a bank that is ON finds in a read or writes back (R257, R258). -/
def execEccWriteback (b : BankNo) (e : EccEvent) (s : State) : Host.Outcome State Fault Refusal :=
  .next (
    let a := bankAt b
    let ok := fun off => s.bit a BANK_STAT_READY && decide (off < bankBytes b)
    match e with
    | .corrected off => if ok off then (s.countCe b).pendBack b off false else s
    | .uncorrectable off =>
      if !ok off then s else
      let s := if s.bit a BANK_ECC_UE then s
        else (s.setFld a BANK_ECC_UE 1).setFld a BANK_ECC_GRANULE (off / 64)
      (s.bump a BANK_CNT_UE_V).pendBack b off true
    | .copies off mask => if ok off then s.poisonCopies b off mask else s
    | .writeBack off => if ok off then s.writeBack b off else s)

/-! ## Attic -/

/-- Record an attic error (Table 7-20): its bit, and the address of the first since all three bits were clear. -/
def State.atticErr (s : State) (x : Nat) (f : Fld) (aa : Nat) : State :=
  let clear := !s.bit 0 ATC_ERR_POISON x && !s.bit 0 ATC_ERR_TIMEOUT x && !s.bit 0 ATC_ERR_LOST x
  let s := if clear then s.setFld 0 ATC_ERR_ADDR (aa % 2 ^ 41 / 64) x else s
  s.setFld 0 f 1 x

/-- The outcome 0x2042 of the run or command that lost an attic write, with its first event (R288). -/
def State.atticLost (s : State) (q : AtticReq) : State :=
  match q.cmd with
  | some seq =>
    match s.cmd q.slot seq with
    | some c => if c.outcomes.contains 0x2042 then s else
        (s.outcome q.slot seq 0x2042).event q.slot { type := 0x0B, seq := some seq, a := q.aa }
    | none => s
  | none =>
    match (s.job q.slot).run with
    | some r =>
      if r.outcomes.contains (0, 0x2042) then s else
      let outs := (List.range r.members.length).map (fun m => (m, 0x2042))
      let s := s.modRun q.slot (fun r => { r with outcomes := r.outcomes ++ outs })
      s.event q.slot { type := 0x0B, seq := some (r.seqs.getD 0 0), step := some r.step, a := q.aa }
    | none => s

/-- An attic write is lost and leaves its granule's contents open (R287, R288). -/
def State.atticLose (s : State) (q : AtticReq) : State :=
  let s := s.atticErr q.port ATC_ERR_LOST q.aa
  let s := ({ s with attic := s.attic.write (q.aa / 64 * 64) (freeBytes s.fresh 64) }).drawnN 64
  s.atticLost q

/-- Requests of a kind that a port has outstanding. -/
def State.atticOut (s : State) (port : Nat) (write : Bool) : Nat :=
  (s.attics.filter (fun q => q.port == port && q.write == write && q.sent)).length

/-- The oldest waiting request of a kind takes the place of one that has ended (R285). -/
def State.atticNextUp (s : State) (port : Nat) (write : Bool) : State :=
  match s.attics.find? (fun q => q.port == port && q.write == write && !q.sent) with
  | none => s
  | some w => { s with attics := s.attics.map (fun q => if q.id = w.id then { q with sent := true, ts := s.ts } else q) }

/-- An attic request that ends leaves the port. -/
def State.atticDrop (s : State) (q : AtticReq) : State :=
  ({ s with attics := s.attics.filter (fun x => x.id != q.id) }).atticNextUp q.port q.write

/-- A request times out: what the port reports (R286), and a lost write's end. -/
def State.atticExpire (s : State) (q : AtticReq) : State :=
  let s := (s.bump 0 ATC_CNT_TIMEOUT_V 1 q.port).atticErr q.port ATC_ERR_TIMEOUT q.aa
  if q.write then s.atticLose q else s

/-- Issue an attic request: outstanding, or waiting while the port has 4,096 of its kind (R285); a write to a port whose link is
down times out at once (R287). -/
def State.atticPut (s : State) (q : AtticReq) : State :=
  let q := { q with id := s.atticNext, ts := s.ts, sent := decide (s.atticOut q.port q.write < 4096) }
  let s := { s with atticNext := s.atticNext + 1 }
  if s.bit 0 ATC_STAT_UP q.port then { s with attics := s.attics ++ [q] } else s.atticExpire q

/-- Put what an attic read brought, or its poisoned zeros, where it goes; towards the attic it becomes a write. -/
def State.atticLand (s : State) (q : AtticReq) (bs : List Byte) (p : Bool) : State :=
  if q.tier = 3 then
    s.atticPut { q with port := q.addr / 2 ^ 41 % 2, write := true, aa := q.addr, data := bs, poison := p }
  else if q.denied then s
  else
    let to_ : Place := ⟨q.tier, q.die, q.core, q.addr, q.bytes⟩
    s.changeBut q.tier [to_] [] (fun m =>
      let keep := q.bytes % 64 != 0 && m.anyPoison to_.key q.bytes
      m.writeP to_.key bs (p || keep))

/-- An attic request times out (R286, R288): a read writes poisoned zeros. -/
def State.atticTimeOut (s : State) (q : AtticReq) : State :=
  let s := s.atticExpire q
  if q.write then s else s.atticLand q (zeros q.bytes) true

/-- An attic request is answered. -/
def State.atticAnswer (s : State) (q : AtticReq) (poison : Bool) : State :=
  if q.write then
    let keep := q.data.length % 64 != 0 && s.attic.anyPoison q.aa q.data.length
    ({ s with attic := s.attic.writeP q.aa q.data (q.poison || keep) }).bump 0 ATC_CNT_WR_BYTES_V q.data.length q.port
  else
    let p := poison || s.attic.poisoned q.aa
    let s := s.bump 0 ATC_CNT_RD_BYTES_V q.bytes q.port
    let s := if p then (s.bump 0 ATC_CNT_POISON_V 1 q.port).atticErr q.port ATC_ERR_POISON q.aa else s
    s.atticLand q (s.attic.read q.aa q.bytes) p

/-- Issue an attic request; a read from a port whose link is down times out at once (R285, R287). -/
def State.atticIssue (s : State) (q : AtticReq) : State :=
  if q.write || s.bit 0 ATC_STAT_UP q.port then s.atticPut q
  else (s.atticExpire q).atticLand q (zeros q.bytes) true

/-- Timeout of a port in ns; values below 10 µs act as 10 (Table 7-20). -/
def State.atticLimit (s : State) (x : Nat) : Nat := max 10 (s.fld 0 ATC_CTRL_TIMEOUT_US x) * 1000

/-- A response reaches the timer island two or three clocks after it arrives (R51): before the request's evaluation edge it
completes it; at the edge it wins and is counted late; after it the request has timed out (R286). -/
def State.atticRespond (s : State) (q : AtticReq) (poison : Bool) : State :=
  let arrive := s.ts + 2 + s.free.toNat % 2
  let s := s.drawn.atticDrop q
  let edge := q.ts + s.atticLimit q.port
  if edge < arrive then s.atticTimeOut q
  else
    let s := if arrive = edge then s.bump 0 ATC_CNT_LATE_V 1 q.port else s
    s.atticAnswer q poison

/-- ATTIC_TIMEOUT of request k, once its time is over (R286). -/
def execAtticTimeout (k : Nat) (s : State) : Host.Outcome State Fault Refusal :=
  .next (match s.attics.find? (fun q => q.id == k && q.sent) with
    | none => s
    | some q => if s.ts < q.ts + s.atticLimit q.port then s else (s.atticDrop q).atticTimeOut q)

/-- The requests of a port whose link goes down (R287): reads complete as timed out, outstanding writes are lost; those that
still wait time out at once. -/
def State.portDrops (s : State) (x : Nat) : State :=
  let s := (s.setFld 0 ATC_STAT_UP 0 x).setFld 0 ATC_STAT_DOWN_SEEN 1 x
  let mine := s.attics.filter (fun q => q.port == x)
  let s := { s with attics := s.attics.filter (fun q => q.port != x) }
  s.forAll mine (fun s q => if q.write && q.sent then s.atticLose q else s.atticTimeOut q)

/-- ATTIC_LINK_DOWN on port x (R287). -/
def execAtticLinkDown (x : Port) (s : State) : Host.Outcome State Fault Refusal :=
  .next (if s.bit 0 ATC_STAT_UP x then s.portDrops x else s)

/-- ATTIC_PORT_RETRAIN: a port whose link went down returns to service if it retrains with an unchanged capacity; else it
stays out until PERST# or a cold power cycle (R287). -/
def execAtticPortRetrain (x : Port) (ok : Bool) (bytes : Nat) (s : State) : Host.Outcome State Fault Refusal :=
  .next (
    let cap := s.fld 0 ATC_CAP_BYTES x
    if s.bit 0 ATC_STAT_UP x || cap == 0 || (s.power.atticOut / 2 ^ x.val) % 2 == 1 then s
    else if ok && bytes == cap then s.setFld 0 ATC_STAT_UP 1 x
    else { s with power := { s.power with atticOut := orBit s.power.atticOut x.val } })

end Sys2Proof.Machine
end

