-- ==== Sys2Proof/Machine/Convert.lean ====
section
/-!
DEFINITION. Number formats and conversion (R98 to R137): reading an element as FP32, converting a value into a format
under a conversion control, BS16 packing, alignment to shared exponents, and the random draws of R315.
-/
namespace Sys2Proof.Machine

/-! ## Reading -/

/-- Two's complement value of `bits` bits. -/
def signedN (bits n : Nat) : Int := if n < 2 ^ (bits - 1) then (n : Int) else (n : Int) - 2 ^ bits

/-- Is the format a float (Table 3-1)? -/
def fmtFloat (f : Nat) : Bool := decide (6 ≤ f) && decide (f ≤ 10)

/-- Layout of a float format. -/
def fmtOf (f : Nat) : FFmt :=
  if f = 6 then e4m3 else if f = 7 then e5m2 else if f = 8 then bf16 else if f = 9 then fp16 else f32

/-- Integer or level that an integer or codebook code stands for (R99, R103). -/
def codeInt (f : Nat) (book : List Nat) (raw : Nat) : Int :=
  if f = 0 then signedN 4 raw else if f = 1 || f = 3 then (raw : Int) else if f = 2 then signedN 8 raw
  else signed8 (book.getD raw 0)

/-- The FP32 pattern of an element: a float as it is, an integer or level times an FP32 scale (R134). -/
def elemF32 (f : Nat) (book : List Nat) (scale raw : Nat) : Nat :=
  if fmtFloat f then f32.enc ((fmtOf f).dec raw)
  else f32.mul (f32.ofInt (codeInt f book raw)) scale

/-- FP32 1.0. -/
def one32 : Nat := 0x3F800000
/-- FP32 -inf and +inf. -/
def negInf32 : Nat := 0xFF800000
def posInf32 : Nat := 0x7F800000

/-! ## Converting (R124 to R137) -/

/-- What a conversion gives: the code, its tally event (0 none, 1 NONFINITE, 2 SAT, 3 ZERO) and whether a finite value lay
beyond the range. -/
structure Conv where
  code  : Nat
  event : Nat
  excess  : Bool
deriving DecidableEq, Repr

/-- Event of R136: NONFINITE before SAT before ZERO. -/
def convEvent (nonfin sat zero : Bool) : Nat := if nonfin then 1 else if sat then 2 else if zero then 3 else 0

/-- Conversion of a finite value into a float format. `sticky` forces the out-of-range case (R130). -/
def convFloat (f : FFmt) (mode : Nat) (r : Rnd) (neg : Bool) (m : Nat) (e : Int) (sticky : Bool) : Conv :=
  let sg := b2n neg * 2 ^ f.signAt
  let x := f.roundMag r m e
  if sticky || decide (f.top ≤ x) then
    if mode = 1 then ⟨if f.inf then sg + f.top else f.nanBits, 1, true⟩ else ⟨sg + f.maxBits, 2, true⟩
  else ⟨sg + x, convEvent false false (x == 0), false⟩

/-- Range of an integer format. -/
def intRange (f : Nat) : Int × Int :=
  if f = 0 then (-8, 7) else if f = 1 then (0, 15) else if f = 2 then (-128, 127) else (0, 255)

/-- Code of an integer of a format. -/
def intCode (f : Nat) (q : Int) : Nat := (q % 2 ^ fmtBits f).toNat

/-- Conversion of a finite value into an integer format (R132). -/
def convInt (f mode : Nat) (r : Rnd) (neg : Bool) (m : Nat) (e : Int) (sticky : Bool) : Conv :=
  let q := smant neg (roundAt r m e 0)
  let lo := (intRange f).1
  let hi := (intRange f).2
  let _ := mode
  if sticky then ⟨intCode f (if neg then lo else hi), 2, true⟩
  else if hi < q then ⟨intCode f hi, 2, true⟩
  else if q < lo then ⟨intCode f lo, 2, true⟩
  else ⟨intCode f q, convEvent false false (q == 0), false⟩

/-- The codes of a codebook format with their levels. -/
def bookLevels (f : Nat) (book : List Nat) : List (Nat × Int) :=
  (List.range (if f = 4 then 16 else 256)).map (fun c => (c, signed8 (book.getD c 0)))

/-- The code whose level has the smallest magnitude, lowest code first. -/
def bookZero (ls : List (Nat × Int)) : Nat × Int := (minBy (fun x => x.2.natAbs) ls).getD (0, 0)
/-- The outermost level below (true) or above. -/
def bookEdge (ls : List (Nat × Int)) (neg : Bool) : Nat × Int :=
  (minBy (fun x => ((if neg then x.2 else -x.2) + 256).toNat) ls).getD (0, 0)

/-- Nearest level under RNE: distances in units of 2^-k; a tie takes the even code. -/
def bookNearest (ls : List (Nat × Int)) (v : Int) (k : Nat) : Nat × Int :=
  (minBy (fun x => 2 * (x.2 * 2 ^ k - v).natAbs + x.1 % 2) ls).getD (0, 0)

/-- Conversion of a finite value into a codebook format (R132, R133). `v` is the value in units of 2^-k. A quotient of ±0 takes the
level nearest 0 in every mode. A quotient on a side of zero where the table has no level lies beyond its outermost level, and
counts as out of range: R132's fallback under TRUNC is not taken for it (log entry 46, DESIGN CHOICE). -/
def convBook (f : Nat) (book : List Nat) (r : Rnd) (v : Int) (k : Nat) (sticky neg clamp : Bool) : Conv :=
  let ls := bookLevels f book
  let lo := bookEdge ls true
  let hi := bookEdge ls false
  let out := fun (c : Nat × Int) => (⟨c.1, convEvent false false (c.2 == 0), false⟩ : Conv)
  if sticky then ⟨(bookEdge ls neg).1, 2, true⟩
  else if v = 0 then out (bookNearest ls 0 k)
  else if hi.2 * 2 ^ k < v then (if clamp then out hi else ⟨hi.1, 2, true⟩)
  else if v < lo.2 * 2 ^ k then (if clamp then out lo else ⟨lo.1, 2, true⟩)
  else match r with
    | .rne => out (bookNearest ls v k)
    | .trunc =>
      let between := ls.filter (fun x => if neg then decide (v ≤ x.2 * 2 ^ k) && decide (x.2 ≤ 0)
        else decide (x.2 * 2 ^ k ≤ v) && decide (0 ≤ x.2))
      let same := ls.filter (fun x => if neg then decide (x.2 < 0) else decide (0 < x.2))
      match minBy (fun x => (x.2 * 2 ^ k - v).natAbs) between with
      | some c => out c
      | none => out ((minBy (fun x => x.2.natAbs) same).getD (bookZero ls))
    | .stoch u =>
      let below := (minBy (fun x => (v - x.2 * 2 ^ k).natAbs) (ls.filter (fun x => decide (x.2 * 2 ^ k ≤ v)))).getD lo
      let above := (minBy (fun x => (v - x.2 * 2 ^ k).natAbs) (ls.filter (fun x => decide (v ≤ x.2 * 2 ^ k)))).getD hi
      let d := if above.2 = below.2 then 0
        else ((v - below.2 * 2 ^ k) * 65536 / ((above.2 - below.2) * 2 ^ k)).toNat
      if u < d then out above else out below

/-- Convert a value into a format under CONV_MODE and a rounding (Table 3-9, Table 3-11). `clamp`: a finite value is never
out of a codebook's range (R323). -/
def convert (f : Nat) (book : List Nat) (mode : Nat) (r : Rnd) (v : FVal) (sticky : Bool := false)
    (clamp : Bool := false) : Conv :=
  match v with
  | .nan =>
    if fmtFloat f then ⟨(fmtOf f).nanBits, 1, false⟩
    else if f < 4 then ⟨0, 1, false⟩ else ⟨(bookZero (bookLevels f book)).1, 1, false⟩
  | .inf neg =>
    if sticky then
      (if fmtFloat f then convFloat (fmtOf f) mode r neg 1 0 true
       else if f < 4 then convInt f mode r neg 1 0 true else convBook f book r 0 0 true neg clamp)
    else if f = 6 then ⟨if mode = 1 then e4m3.nanBits else b2n neg * 128 + e4m3.maxBits, 1, false⟩
    else if fmtFloat f then ⟨b2n neg * 2 ^ (fmtOf f).signAt + (fmtOf f).top, 1, false⟩
    else if f < 4 then ⟨intCode f (if neg then (intRange f).1 else (intRange f).2), 1, false⟩
    else ⟨(bookEdge (bookLevels f book) neg).1, 1, false⟩
  | .fin neg m e =>
    if fmtFloat f then convFloat (fmtOf f) mode r neg m e sticky
    else if f < 4 then convInt f mode r neg m e sticky
    else
      let k := if e < 0 then (-e).toNat else 0
      convBook f book r (smant neg m * 2 ^ (e + k).toNat) k sticky neg clamp

/-- CONV_MODE of a conversion control (R128). -/
def convMode (c : Nat) : Nat := c % 4
/-- ROUND of a conversion control. -/
def convRound (c : Nat) : Nat := bitsN c 3 2
/-- The rounding of a conversion control with a draw `u`. -/
def convRnd (c u : Nat) : Rnd :=
  if convRound c = 1 then .trunc else if convRound c = 2 then .stoch u else .rne

/-- The FP32 value of what a conversion wrote (R144). -/
def convBack (f : Nat) (book : List Nat) (scale code : Nat) : Nat := elemF32 f book scale code

/-! ## BS16 (R107 to R110) -/

/-- Exponent X of a chunk of FP32 values (R109). -/
def bs16Exp (vs : List Nat) : Nat :=
  let es := vs.filterMap (fun v => (f32.dec v).log2)
  match es with
  | [] => 0
  | e :: t => (min 255 (max 0 (t.foldl max e + 128))).toNat

/-- Element m of a value under exponent X. -/
def bs16Elem (x v : Nat) : Int :=
  match f32.dec v with
  | .fin neg m e => max (-32767) (min 32767 (smant neg (roundAt .rne m (e + 142 - (x : Int)) 0)))
  | _ => 0

/-- The FP32 pattern of an element (R110); exact. -/
def bs16Val (x : Nat) (m : Int) : Nat := f32.enc (.fin (decide (m < 0)) m.natAbs ((x : Int) - 142))

/-! ## Alignment (R118 to R120) -/

/-- Slices of an operand format (Table 2-5). -/
def slicesOf (f : Nat) : Nat := if f = 8 || f = 9 then 2 else if f = 10 then 3 else 1

/-- Shared exponent of a segment: the largest floor(log2 |v|) of its finite non-zero values. -/
def sharedExp (vs : List FVal) : Option Int :=
  (vs.filterMap FVal.log2).foldl (fun acc e => match acc with
    | none => some e
    | some a => some (max a e)) none

/-- Aligned integer A of a value under a shared exponent, for W bits, and whether it was clamped (R119). -/
def alignElem (w : Nat) (ea : Int) (v : FVal) : Int × Bool :=
  match v with
  | .fin neg m e =>
    let a := smant neg (roundAt .rne m (e + (w : Int) - 2 - ea) 0)
    if a = 2 ^ (w - 1) then (2 ^ (w - 1) - 1, true) else (a, false)
  | _ => (0, false)

/-! ## Draws (R315) -/

/-- The 128-bit block of a draw, as four words. -/
def drawBlock (rkey rstep stream die mb tensor r c8 : Nat) : List Nat :=
  let m := 2 ^ 32
  let rec go : Nat → Nat → Nat → Nat → Nat → Nat → Nat → List Nat
    | 0, w0, w1, w2, w3, _, _ => [w0, w1, w2, w3]
    | n + 1, w0, w1, w2, w3, k0, k1 =>
      let p := 0xB5C18E63 * w0
      let q := 0xE3A95D27 * w2
      go n ((q / m) ^^^ w1 ^^^ k0) (q % m) ((p / m) ^^^ w3 ^^^ k1) (p % m) ((k0 + 0x7F4A7C15) % m) ((k1 + 0x4C957F2D) % m)
  go 10 (c8 % m) (r % m) (tensor % m) ((stream + 256 * die + 1024 * (mb % 4194304)) % m)
    ((rkey % m) ^^^ (rstep % m)) ((rkey / m % m) ^^^ (rstep / m % m))

/-- The 16-bit draw of element (r, c). -/
def draw16 (rkey rstep stream die mb tensor r c : Nat) : Nat :=
  let b := drawBlock rkey rstep stream die mb tensor r (c / 8)
  b.getD (c % 8 / 2) 0 / 2 ^ (16 * (c % 2)) % 65536

end Sys2Proof.Machine
end

