-- ==== Sys2Proof/Machine/Steward.lean ====
section
/-!
DEFINITION. The steward (R141 to R177): policies, the merge of tallies, and the decisions taken at a step boundary.
-/
namespace Sys2Proof.Machine

/-! ## Policies (Tables 4-6 and 4-7) -/

/-- A policy rule. Thresholds are FP32 patterns. -/
structure Rule where
  first   : Nat
  last    : Nat
  mask    : Nat
  control : Nat
  zlimit  : Nat
  satUp   : Nat
  nonUp   : Nat
  mseUp   : Nat
  satDown : Nat
  mseDown : Nat
  steps   : Nat
  dwell   : Nat
  xUp     : Nat
  xSteps  : Nat
  xMargin : Nat
deriving DecidableEq, Repr

/-- Rule k of a policy; a ZRUN_LIMIT of 0 means 100. -/
def polRule (p : List Byte) (k : Nat) : Rule :=
  let r := (p.drop (64 + 64 * k)).take 64
  let z := leAt r 6 2
  ⟨leAt r 0 2, leAt r 2 2, leAt r 4 1 % 16, leAt r 5 1, if z = 0 then 100 else z, leAt r 8 4, leAt r 12 4, leAt r 16 4,
   leAt r 20 4, leAt r 24 4, leAt r 28 2, leAt r 30 2, leAt r 32 4, leAt r 36 2, leAt r 38 1⟩

/-- The policy in force of a job; a job that has never loaded one runs with every flag 0 and no ring (R174). -/
def Job.pol (j : Job) : List Byte := j.policy.getD (putAt (zeros 64) 4 [6])
/-- FLAGS bit of a policy. -/
def polFlag (p : List Byte) (b : Nat) : Bool := bitN (leAt p 1 1) b
/-- RULE_COUNT. -/
def polRules (p : List Byte) : Nat := leAt p 2 2
/-- LS_INIT, LS_MIN, LS_MAX. -/
def polLs (p : List Byte) (k : Nat) : Int := signed8 (leAt p (6 + k) 1)

/-- The loss-scale exponent in force, within the policy's LS_MIN and LS_MAX; LS_INIT while LS_EN = 0 (R164). -/
def Job.lsNow (j : Job) : Int :=
  if polFlag j.pol 1 then max (polLs j.pol 1) (min (polLs j.pol 2) (j.ls.getD (polLs j.pol 0))) else polLs j.pol 0

/-- The rule that governs a layer: the first enabled one that covers it (R172). -/
def polGoverns (p : List Byte) (layer : Nat) : Option Rule :=
  ((List.range (polRules p)).map (polRule p)).find? (fun r =>
    bitN r.control 0 && decide (r.first ≤ layer) && decide (layer ≤ r.last))

/-- Is an FP32 threshold negative or NaN? -/
def thrBad (w : Nat) : Bool :=
  match f32.dec w with
  | .nan => true
  | .inf n => n
  | .fin n m _ => n && m != 0

/-- Member of a tensor or layer entry: what the group owns is member 0's (R234). -/
def ownerOf (member : Nat) : Nat := if member = 0xFF then 0 else member % 4

/-- Tallied tensors of member m. -/
def tallied (pl : Mem) (m : Nat) : List Nat :=
  (List.range (planTensors pl)).filter (fun k => (planTensor pl k).tally && (planTensor pl k).owner == m)

/-- The first policy rejection of Table 4-8 that holds (R173). `pl` is the plan that the job runs and the job's member number in
it, if known. -/
def polReject (p : List Byte) (len : Nat) (pl : Option (Mem × Nat)) : Option Nat :=
  let n := polRules p
  let rules := (List.range n).map (polRule p)
  let raw := fun k => (p.drop (64 + 64 * k)).take 64
  let all := match pl with
    | some m => (List.range (planLayers m.1)).map (planLayer m.1)
    | none => []
  let layers := all.filter (fun l => (pl.map Prod.snd).any (fun m => ownerOf l.member == m))
  let t := match pl with
    | some m => (tallied m.1 m.2).length
    | none => 0
  let depth := leAt p 5 1
  let base := leAt p 16 8
  let ring := depth * (64 + 128 * t)
  if leAt p 0 1 ≠ 1 || leAt p 1 1 / 8 != 0 || leAt p 12 4 != 0 || leAt p 32 32 != 0
      || (List.range ((len - 64) / 64)).any (fun k => leAt (raw k) 4 1 / 16 != 0 || leAt (raw k) 5 1 / 16 != 0
          || leAt (raw k) 39 25 != 0) then some 0x1081
  else if n ≠ (len - 64) / 64 || decide (10 < leAt p 4 1) || decide (16 < depth) || leAt p 9 1 == 0
      || decide (8 < leAt p 9 1) || leAt p 10 2 == 0 || decide (polLs p 2 < polLs p 1)
      || decide (polLs p 0 < polLs p 1) || decide (polLs p 2 < polLs p 0)
      || rules.any (fun r => decide (r.last < r.first) || r.steps == 0 || r.xSteps == 0 || decide (16 < r.xMargin)
          || [r.satUp, r.nonUp, r.mseUp, r.satDown, r.mseDown, r.xUp].any thrBad
          || (pl.isSome && !all.any (fun l => decide (r.last ≤ l.id)))) then some 0x1082
  else if layers.any (fun l => match polGoverns p l.id with
      | some r => (r.mask &&& l.present) == 0
      | none => false) then some 0x1083
  else if depth != 0 && (base % 128 != 0 || decide (leAt p 24 8 < ring) || !laRange base ring) then some 0x1084
  else none

/-! ## Merging (R147) -/

/-- Counts are 48-bit and saturate (R146). -/
def cap48 (n : Nat) : Nat := min n (2 ^ 48 - 1)

/-- The sum of two partial tallies, in order. -/
def Tally.add (a b : Tally) : Tally :=
  ⟨cap48 (a.elements + b.elements), cap48 (a.zero + b.zero), cap48 (a.sat + b.sat), cap48 (a.nonfin + b.nonfin),
   f64.add a.sse b.sse, f64.add a.sss b.sss, cap48 (a.sampled + b.sampled), max a.maxExp b.maxExp, a.tiles + b.tiles,
   a.recomp + b.recomp, a.poison || b.poison⟩

/-- Key of a partial tally in its core: lead slot and tensor index. -/
def tallyKey (slot k : Nat) : Nat := slot * 65536 + k

/-- Merge the partials of tensor k over the cores that serve the job: dies ascending, logical indexes ascending; a die
that has failed or left the set contributes none (R147, R149). -/
def State.mergeTally (s : State) (run : Run) (lead k : Nat) : Tally :=
  (sortBy id run.map).foldl (fun acc d =>
    if bitN run.failed d then acc else
    (List.range 96).foldl (fun acc l =>
      match Tab.find (s.core d (s.phys d l)).tallies (tallyKey lead k) with
      | some t => acc.add t
      | none => acc) acc) {}

/-! ## Decisions (R155 to R170) -/

/-- Steering state of layer k (index in the layer table). -/
def Job.layer (j : Job) (k : Nat) : LayerSt := Tab.getD j.layers k {}
/-- Steering state of tensor k. -/
def Job.tensor (j : Job) (k : Nat) : TensorSt := Tab.getD j.tensors k {}
/-- Current variant of layer entry l at index k. -/
def Job.variant (j : Job) (l : Layer) (k : Nat) : Nat := (j.layer k).variant.getD l.dflt
/-- Output scale exponent of tensor entry t at index k. -/
def Job.xOut (j : Job) (t : Tensor) (k : Nat) : Int := (j.tensor k).xOut.getD t.xOut

/-- Variants above `v` that are in `ok`, ascending. -/
def widerOf (ok v : Nat) : Option Nat := ([0, 1, 2, 3].filter (fun x => decide (v < x) && bitN ok x)).head?
/-- Variants below `v` that are in `ok`, the highest first. -/
def narrowerOf (ok v : Nat) : Option Nat := ([3, 2, 1, 0].filter (fun x => decide (x < v) && bitN ok x)).head?
/-- The nearest variant in `ok`, the wider of two equally near (R160). -/
def nearestOf (ok v : Nat) : Option Nat :=
  minBy (fun x => 2 * (max x v - min x v) + b2n (decide (x < v))) ([0, 1, 2, 3].filter (fun x => bitN ok x))

/-- An FP64 quotient of two counts. -/
def share (a b : Nat) : Nat := f64.div (f64.ofInt a) (f64.ofInt b)
/-- SSE / SSS, 0 where SSS is 0. -/
def relErr (t : Tally) : Nat := if t.sss % 2 ^ 63 = 0 then 0 else f64.div t.sse t.sss
/-- Is an FP64 share strictly above an FP32 threshold (R171)? -/
def above (x thr : Nat) : Bool := (f32.dec thr).lt (f64.dec x)
/-- At or below. -/
def atMost (x thr : Nat) : Bool := (f64.dec x).le (f32.dec thr)

/-- The greatest of a list of FP64 values. -/
def maxF64 (l : List Nat) : Nat := l.foldl (fun a b => if (f64.dec a).lt (f64.dec b) then b else a) 0

/-- A decision on one layer: the new state, and the cause of a variant change (0 threshold, 1 underflow, 2 mask move). -/
structure LayerStep where
  st    : LayerSt
  cause : Option Nat
deriving DecidableEq, Repr

/-- R158 to R160 for one layer. `steer` are the merged tallies of its STEER tensors; `uf`: an armed underflow watch's action for the
layer is to widen, whether or not a wider variant exists. A layer none of whose STEER tensors was written stays as it is. -/
def layerStep (l : Layer) (st : LayerSt) (r : Option Rule) (enabled : Bool) (steer : List Tally) (uf : Bool) :
    LayerStep :=
  let v := st.variant.getD l.dflt
  let still : LayerStep := ⟨{ st with fresh := false }, none⟩
  let move := fun (w cause : Nat) =>
    (⟨{ variant := some w, dwell := 0, quiet := 0, fresh := true }, some cause⟩ : LayerStep)
  match r with
  | none => still
  | some r =>
    if !enabled then still else
    let ok := r.mask &&& l.present
    if !bitN ok v then
      match nearestOf ok v with
      | some w => move w 2
      | none => still
    else
      let act := steer.filter (fun t => t.elements != 0)
      if act.isEmpty then still else
      let dwell := min (st.dwell + 1) 65535
      let sat := maxF64 (act.map (fun t => share t.sat t.elements))
      let non := maxF64 (act.map (fun t => share t.nonfin t.elements))
      let err := maxF64 (act.map relErr)
      let up := above sat r.satUp || above non r.nonUp || above err r.mseUp
      let calm := atMost sat r.satDown && atMost err r.mseDown
      let quiet := if uf then st.quiet else if up then 0 else if calm then min (st.quiet + 1) 65535 else 0
      let widen := uf || (up && decide (r.dwell ≤ dwell))
      let narrow := !uf && !up && calm && decide (r.steps ≤ quiet) && decide (r.dwell ≤ dwell)
      match (if widen then widerOf ok v else none), (if narrow then narrowerOf ok v else none) with
      | some w, _ => move w (b2n uf)
      | none, some w => move w 0
      | none, none => ⟨{ st with dwell := dwell, quiet := quiet, fresh := false }, none⟩

/-- TOP of R162 for a target format; `levels` are the lowest and highest level of a codebook target. -/
def topOf (fmt : Nat) (levels : Int × Int) : Int :=
  let lg := fun (n : Nat) => if n = 0 then (-128 : Int) else (n.log2 : Int)
  if fmt = 0 then 2 else if fmt = 1 then 3 else if fmt = 2 then 6 else if fmt = 3 then 7
  else if fmt = 4 || fmt = 5 then
    let lo := levels.1
    let hi := levels.2
    if decide (lo < 0) && decide (0 < hi) then lg (min lo.natAbs hi.natAbs) else lg (max lo.natAbs hi.natAbs)
  else if fmt = 6 then 8 else if fmt = 7 || fmt = 9 then 15 else 127

/-- R162 for one tensor: new X_out and quiet count. -/
def xoutStep (t : Tensor) (x : Int) (quiet : Nat) (r : Rule) (m : Tally) (top : Int) : Int × Nat :=
  if m.tiles != 0 && above (share m.recomp m.tiles) r.xUp then (max (-128) (min 127 (x + t.xStep)), 0)
  else if m.recomp = 0 && decide (m.maxExp ≤ top - (r.xMargin : Int)) then
    if r.xSteps ≤ quiet + 1 then (max (-128) (x - 1), 0) else (x, quiet + 1)
  else (x, 0)

/-- What a steward run decides for one member. -/
structure Decision where
  layers  : Tab LayerSt
  tensors : Tab TensorSt
  ls      : Option Int
  clean   : Nat
  /-- (layer entry, old, new, cause) of each variant change. -/
  moves   : List (Nat × Nat × Nat × Nat)
  /-- (old, new, cause) of a loss-scale change. -/
  lsMove  : Option (Int × Int × Nat)
  /-- (tensor entry, old, new) of each X_out change. -/
  xMoves  : List (Nat × Int × Int)
  /-- (tensor entry, ZRUN, action, applied) of each underflow event. -/
  under   : List (Nat × Nat × Nat × Bool)
deriving DecidableEq, Repr

/-- Codebook levels that a tensor's outputs go to: the slot its first deckle of section 0 names, in that deckle's core. -/
def State.cbRange (s : State) (pl : Mem) (run : Run) (id : Nat) : Int × Int :=
  let sec := planSection pl run.sect
  match (List.range sec.deckles).find? (fun i => (planDeckle pl sec i).tensor == id) with
  | none => (0, 0)
  | some i =>
    let dk := planDeckle pl sec i
    let b := planBuffer pl sec dk.buf
    let d := run.map.getD b.die 0
    let all := (Tab.getD (s.core d (s.phys d b.core)).books dk.cb []).map signed8
    let used := if dk.format = 4 then all.take 16 else all
    (used.foldl min 127, used.foldl max (-128))

/-- The steward's decisions for member m (job `j`) from the merged tallies (R155 to R170). -/
def State.steer (s : State) (pl : Mem) (run : Run) (j : Job) (m : Nat) (tall : Nat → Tally) : Decision :=
  let p := j.pol
  let en := polFlag p 0
  let lsEn := polFlag p 1
  let tens := tallied pl m
  let lays := (List.range (planLayers pl)).filter (fun k =>
    ownerOf (planLayer pl k).member == m)
  let ruleOf := fun (layer : Nat) => polGoverns p layer
  let layerIdx := fun (layer : Nat) => lays.find? (fun k => (planLayer pl k).id == layer)
  let maskMove := fun (k : Nat) => match ruleOf (planLayer pl k).id with
    | some r => en && !bitN (r.mask &&& (planLayer pl k).present) (j.variant (planLayer pl k) k)
    | none => false
  let wider := fun (layer : Nat) => match layerIdx layer, ruleOf layer with
    | some k, some r => en && (widerOf (r.mask &&& (planLayer pl k).present) (j.variant (planLayer pl k) k)).isSome
    | _, _ => false
  -- a layer moves when one of its STEER tensors was written, no mask move takes it, and there is a wider variant
  let canWiden := fun (layer : Nat) => wider layer && (layerIdx layer).any (fun k => !maskMove k)
    && tens.any (fun x => (planTensor pl x).layer == layer && bitN (planTensor pl x).kind 1 && (tall x).elements != 0)
  -- the underflow watch
  let zr := fun (k : Nat) =>
    let t := tall k
    let z := (j.tensor k).zrun
    if bitN (planTensor pl k).kind 0 || t.elements = 0 then z
    else if t.zero = t.elements then min 65535 (z + 1) else 0
  let limit := fun (k : Nat) => match ruleOf (planTensor pl k).layer with | some r => r.zlimit | none => 100
  let action := fun (k : Nat) => match ruleOf (planTensor pl k).layer with
    | some r => bitsN r.control 3 2 | none => 0
  let armed := fun (k : Nat) => !bitN (planTensor pl k).kind 0 && decide (limit k ≤ zr k)
  let grad := fun (k : Nat) => bitN (planTensor pl k).kind 2
  let ls0 := j.lsNow
  let badGrad := tens.any (fun k => grad k && (tall k).nonfin != 0)
  let asksW := fun (k : Nat) => armed k && (action k == 1 || (action k == 3 && wider (planTensor pl k).layer))
  let wantW := fun (k : Nat) => asksW k && canWiden (planTensor pl k).layer
  let wantL := fun (k : Nat) => armed k && (action k == 2 || (action k == 3 && !wider (planTensor pl k).layer))
    && grad k && lsEn && decide (ls0 < polLs p 2) && !badGrad
  -- loss scale
  let clean1 := if badGrad then 0 else j.clean + 1
  let grow := lsEn && !badGrad && decide (leAt p 10 2 ≤ clean1)
  let uflow := tens.any wantL
  let ls1 := if !lsEn then ls0
    else if badGrad then max (polLs p 1) (ls0 - (leAt p 9 1 : Int))
    else if grow || uflow then min (polLs p 2) (ls0 + 1) else ls0
  let cause := if badGrad then 0 else if uflow && !grow then 2 else 1
  -- layers
  let steps := lays.map (fun k =>
    let l := planLayer pl k
    let mine := tens.filter (fun x => (planTensor pl x).layer == l.id)
    let steer := (mine.filter (fun x => bitN (planTensor pl x).kind 1)).map tall
    (k, layerStep l (j.layer k) (ruleOf l.id) en steer (mine.any asksW)))
  -- tensors
  let tsteps := tens.map (fun k =>
    let t := planTensor pl k
    let st := j.tensor k
    let applied := wantW k || wantL k
    let z := if applied then 0 else zr k
    let x0 := j.xOut t k
    let xr := match ruleOf t.layer with
      | some r => if bitN r.control 1 && polFlag p 2 && bitN t.kind 3 then
          xoutStep t x0 st.quiet r (tall k) (topOf t.format (s.cbRange pl run t.id)) else (x0, st.quiet)
      | none => (x0, st.quiet)
    (k, x0, xr.1, armed k && !st.logged, applied,
      ({ xOut := if xr.1 = t.xOut then none else some xr.1, zrun := z,
         logged := z != 0 && (st.logged || armed k), quiet := xr.2 } : TensorSt)))
  { layers := steps.foldl (fun tb x => Tab.setD tb x.1 x.2.st {}) j.layers
    tensors := tsteps.foldl (fun tb x => Tab.setD tb x.1 x.2.2.2.2.2 {}) j.tensors
    ls := if lsEn then some ls1 else none
    clean := if lsEn then (if grow then 0 else clean1) else j.clean
    moves := steps.filterMap (fun x => x.2.cause.map (fun c =>
      (x.1, j.variant (planLayer pl x.1) x.1, x.2.st.variant.getD 0, c)))
    lsMove := if ls1 = ls0 then none else some (ls0, ls1, cause)
    xMoves := tsteps.filterMap (fun x => if x.2.1 = x.2.2.1 then none else some (x.1, x.2.1, x.2.2.1))
    under := tsteps.filterMap (fun x => if x.2.2.2.1 then some (x.1, zr x.1, action x.1, x.2.2.2.2.1) else none) }

/-- A signed number as its 64-bit two's complement. -/
def s64 (x : Int) : Nat := (x % 2 ^ 64).toNat
/-- A signed number as a byte. -/
def s8 (x : Int) : Nat := (x % 256).toNat

/-- A tally record (Table 4-3) of tensor k of a job in a step. -/
def tallyRecord (pl : Mem) (j : Job) (k zrun : Nat) (fired : Bool) (t : Tally) : List Byte :=
  let e := planTensor pl k
  let v := match (List.range (planLayers pl)).find? (fun i => (planLayer pl i).id == e.layer) with
    | some i => j.variant (planLayer pl i) i
    | none => 0
  bytesLE 4 e.id ++ bytesLE 2 e.layer ++ bytesLE 1 e.kind ++ bytesLE 1 e.format ++ bytesLE 8 t.elements
    ++ bytesLE 8 t.zero ++ bytesLE 8 t.sat ++ bytesLE 8 t.nonfin ++ bytesLE 8 t.sse ++ bytesLE 8 t.sss
    ++ bytesLE 8 t.sampled ++ bytesLE 4 (min t.tiles (2 ^ 32 - 1)) ++ bytesLE 4 (min t.recomp (2 ^ 32 - 1))
    ++ bytesLE 2 zrun ++ bytesLE 1 (s8 t.maxExp) ++ bytesLE 1 (s8 (j.xOut e k)) ++ bytesLE 1 v
    ++ bytesLE 1 (b2n t.poison + 2 * b2n fired) ++ zeros 50

/-- Events of a decision (R155, R167; Table 10-11). -/
def decisionEvents (pl : Mem) (d : Decision) (seq step : Nat) : List Event :=
  d.moves.map (fun m => { type := 2, seq := some seq, step := some step, a := (planLayer pl m.1).id, b := m.2.1,
                          c := m.2.2.1, d := m.2.2.2 })
  ++ (match d.lsMove with
      | some m => [{ type := 3, seq := some seq, step := some step, a := s64 m.1, b := s64 m.2.1, c := m.2.2 }]
      | none => [])
  ++ d.xMoves.map (fun m => { type := 4, seq := some seq, step := some step, tensor := some (planTensor pl m.1).id,
                              a := s64 m.2.1, b := s64 m.2.2 })
  ++ d.under.map (fun m => { type := 5, seq := some seq, step := some step, tensor := some (planTensor pl m.1).id,
                             a := m.2.1, b := m.2.2.1, c := b2n m.2.2.2 })

/-- The steward's work for member m of a run at its step boundary (R153 to R155): slot of the tally ring, new state,
events and the 0x0110 note. The run's outcomes decide whether it acts. -/
def State.stewardFor (s : State) (run : Run) (pl : Mem) (m : Nat) : State :=
  let lead := run.members.getD 0 0
  let slot := run.members.getD m 0
  let seq := run.seqs.getD m 0
  let j := s.job slot
  let ks := tallied pl m
  let tall := fun k => s.mergeTally run lead k
  let acts := statusMet (pickStatus ((run.outcomes.filter (fun o => o.1 == m)).map Prod.snd))
  let d := s.steer pl run j m tall
  let p := j.pol
  let depth := leAt p 5 1
  let moved := acts && (!d.moves.isEmpty || d.lsMove.isSome || !d.xMoves.isEmpty)
  let fired := fun k => acts && d.under.any (fun u => u.1 == k)
  let nextLs := if acts then (if polFlag p 1 then d.ls.getD (polLs p 0) else j.lsNow) else j.lsNow
  let recs := ks.flatMap (fun k => tallyRecord pl j k
    (if acts then (Tab.getD d.tensors k {}).zrun else (j.tensor k).zrun) (fired k) (tall k))
  let flags := b2n acts + 2 * b2n (acts && !d.moves.isEmpty) + 4 * b2n (acts && d.lsMove.isSome)
    + 8 * b2n (acts && !d.xMoves.isEmpty)
  let head := bytesLE 8 run.step ++ bytesLE 8 s.ts ++ bytesLE 2 ks.length ++ bytesLE 1 (if acts then 1 else 2)
    ++ bytesLE 1 flags ++ bytesLE 1 (s8 nextLs) ++ zeros 3 ++ zeros 40
  let s := if depth = 0 then s else
    s.larderWrite (leAt p 16 8 + run.step % depth * (64 + 128 * ks.length)) (head ++ recs) false
  let s := (s.bump 0 HUB_STW_CNT_RUNS_V).setFld 0 HUB_STW_STAT_JOB slot
  let s := s.setFld 0 HUB_STW_STAT_LAST_INCOMPLETE (b2n (!acts))
  if !acts then
    (s.modJob slot (fun x => { x with
      layers := x.layers.foldl (fun tb e => Tab.setD tb e.1 { e.2 with fresh := false } {}) x.layers })).bump 0
      HUB_STW_CNT_SKIPPED_V
  else
    let s := s.modJob slot (fun x => { x with
      layers := d.layers, tensors := d.tensors, ls := d.ls, clean := d.clean,
      merged := ks.foldl (fun tb k => Tab.setD tb k (tall k) {}) [] })
    let s := s.bump 0 HUB_STW_CNT_SWITCHES_V d.moves.length
    let s := s.bump 0 HUB_STW_CNT_ZRUN_V d.under.length
    let s := if d.lsMove.isSome then s.bump 0 HUB_STW_CNT_LS_V else s
    let s := s.forAll (decisionEvents pl d seq run.step) (fun s e => s.event slot e)
    if moved then s.outcome slot seq 0x0110 else s

/-- A policy that has waited for this boundary takes effect (R174). -/
def State.promotePolicy (s : State) (slot : Nat) : State :=
  s.modJob slot (fun x => if x.policyRipe then
    { x with policy := if x.policyNew.isSome then x.policyNew else x.policy, policyNew := none, policyRipe := false } else x)

/-- Is the watermark of a run that has ended still to run (R362, R381, R392, R431)? -/
def State.wmPending (s : State) (lead : Nat) (r : Run) : Bool :=
  let p := if s.fld 0 HUB_WM_CTRL_PERIOD lead = 0 then 16 else s.fld 0 HUB_WM_CTRL_PERIOD lead
  !r.wmDone && !r.stopping && s.bit 0 HUB_WM_CTRL_EN lead && decide (2 ≤ popcountN 4 (s.fld 0 HUB_FLT_JOB_SET lead))
    && (r.step % p == p - 1 || (s.job lead).wmDue)

/-- Forget the partial tallies and waiting measurement pairs of a lead's step in every core (R147, R149). -/
def State.dropTallies (s : State) (lead : Nat) : State :=
  let drop := fun (c : Core) => ({ c with
    tallies := c.tallies.filter (fun t => t.1 / 65536 != lead), measure := c.measure.filter (fun p => p.key / 65536 != lead) } : Core)
  s.forAll s.cores (fun s c => { s with cores := Tab.setD s.cores c.1 (drop c.2) {} })

/-- Jobs whose steward is due and may run, in the order in which their boundaries arrived, ascending in the slot where they
arrived together (R154): arrival and lead slot. -/
def State.stewardDue (s : State) : List (Nat × Nat) :=
  sortBy (fun x => x.1 * 64 + x.2) (s.jobs.filterMap (fun e => match e.2.run with
    | some r => if r.ended && !r.stewDone && !s.wmPending e.1 r && !s.bit 0 HUB_FLT_JOB_ROLLING e.1 then some (r.endTs, e.1) else none
    | none => none))

/-- HUB_STW_STAT as the runs that are due leave it (Table 4-9): a run that is due is in progress until it is done. -/
def State.showSteward (s : State) : State :=
  let s := match s.stewardDue with
    | x :: _ => (s.setFld 0 HUB_STW_STAT_BUSY 1).setFld 0 HUB_STW_STAT_JOB x.2
    | [] => s.setFld 0 HUB_STW_STAT_BUSY 0
  s.setFld 0 HUB_STW_STAT_POLICY_PENDING (b2n (s.job (s.fld 0 HUB_STW_STAT_JOB)).policyNew.isSome)

/-- The steward's run for every member of a lead's step, in ascending slot (R154, R234). A policy that waited for this boundary is
in force in it; one that was loaded during it waits for the next (R174). The partials are consumed. -/
def State.stewardAll (s : State) (lead : Nat) : State :=
  match (s.job lead).run, (s.job lead).binding with
  | some run, some b =>
    let ms := sortBy (fun m => run.members.getD m 0) (List.range run.members.length)
    let s := s.forAll run.members State.promotePolicy
    let s := s.forAll ms (fun s m => s.stewardFor run b.plan m)
    let s := s.forAll run.members (fun s x => s.modJob x (fun y => { y with policyRipe := y.policyNew.isSome }))
    ((s.dropTallies lead).modJob lead (fun x => { x with run := x.run.map (fun r => { r with stewDone := true }) })).showSteward
  | _, _ => s

/-- The plan whose layers and tensors a job's policy is judged by, and the job's member number in it: its own binding's, or that
of the run it takes part in. -/
def State.policyPlan (s : State) (j : Nat) : Option (Mem × Nat) :=
  match (s.job j).binding with
  | some b => some (s.planOf b, 0)
  | none => s.jobs.findSome? (fun e => match e.2.run, e.2.binding with
    | some r, some b => if r.members.contains j then some (b.plan, r.members.findIdx (fun x => x == j)) else none
    | _, _ => none)

/-- POLICY_LOAD (0x0005): the table takes effect at once, or at the next boundary while the job's steward is at work at the
present one (R173, R174). -/
def execPolicyLoad (j : Slot) (s : State) : Host.Outcome State Fault Refusal :=
  .next (s.start j (fun c => c.op == 0x0005) (fun s c =>
    let p := c.param.getD []
    match polReject p c.paramLen (s.policyPlan j) with
    | some st => s.refuse j c.seq st
    | none =>
      let busy := s.stewardDue.any (fun x => (s.job x.2).run.any (fun r => r.members.contains j))
      let s := if busy then s.modJob j (fun x => { x with policyNew := some p, policyRipe := false })
        else s.modJob j (fun x => { x with policy := some p, policyNew := none, policyRipe := false })
      (s.showSteward.modCmd j c.seq (fun c => { c with parts := 16 })).finish j c.seq))

end Sys2Proof.Machine
end

