-- ==== Sys2Proof/Machine/Tile.lean ====
section
/-!
DEFINITION. Deckles at work: where a deckle's elements stand, how a unit reads and writes them at the deckle edge (R183 to
R194), and the tallies of what is written (R142 to R146).
-/
namespace Sys2Proof.Machine

/-- What an instruction runs under: lead slot, run, binding, section, physical die, plan die, logical and physical core. -/
structure Ctx where
  lead : Nat
  run  : Run
  bind : Binding
  sec  : Section
  die  : Nat
  pd   : Nat
  log  : Nat
  phys : Nat
deriving DecidableEq, Repr

/-- The plan image. -/
def Ctx.pl (c : Ctx) : Mem := c.bind.plan

/-- The context of logical core L (or of the die queue) of physical die d in job j's run, if the job runs there. -/
def State.ctx (s : State) (j d l : Nat) : Option Ctx :=
  match (s.job j).run, (s.job j).binding with
  | some r, some b =>
    if !r.map.contains d then none else
    some ⟨j, r, b, planSection b.plan r.sect, d, r.map.findIdx (fun x => x == d), l, if l < 96 then s.phys d l else 0⟩
  | _, _ => none

/-- Block sizes of the section's state tensors (R325). -/
def Ctx.states (c : Ctx) : Tab Nat :=
  (c.bind.states.filter (fun x => x.1 / 2 ^ 32 == c.run.sect)).map (fun x => (x.1 % 2 ^ 32, x.2))

/-- Block size of a deckle's tensor where that is an optimizer's state; else 0. -/
def Ctx.stateOf (c : Ctx) (k : Nat) : Nat := Tab.getD c.states (planDeckle c.pl c.sec k).tensor 0

/-- A deckle and where it stands: its region, and the key of address 0 of its buffer's space. -/
structure TileAt where
  dk    : Deckle
  place : Place
  base  : Nat

/-- Deckle k of the section, on the physical dies of the run; `block` where it is an optimizer's state. -/
def State.tile (s : State) (c : Ctx) (k : Nat) (block : Nat := 0) : TileAt :=
  let dk := { planDeckle c.pl c.sec k with block := block }
  let b := planBuffer c.pl c.sec dk.buf
  let d := c.run.map.getD b.die 0
  let r := dk.region
  if b.tier = 0 then ⟨dk, ⟨0, d, s.phys d b.core, r.1, r.2⟩, shelfKey d (s.phys d b.core) 0⟩
  else if b.tier = 1 then ⟨dk, ⟨1, d, 0, r.1, r.2⟩, storeKey d 0⟩
  else
    let off := (if b.tier = 2 then c.bind.ldrBase.getD d 0 else c.bind.atcBase) + b.base
    ⟨dk, ⟨b.tier, d, 0, off + r.1, r.2⟩, off⟩

/-- The region of a whole buffer. -/
def State.bufPlace (s : State) (c : Ctx) (k : Nat) : Place :=
  let b := planBuffer c.pl c.sec k
  let d := c.run.map.getD b.die 0
  if b.tier = 0 then ⟨0, d, s.phys d b.core, b.base, b.size⟩
  else if b.tier = 1 then ⟨1, d, 0, b.base, b.size⟩
  else ⟨b.tier, d, 0, (if b.tier = 2 then c.bind.ldrBase.getD d 0 else c.bind.atcBase) + b.base, b.size⟩

/-! ## Elements -/

/-- Is tile element (i, j) within the logical extent (R186)? -/
def Deckle.inside (k : Deckle) (rtl : Tab Nat) (i j : Nat) : Bool :=
  decide (k.orgR + i < k.effR rtl) && decide (k.orgC + j < k.effC rtl)

/-- Raw bits of tile element (i, j). -/
def TileAt.raw (t : TileAt) (m : Mem) (i j : Nat) : Nat :=
  let (o, up) := t.dk.elemAt i j
  if fmtBits t.dk.format = 4 then
    let b := (m.read1 (t.base + o)).toNat
    if up then b / 16 else b % 16
  else m.readN (t.base + o) (fmtBits t.dk.format / 8)

/-- Does poison reach tile element (i, j): is a granule that holds a part of it poisoned? -/
def TileAt.pois (t : TileAt) (m : Mem) (i j : Nat) : Bool := (t.dk.partsAt i j).any (fun a => m.poisoned (t.base + a))

/-- Merge granule numbers into runs: first and count. A number that lies in the run before it is not counted again. -/
def runsOf (gs : List Nat) : List (Nat × Nat) :=
  (gs.foldl (fun acc g => match acc with
    | (a, n) :: t => if a ≤ g && g < a + n then acc else if g = a + n then (a, n + 1) :: t else (g, 1) :: acc
    | [] => [(g, 1)]) []).reverse

/-- The granules that hold some elements of a tile, as ranges: what an access to them under enables presents (R193). -/
def TileAt.granules (t : TileAt) (es : List (Nat × Nat)) : List Place :=
  let fields := if t.dk.block = 0 then 1 else (stateFields t.dk.block).length
  ((List.range fields).flatMap (fun f => runsOf (es.map (fun e => (t.dk.partsAt e.1 e.2).getD f 0 / 64)))).map (fun r =>
    { t.place with addr := t.place.addr - t.dk.sa + 64 * r.1, len := 64 * r.2 })

/-- An element to be written. -/
structure Out where
  i      : Nat
  j      : Nat
  raw    : Nat
  poison : Bool
deriving DecidableEq, Repr

/-- Write one element's bits. -/
def TileAt.put (t : TileAt) (m : Mem) (o : Out) : Mem :=
  let (a, up) := t.dk.elemAt o.i o.j
  if fmtBits t.dk.format = 4 then
    let b := (m.read1 (t.base + a)).toNat
    m.write (t.base + a) (bytesLE 1 (if up then b % 16 + o.raw % 16 * 16 else b / 16 * 16 + o.raw % 16))
  else m.write (t.base + a) (bytesLE (fmtBits t.dk.format / 8) o.raw)

/-- Logical elements of a tile, row by row. -/
def Deckle.elems (k : Deckle) (rtl : Tab Nat) : List (Nat × Nat) :=
  (List.range (k.rowsIn rtl)).flatMap (fun i => (List.range (k.colsIn rtl)).map (fun j => (i, j)))

/-- Write elements of a tile under their enables (R193): a granule all of whose logical elements are written takes the poison
of what is written into it; in another, poison that stands stays beside it. -/
def TileAt.putAll (t : TileAt) (rtl : Tab Nat) (os : List Out) (m : Mem) : Mem :=
  let gran := fun (i j : Nat) => (t.base + (t.dk.elemAt i j).1) / 64
  let es := t.dk.elems rtl
  let whole := fun (g : Nat) => es.length == os.length
    || (es.filter (fun e => gran e.1 e.2 == g)).length == (os.filter (fun o => gran o.i o.j == g)).length
  let m := os.foldl t.put m
  let m := os.foldl (fun m o => if whole (gran o.i o.j) then m.setPoison (gran o.i o.j * 64) 64 false else m) m
  (os.filter (fun o => o.poison)).foldl (fun m o => m.setPoison (gran o.i o.j * 64) 64 true) m

/-- A unit writes elements of a tile: only granules that hold one of them are accessed (R193). -/
def State.putElems (s : State) (c : Ctx) (unit : Nat) (t : TileAt) (os : List Out) : State :=
  s.updateIn unit (some c.lead) t.place.tier (t.granules (os.map (fun o => (o.i, o.j)))) (t.putAll c.run.rtl os)
    (fun k => os.any (fun o => (t.base + (t.dk.elemAt o.i o.j).1) / 8 == k / 8))

/-- Codebook of a core's slot. -/
def State.book (s : State) (d p cb : Nat) : List Nat := Tab.getD (s.core d p).books cb []

/-! ## Tallies -/

/-- Slot of the member that owns a tensor index. -/
def Ctx.ownerSlot (c : Ctx) (k : Nat) : Nat := c.run.members.getD (planTensor c.pl k).owner c.lead

/-- Is tensor entry k a WRITE tally point? (KIND bit 0 marks an ENTRY point.) -/
def Ctx.writePoint (c : Ctx) (k : Nat) : Bool := (planTensor c.pl k).tally && !bitN (planTensor c.pl k).kind 0

/-- Change a core's partial tally of tensor entry k. -/
def State.modTally (s : State) (c : Ctx) (k : Nat) (f : Tally → Tally) : State :=
  s.modCore c.die c.phys (fun x => { x with
    tallies := Tab.put x.tallies (tallyKey c.lead k) (f (Tab.getD x.tallies (tallyKey c.lead k) {})) })

/-- One written element for the tally: its event, floor(log2) of its magnitude before conversion where it is finite and not zero,
and whether it is poisoned. -/
structure Mark where
  event  : Nat
  top    : Option Int
  poison : Bool
deriving DecidableEq, Repr

/-- Add written elements to a partial tally (Table 4-1). -/
def Tally.mark (t : Tally) (ms : List Mark) : Tally :=
  let n := fun e => (ms.filter (fun m => m.event == e)).length
  let top := (ms.filterMap Mark.top).foldl max t.maxExp
  { t with elements := cap48 (t.elements + ms.length), zero := cap48 (t.zero + n 3), sat := cap48 (t.sat + n 2),
           nonfin := cap48 (t.nonfin + n 1), maxExp := max (-128) (min 127 top),
           poison := t.poison || ms.any Mark.poison }

/-- Is logical row m sampled in step k by the policy of a slot (R143)? -/
def State.sampled (s : State) (slot step m : Nat) : Bool := (m + step) % 2 ^ (leAt (s.job slot).pol 4 1) == 0

/-- Fold one (source, stored) pair of FP32 values into SSE and SSS (R144, R145). -/
def Tally.fold (t : Tally) (src stored : Nat) : Tally :=
  if f32.nonfinite src || f32.nonfinite stored then t else
  let a := f64.enc (f32.dec src)
  let b := f64.enc (f32.dec stored)
  let d := f64.sub b a
  { t with sse := f64.add t.sse (f64.mul d d), sss := f64.add t.sss (f64.mul a a), sampled := cap48 (t.sampled + 1) }

/-- Place of an instruction in the issue order of a core: phase and position. -/
def Ctx.orderOf (c : Ctx) (pos : Nat) : Nat := c.run.phase * 2 ^ 20 + pos

/-- Is a pair one that the measurement unit may fold: no MMA issued before its instruction is still at work (R312)? -/
def Core.mayFold (x : Core) (phase : Nat) (q : Pair) : Bool :=
  x.mmas.all (fun f => decide (q.order ≤ phase * 2 ^ 20 + f.idx))

/-- Fold the pairs that wait in a core's measurement queue, in order, as far as they may be folded (R312). -/
def State.foldPairs (s : State) (d p phase : Nat) : State :=
  let x := s.core d p
  let ps := x.measure.filter (x.mayFold phase)
  let s := s.modCore d p (fun x =>
    { x with measure := x.measure.filter (fun q => !x.mayFold phase q),
             tallies := ps.foldl (fun tb q => Tab.put tb q.key ((Tab.getD tb q.key {}).fold q.src q.stored)) x.tallies })
  s.bump (coreAt d p) VEC_CNT_MEASURED_V (ps.filter (fun q => !f32.nonfinite q.src && !f32.nonfinite q.stored)).length

/-- Queue pairs of a core behind those of the instructions that issued before theirs. -/
def State.pairs (s : State) (d p : Nat) (ps : List Pair) : State :=
  s.modCore d p (fun x => { x with measure := sortBy Pair.order (x.measure ++ ps) })

/-- An output drain queues its pairs (R312). Where the queue of 32,768 has no room, the drain stalls for the clocks in which the
unit folds as many pairs as are too many, 32 a clock (log entry 43). -/
def State.queuePairs (s : State) (d p phase : Nat) (ps : List Pair) : State :=
  let over_ := (s.core d p).measure.length + ps.length - 32768
  if over_ = 0 then s.pairs d p ps
  else ((s.foldPairs d p phase).bump (coreAt d p) VEC_CNT_MEASURE_STALL_V (ceilDiv over_ 32)).pairs d p ps

/-- A pair with the element that it measures. -/
structure PairAt where
  row  : Nat
  col  : Nat
  pair : Pair

/-- The pairs of one instruction in their order: logical row, then element (R145, R312). -/
def pairOrder (ps : List PairAt) : List Pair := (sortBy (fun p => p.row * 2 ^ 32 + p.col) ps).map PairAt.pair

/-! ## Draws -/

/-- A draw of the job for element (r, c) of a key tensor (R314, R315): the MB is that of the tensor's owner. -/
def State.draw (s : State) (c : Ctx) (stream tensor r col : Nat) : Nat :=
  let owner := match planTensorIdx c.pl tensor with
    | some k => (planTensor c.pl k).owner
    | none => 0
  draw16 (s.fld 0 HUB_JOB_STREAM_RKEY_V c.lead) (s.fld 0 HUB_JOB_STREAM_RSTEP_V c.lead) stream c.pd
    (c.run.mbs.getD owner 0) tensor r col

/-- Count the random blocks that draws for a list of elements take (R316): one for eight columns of a row. -/
def drawBlocks (k : Deckle) (es : List (Nat × Nat)) : Nat :=
  (es.filter (fun e => (k.orgC + e.2) % 8 == 0 || e.2 == 0)).length

end Sys2Proof.Machine
end

