-- ==== Sys2Proof/Machine/Sequencer.lean ====
section
/-!
DEFINITION. How a queue issues and completes (R225 to R231, R239 to R243): the conditions of issue, gating, tokens, the
transfers of the die queue, yield points and the end of a run's phases.
-/
namespace Sys2Proof.Machine

/-! ## Queues of a run -/

/-- First instruction index and count of a queue in the present phase. -/
def Ctx.sched (c : Ctx) (pd q : Nat) : Nat × Nat := planSched c.pl c.sec pd q c.run.phase

/-- Instruction at a position of a queue in the present phase. -/
def Ctx.ins (c : Ctx) (pd q pos : Nat) : PInstr := planInstr c.pl c.sec ((c.sched pd q).1 + pos)

/-- The next instruction of a queue, with its position. -/
def Ctx.next (c : Ctx) (q : Nat) : Option (Nat × PInstr) :=
  let pos := (c.run.queue c.pd q).pos
  if pos < (c.sched c.pd q).2 then some (pos, c.ins c.pd q pos) else none

/-- Queues that hold instructions in the present phase, on dies that have not failed: (plan die, queue). -/
def Ctx.live (c : Ctx) : List (Nat × Nat) :=
  (List.range c.run.map.length).flatMap (fun pd =>
    if bitN c.run.failed (c.run.map.getD pd 0) then [] else
    ((List.range 97).filter (fun q => (c.sched pd q).2 != 0)).map (fun q => (pd, q)))

/-- Replace the state of a queue. -/
def State.setQueue (s : State) (lead pd q : Nat) (v : QueueSt) : State :=
  s.modRun lead (fun r => { r with queues := Tab.setD r.queues (pd * 97 + q) v {} })

/-- Index of a layer in the layer table. -/
def layerIdx (pl : Mem) (id : Nat) : Option Nat :=
  (List.range (planLayers pl)).find? (fun k => (planLayer pl k).id == id)

/-- Is the instruction's gate closed (R230, R231)? -/
def State.gated (s : State) (c : Ctx) (i : PInstr) : Bool :=
  if !iFlag i 2 then false else
  match layerIdx c.pl (iVgLayer i) with
  | none => true
  | some k =>
    let l := planLayer c.pl k
    let slot := c.run.members.getD (if l.member = 0xFF then 0 else l.member) c.lead
    let j := s.job slot
    !bitN (iVgMask i) (j.variant l k)
      || (iFlag i 3 && !((j.layer k).fresh || j.firstStep || (s.job c.lead).firstStep))

/-- What the regions of an instruction take from the memory as it stands: KIND of a TBL's image, OFLAGS of an optimizer. -/
def State.regionFacts (s : State) (c : Ctx) (i : PInstr) : RegionFacts :=
  if iOp i = 0x03 then { kq8 := (s.shelf.read1 (shelfKey c.die c.phys (leAt i 13 3 % 2 ^ 23))).toNat == 2 }
  else if iOp i = 0x02 && vecState i 1 then
    { block := stateBlock (vecOp i) (match vecDeckle i 4 with
        | some k => let t := s.tile c k; ((s.tierMem t.place.tier).read1 (t.place.key + 28)).toNat
        | none => 0) }
  else { states := c.states }

/-- Regions that an instruction reads or writes. -/
def State.regions (s : State) (c : Ctx) (q : Nat) (i : PInstr) : List Region :=
  instrRegions c.pl c.sec c.pd (if q < 96 then q else 0xFFFF) i (s.regionFacts c i)

/-- Codebook slots that an instruction names (R106): that of a TBL, or those of its codebook deckles. -/
def Ctx.slots (c : Ctx) (i : PInstr) : List Nat :=
  if iOp i = 0x03 then [leAt i 12 1 % 8]
  else (instrDeckles i).filterMap (fun x =>
    let dk := planDeckle c.pl c.sec x.1
    if dk.format = 4 || dk.format = 5 then some dk.cb else none)

/-- Does a TBL wait for an earlier instruction in flight that names its slot (R106)? -/
def Ctx.tblWaits (c : Ctx) (q : Nat) (i : PInstr) : Bool :=
  iOp i == 0x03 && ((c.run.queue c.pd q).fly).any (fun f =>
    (c.slots i).any (fun x => (c.slots (c.ins c.pd q f.idx)).contains x))

/-- Does an earlier instruction in flight conflict with `i` (R225 condition 3, R106)? -/
def State.blocked (s : State) (c : Ctx) (q : Nat) (i : PInstr) : Bool :=
  c.tblWaits q i || ((c.run.queue c.pd q).fly).any (fun f =>
    (s.regions c q (c.ins c.pd q f.idx)).any (fun a => (s.regions c q i).any (fun b => a.conflicts b)))

/-- Have the ownership writes of the intervals that start at a position taken effect (R262)? -/
def Ctx.handedOver (c : Ctx) (q pos : Nat) : Bool :=
  ((List.range c.sec.intervals).map (planInterval c.pl c.sec)).all (fun iv =>
    if iv.die != c.pd || iv.phase != c.run.phase || iv.start != pos || (if iv.bank < 8 then iv.core != q else q != 96) then true
    else decide (boundaryOf c.run.phase pos ≤ Tab.getD c.run.handed iv.place 0))

/-- Does a logical core run, its heartbeat kept, neither failed nor waiting for a fill (R412, R415)? -/
def State.coreRuns (s : State) (d l : Nat) : Bool :=
  s.bit (dieAt d) DIE_CORE_MAP_MAPPED l && !s.bit (dieAt d) DIE_CORE_MAP_FILLING l
    && !(s.die d).fills.any (fun f => f.logical == l)

/-- Does the queue's own unit work: the die in service, the core mapped, in service, not filling, not halted? -/
def State.queueUp (s : State) (c : Ctx) (q : Nat) : Bool :=
  s.inService c.die && !bitN c.run.failed c.die && s.pstate == 0
    && (q == 96 || (s.coreRuns c.die q && s.fld (coreAt c.die c.phys) CORE_HEALTH_STATE == 0
      && !(s.core c.die c.phys).halted))

/-- Does the token that an instruction awaits stand at its count (R225 condition 2)? -/
def Ctx.tokenMet (c : Ctx) (i : PInstr) : Bool :=
  !iFlag i 0 || decide (iWaitCount i ≤ Tab.getD c.run.tokens (c.pd * 1024 + iWaitTok i) 0)

/-- Does the freeze of a capture hold the queues of a run (R451)? -/
def State.runFrozen (s : State) (r : Run) : Bool := r.members.any (fun m => (s.job m).capture.any (fun c => c.frozen))

/-- May the next instruction of a queue issue, its unit apart (R225)? -/
def State.mayIssue (s : State) (c : Ctx) (q pos : Nat) (i : PInstr) : Bool :=
  let qs := c.run.queue c.pd q
  !c.run.ended && !c.run.stopping && !c.run.spilled && !c.run.parked && !c.run.evict && qs.yielded.isNone
    && !c.run.poisonQ.contains (c.pd * 97 + q) && !s.runFrozen c.run
    && s.queueUp c q && c.tokenMet i && decide (qs.fly.length < 8) && !s.blocked c q i && c.handedOver q pos

/-- Is the instruction skipped for a ragged extent (R195)? A stream is skipped when its ACT or OUT deckle begins beyond a
ragged row extent; an MMA when every stream is, or its weights begin beyond a ragged column extent; a VEC when every deckle
it writes begins beyond a ragged extent. -/
def Ctx.streamSkipped (c : Ctx) (i : PInstr) (st : Nat × Nat) : Bool :=
  let gone := fun (k : Deckle) => k.ragR && decide (k.effR c.run.rtl ≤ k.orgR)
  gone (planDeckle c.pl c.sec (mmaAct i st)) || gone (planDeckle c.pl c.sec (mmaOut i st))

/-- R195 for a whole instruction. -/
def Ctx.skipped (c : Ctx) (i : PInstr) : Bool :=
  if iOp i = 0x01 then
    (mmaStreams i).all (fun st => c.streamSkipped i st
      || (let w := planDeckle c.pl c.sec (mmaWgt i st); w.ragC && decide (w.effC c.run.rtl ≤ w.orgC)))
  else if iOp i = 0x02 then
    let ws := (List.range 5).filterMap (fun k => if vopWrites (vecOp i) k then vecDeckle i k else none)
    !ws.isEmpty && ws.all (fun x =>
      let k := planDeckle c.pl c.sec x
      (k.ragR && decide (k.effR c.run.rtl ≤ k.orgR)) || (k.ragC && decide (k.effC c.run.rtl ≤ k.orgC)))
  else false

/-! ## Registers of a queue -/

/-- STATE of a queue (Table 6-13). -/
def State.queueState (s : State) (c : Ctx) (q : Nat) : Nat :=
  let qs := c.run.queue c.pd q
  if q < 96 && (s.core c.die c.phys).halted then 6
  else if qs.yielded.isSome then 5
  else match c.next q with
    | none => if qs.fly.isEmpty then 4 else 3
    | some (pos, i) => if !c.tokenMet i then 2 else if s.mayIssue c q pos i then 1 else 3

/-- Write the status and position registers of a queue. -/
def State.showQueue (s : State) (lead die q : Nat) : State :=
  match s.ctx lead die q with
  | none => s
  | some c =>
    let qs := c.run.queue c.pd q
    let st := s.queueState c q + c.run.phase % 16 * 8 + lead % 64 * 128 + 2 ^ 13 + c.run.sect % 32 * 2 ^ 14
      + min (qs.fly.length + b2n qs.yielded.isSome) 8 * 2 ^ 19
    let pc := qs.pos + c.run.phase % 16 * 2 ^ 32
    if q = 96 then
      (s.setReg (DIE_DQ_STAT_STATE.at (dieAt die) 0) (BitVec.ofNat 64 st)).setReg (DIE_DQ_PC_INDEX.at (dieAt die) 0)
        (BitVec.ofNat 64 pc)
    else
      let a := coreAt die c.phys
      let s := (s.setReg (SEQ_STAT_STATE.at a 0) (BitVec.ofNat 64 st)).setReg (SEQ_PC_INDEX.at a 0) (BitVec.ofNat 64 pc)
      let s := s.setFld a CORE_CONV_STAT_TABLE_LOADING (b2n ((c.next q).any (fun n => c.tblWaits q n.2)))
      match c.next q with
      | some (_, i) =>
        let s := if c.tblWaits q i then s.setFld a CORE_CONV_STAT_LOAD_SLOT (leAt i 12 1 % 8) else s
        (s.setFld a SEQ_WAIT_TOKEN (if iFlag i 0 then iWaitTok i else 0)).setFld a SEQ_WAIT_COUNT
          (if iFlag i 0 then iWaitCount i else 0)
      | none => (s.setFld a SEQ_WAIT_TOKEN 0).setFld a SEQ_WAIT_COUNT 0

/-- Clear the status registers of a queue that no job runs on. -/
def State.hideQueue (s : State) (die l q : Nat) : State :=
  if q = 96 then
    (s.setReg (DIE_DQ_STAT_STATE.at (dieAt die) 0) 0).setReg (DIE_DQ_PC_INDEX.at (dieAt die) 0) 0
  else
    let a := coreAt die (s.phys die l)
    (((s.setReg (SEQ_STAT_STATE.at a 0) 0).setReg (SEQ_PC_INDEX.at a 0) 0).setReg (SEQ_WAIT_TOKEN.at a 0) 0).setFld a
      CORE_CONV_STAT_TABLE_LOADING 0

/-- Show every queue of a job's present phase. -/
def State.showAll (s : State) (lead : Nat) : State :=
  match (s.job lead).run, (s.job lead).binding with
  | some r, some b =>
    let sec := planSection b.plan r.sect
    s.forAll (List.range r.map.length) (fun s pd =>
      s.forAll ((List.range 97).filter (fun q => planUses b.plan sec pd q)) (fun s q =>
        s.showQueue lead (r.map.getD pd 0) q))
  | _, _ => s

/-! ## Issue and completion -/

/-- The queue moves past its next instruction (counted, R225). -/
def State.advance (s : State) (c : Ctx) (q : Nat) : State :=
  let qs := c.run.queue c.pd q
  let s := (s.setQueue c.lead c.pd q { qs with pos := qs.pos + 1 }).trace 0 c.die q c.lead
  if q = 96 then s else s.bump (coreAt c.die c.phys) SEQ_CNT_ISSUED_V

/-- An instruction of queue q of die d completes, and signals (R226). -/
def State.signal (s : State) (lead d q : Nat) (i : PInstr) : State :=
  let s := s.trace 1 d q lead
  if iFlag i 1 then
    (s.modRun lead (fun r =>
      let k := iSigDie i * 1024 + iSigTok i
      { r with tokens := Tab.put r.tokens k ((Tab.getD r.tokens k 0 + 1) % 2 ^ 32) })).trace 2 d q lead
  else s

/-- Owner code of the unit that executes an opcode: sequencer, DMA or beater (R212). -/
def opUnit (op : Nat) : Nat := if op = 0x01 || op = 0x03 then 1 else if op = 0x02 then 3 else 2

/-- Banks that accept the accesses of an instruction: those of its regions that its unit owns (R260, R261). -/
def State.accepting (s : State) (c : Ctx) (q : Nat) (i : PInstr) : List Nat :=
  (((s.regions c q i).flatMap (fun r =>
    let d := c.run.map.getD r.die 0
    (Place.pieces ⟨r.tier, d, s.phys d r.core, r.start, r.len⟩).map Prod.fst)).filter (fun b =>
      s.fld (bankAt b) BANK_OWN_OWNER == opUnit (iOp i))).eraseDups

/-- Does an instruction in flight hold accepted accesses in a bank? Those of a failed die are abandoned. -/
def State.bankHeld (s : State) (b : Nat) : Bool :=
  s.jobs.any (fun e => match e.2.run with
    | some r => r.queues.any (fun q => !bitN r.failed (r.map.getD (q.1 / 97) 4) && q.2.fly.any (fun f => f.banks.contains b))
    | none => false)

/-- PENDING of banks as the instructions in flight leave it (R260). -/
def State.showPending (s : State) (bs : List Nat) : State :=
  s.forAll bs (fun s b => s.setFld (bankAt b) BANK_OWN_PENDING (b2n (s.bankHeld b)))

/-- Put an instruction in flight whose accesses are as `f` says. -/
def State.addFly (s : State) (c : Ctx) (q : Nat) (f : Fly) : State :=
  (s.modRun c.lead (fun r =>
    let qs := r.queue c.pd q
    { r with queues := Tab.put r.queues (c.pd * 97 + q) { qs with fly := qs.fly ++ [f] } })).showPending f.banks

/-- Put an instruction in flight; the banks that accept its accesses hold them until it completes. -/
def State.launch (s : State) (c : Ctx) (q pos arg : Nat) (i : PInstr) : State :=
  s.addFly c q { idx := pos, op := iOp i, arg := arg, banks := s.accepting c q i }

/-- Change an instruction in flight. -/
def State.modFly (s : State) (lead pd q idx : Nat) (h : Fly → Fly) : State :=
  s.modRun lead (fun r =>
    let qs := r.queue pd q
    { r with queues := Tab.put r.queues (pd * 97 + q) { qs with fly := qs.fly.map (fun f => if f.idx = idx then h f else f) } })

/-- The yield point that a job has reached: every live queue has issued the YIELD. -/
def Ctx.atYield (c : Ctx) : Option (Nat × Bool) :=
  match c.live with
  | [] => none
  | x :: rest =>
    match (c.run.queue x.1 x.2).yielded with
    | none => none
    | some y => if rest.all (fun z => (c.run.queue z.1 z.2).yielded == some y) then some y else none

/-- Are no instructions of the run in flight on dies that work? -/
def Ctx.quiet (c : Ctx) : Bool :=
  (List.range c.run.map.length).all (fun pd =>
    bitN c.run.failed (c.run.map.getD pd 0)
      || (List.range 97).all (fun q => (c.run.queue pd q).fly.isEmpty))

/-- Give every member of a run an outcome that it does not have yet. -/
def Run.allOut (r : Run) (st : Nat) : Run :=
  { r with outcomes := r.outcomes ++ ((List.range r.members.length).map (fun m => (m, st))).filter (fun o => !r.outcomes.contains o) }

/-- A deadline stops a run: no queue issues, every member's RUN ends with the status, the job's mark of a complete step goes
(R392, R447). -/
def State.stopRun (s : State) (lead st : Nat) : State :=
  (s.modRun lead (fun r => ({ r with stopping := true } : Run).allOut st)).setFld 0 CLR_JOB_CONSISTENT 0 lead

/-- The internal completion of a run (R388): at the step's end, or when a stopped run has come to rest (R392), or one with a
queue that a poisoned fetch stopped (R294), or when no part is left (R393). At the step's end OSTEP counts the step whose
updates were applied (R328): at least one on the dies that remain, and none skipped there. A deadline whose evaluation edge
came before the arrival of the step's end has won after all (R391). -/
def State.checkEnd (s : State) (lead : Nat) : State :=
  match s.ctx lead (((s.job lead).run.map (fun r => r.map.getD 0 0)).getD 0) 96 with
  | none => s
  | some c =>
    if c.run.ended then s else
    let atEnd := match c.atYield with | some y => y.2 | none => false
    let gone := c.run.map.all (fun d => bitN c.run.failed d)
    let halts := c.run.stopping || !c.run.poisonQ.isEmpty
    if atEnd || gone || (halts && c.quiet) then
      let s := s.modRun lead (fun r => { r with ended := true, stopping := r.stopping || !r.poisonQ.isEmpty, endTs := s.ts })
      let cmds := c.run.members.zip c.run.seqs
      let s := s.forAll cmds (fun s x => s.internally x.1 x.2)
      let late := cmds.any (fun x => match s.cmd x.1 x.2 with
        | some y => y.outcomes.contains 0x1010
        | none => false)
      let s := if late && !halts then s.stopRun lead 0x1010 else s
      let works := fun (d : Nat) => !bitN c.run.failed d
      if atEnd && !halts && !late && c.run.optRan.any works && !c.run.skipped.any (fun x => works x.2) then
        (s.bump 0 HUB_JOB_STREAM_OSTEP_V 1 lead).showSteward
      else s.showSteward
    else s

/-- An instruction of a queue leaves flight: pending accesses end, the signal is given; a run that is to stop may have come
to rest. -/
def State.retire (s : State) (lead die q idx : Nat) : State :=
  match s.ctx lead die q with
  | none => s
  | some c =>
    let qs := c.run.queue c.pd q
    let bs := (qs.fly.filter (fun f => f.idx == idx)).flatMap (fun f => f.banks)
    let s := (s.setQueue lead c.pd q { qs with fly := qs.fly.filter (fun f => f.idx != idx) }).showPending bs
    let s := (s.signal lead die q (c.ins c.pd q idx)).showQueue lead die q
    if c.run.stopping || !c.run.poisonQ.isEmpty then s.checkEnd lead else s

/-- The poisoned granule of the job's plan area on a die that a fetch meets, if it meets one: the area's layout is not given,
so in an area that holds poisoned granules a free value says whether the fetch meets one, and which (log entry 13). -/
def State.fetchPoison (s : State) (c : Ctx) : Option Nat :=
  let a := c.bind.area.getD c.die 0
  let gs := s.larder.poisonIn a (c.pl.readN (128 + 8 * c.die) 8)
  if a = 0 || gs.isEmpty || s.free.toNat % 2 == 0 then none else some (64 * gs.getD (s.free.toNat / 2 % gs.length) 0)

/-- Issue the next instruction of a queue if it is one that `want` accepts and `unit` lets it issue: a gated or skipped one
completes at once (R195, R230); for the others `f` gives the effect of the issue. A poisoned fetch stops the queue; the run's
members complete with 0x2041 once its instructions in flight have completed (R294). -/
def State.issue (s : State) (j d q : Nat) (want : PInstr → Bool) (unit : State → Ctx → PInstr → Bool)
    (f : State → Ctx → Nat → PInstr → State) : State :=
  match s.ctx j d q with
  | none => s
  | some c =>
    match c.next q with
    | none => s
    | some (pos, i) =>
      if !want i || !s.mayIssue c q pos i then s
      else match s.fetchPoison c with
      | some g =>
        let s := s.drawn.forAll c.run.members (fun s m => s.consume j m 2 g 1 (some d))
        ((s.modRun j (fun r => { r with poisonQ := (c.pd * 97 + q) :: r.poisonQ })).setFld 0 CLR_JOB_CONSISTENT 0 j).checkEnd j
      | none =>
        let a := coreAt d c.phys
        if s.gated c i then
          let s := s.advance c q
          let s := if q = 96 then s else s.bump a SEQ_CNT_GATED_V
          (s.signal j d q i).showQueue j d q
        else if c.skipped i then
          let s := (s.advance c q).bump a CORE_CNT_INSTR_SKIP_V
          let s := if iOp i = 0x01 then s.bump a CORE_CNT_STREAM_SKIP_V
            ((mmaStreams i).filter (c.streamSkipped i)).length else s
          (s.signal j d q i).showQueue j d q
        else if !unit s c i then s
        else (f (s.advance c q) c pos i).showQueue j d q

/-- SYNC: completes at issue. -/
def execSync (j : Slot) (d : Die) (q : QueueNo) (s : State) : Host.Outcome State Fault Refusal :=
  .next (s.issue j d q (fun i => iOp i == 0x00) (fun _ _ _ => true) (fun s _ _ i => s.signal j d q i))

/-! ## TBL (R104 to R106) -/

/-- TBL: the image is copied into the slot; instructions in flight that name the slot hold it back (`Ctx.blocked`). -/
def State.loadTable (s : State) (c : Ctx) (i : PInstr) : State :=
  let slot := leAt i 12 1 % 8
  let n := (s.regionFacts c i).image
  let p : Place := ⟨0, c.die, c.phys, leAt i 13 3 % 2 ^ 23, n⟩
  let (s, m) := s.view 1 (some c.lead) p
  let img := m.read p.key n
  let kq8 := leAt img 0 1 == 2
  let levels := (List.range (if kq8 then 256 else 16)).map (fun k => leAt img (16 + k) 1)
  let s := s.modCore c.die c.phys (fun x => { x with books := Tab.put x.books slot levels })
  let a := coreAt c.die c.phys
  let s := s.setReg (CORE_CB_SLOT_TABLE_ID.at a slot) (BitVec.ofNat 64 (leAt img 2 2 + leAt img 0 1 % 4 * 2 ^ 16
    + leAt img 1 1 % 2 * 2 ^ 18 + c.lead % 64 * 2 ^ 24 + 2 ^ 31))
  let s := s.setFld a CORE_CONV_STAT_SLOTS_VALID (orBit (s.fld a CORE_CONV_STAT_SLOTS_VALID) slot)
  let s := s.setFld a CORE_CONV_STAT_LOAD_SLOT slot
  match m.poisonIn p.key n with
  | g :: _ => s.forAll c.run.members (fun s v => s.consume c.lead v 0 (p.addr + (64 * g - p.key)) 0 (some c.die))
  | [] => s

/-- TBL. -/
def execTbl (j : Slot) (d : Die) (l : Logical) (s : State) : Host.Outcome State Fault Refusal :=
  .next (s.issue j d l (fun i => iOp i == 0x03) (fun _ _ _ => true) (fun s c _ i => (s.loadTable c i).signal j d l i))

/-! ## Transfers (R239, R289, R290) -/

/-- XFER: source and destination. -/
def State.xferEnds (s : State) (c : Ctx) (i : PInstr) : TileAt × TileAt :=
  (s.tile c (iDeckle i 12) (c.stateOf (iDeckle i 12)), s.tile c (iDeckle i 15) (c.stateOf (iDeckle i 15)))

/-- Is a row of a tile packed with others into a granule (check 8: WGT rows of 16 or 32 B)? -/
def TileAt.packed (t : TileAt) : Bool := t.dk.pitch % 64 != 0

/-- Ranges of a transfer: source address, destination address and bytes. -/
def xferRuns (src dst : TileAt) : List (Nat × Nat × Nat) := deckleRuns src.dk dst.dk src.place.addr dst.place.addr

/-- Key of an address of a tile's space. -/
def TileAt.keyOf (t : TileAt) (a : Nat) : Nat := t.place.key + (a - t.place.addr)

/-- The pieces of at most 64 B of a transfer: source address, destination address and bytes. -/
def xferGranules (src dst : TileAt) : List (Nat × Nat × Nat) :=
  (xferRuns src dst).flatMap (fun x => (List.range (ceilDiv x.2.2 64)).map (fun k =>
    (x.1 + 64 * k, x.2.1 + 64 * k, min 64 (x.2.2 - 64 * k))))

/-- What a transfer reads: the tier's memory, zeros without poison where its reads were denied (R263), undefined bytes with
the stored poison where they collided (R267). -/
def State.xferSource (s : State) (src : TileAt) (f : Fly) : State × Mem :=
  let m := f.noRd.foldl (fun m x => m.scrub x.1 x.2) (s.tierMem src.place.tier)
  let m := (List.range f.undef.length).foldl (fun (m : Mem) k =>
    let a := 64 * f.undef.getD k 0
    if inRanges f.noRd a then m else m.writeP a (freeBytes (s.fresh + 64 * k) 64) (m.poisoned a)) m
  (s.drawnN (64 * f.undef.length), m)

/-- Attic requests of a transfer: reads from the attic, or writes to it with what the source holds now. -/
def State.atticReqs (s : State) (c : Ctx) (f : Fly) (src dst : TileAt) : State :=
  if src.place.tier = 3 then
    s.forAll (xferGranules src dst) (fun s g => s.atticIssue
      { id := 0, port := g.1 / 2 ^ 41 % 2, write := false, aa := g.1, tier := dst.place.tier, die := dst.place.die,
        core := dst.place.core, addr := g.2.1, bytes := g.2.2, slot := c.lead, pd := c.pd, idx := f.idx,
        denied := inRanges f.noWr (dst.keyOf g.2.1) })
  else
    let (s, m) := s.xferSource src f
    s.forAll (xferGranules src dst) (fun s g => s.atticIssue
      { id := 0, port := g.2.1 / 2 ^ 41 % 2, write := true, aa := g.2.1, bytes := g.2.2, data := m.read (src.keyOf g.1) g.2.2,
        poison := m.poisoned (src.keyOf g.1), slot := c.lead, pd := c.pd, idx := f.idx })

/-- Is a path between two dies or to the attic open: no side of it is cut off? -/
def State.reach (s : State) (a b : Nat) : Bool := !(s.die a).cut && !(s.die b).cut && s.inService b

/-! ## Port collisions (R256, R265 to R268)

Only transfers that no queue orders can collide. Whether their accesses meet in one bank clock depends on clocks, so which
granules collide, in which order and by which port a granule from another die arrives are free values (log entry 42). -/

/-- A transfer in flight as the banks see it. -/
structure XferAt where
  c   : Ctx
  f   : Fly
  src : TileAt
  dst : TileAt

/-- A transfer of a die queue. -/
def State.xferAt (s : State) (c : Ctx) (f : Fly) : XferAt :=
  let e := s.xferEnds c (c.ins c.pd 96 f.idx)
  ⟨c, f, e.1, e.2⟩

/-- Does it read granule g of the banks of a tier (0 shelves, 1 store rooms)? -/
def XferAt.reads (x : XferAt) (tier g : Nat) : Bool :=
  x.src.place.tier == tier && (xferRuns x.src x.dst).any (fun r =>
    decide (x.src.keyOf r.1 ≤ 64 * g) && decide (64 * g < x.src.keyOf r.1 + r.2.2))
/-- Does it write the granule? -/
def XferAt.writes (x : XferAt) (tier g : Nat) : Bool :=
  x.dst.place.tier == tier && (xferRuns x.src x.dst).any (fun r =>
    decide (x.dst.keyOf r.2.1 ≤ 64 * g) && decide (64 * g < x.dst.keyOf r.2.1 + r.2.2))
/-- Port of its writes: its engine's, or `o` for an engine of another die. -/
def XferAt.writePort (x : XferAt) (o : Nat) : Nat :=
  if x.dst.place.die = x.c.die then x.f.arg % 2 else if x.f.arg < 8 then o else (x.f.arg / 8 - 1) % 2

/-- Transfers in flight of every other die queue, of this run and of others, that move data between banks and larders: those of
the attic meet others when they read or land (`execXfer`, `execAtticResponse`). -/
def State.rivals (s : State) (c : Ctx) : List XferAt :=
  s.jobs.flatMap (fun j => match j.2.run with
    | none => []
    | some r => r.map.flatMap (fun d =>
        if j.1 = c.lead ∧ d = c.die then [] else
        match s.ctx j.1 d 96 with
        | none => []
        | some e => if bitN e.run.failed d then [] else
            (((e.run.queue e.pd 96).fly.filter (fun f => f.op == 0x08)).map (s.xferAt e)).filter (fun x =>
              decide (x.src.place.tier < 3) && decide (x.dst.place.tier < 3))))

/-- A bank gives BUSY to a port (R268). Kind 0: read with write, 1: write with write. -/
def State.busy (s : State) (b word port kind : Nat) : State :=
  let a := bankAt b
  let s := s.bump a BANK_CNT_COLLIDE_V
  let s := if s.bit a BANK_STAT_COLLIDE then s
    else (((s.setFld a BANK_STAT_COLLIDE 1).setFld a BANK_STAT_COL_PORT port).setFld a BANK_STAT_COL_KIND kind).setFld a
      BANK_STAT_COL_WORD word
  if s.bit a BANK_OWN_JOB_VALID then s.bankEvent (s.fld a BANK_OWN_JOB) b 0x09 (s.reg (BANK_STAT_READY.at a 0)).toNat else s

/-- Two transfers meet at a granule (Table 7-4): a read that meets a write returns undefined data; of two writes the earlier
one is kept. The free number n spells the tier, which access is the earlier, a port and the granule. -/
def State.meet (s : State) (x y : XferAt) (n : Nat) : State :=
  let tier := n % 2
  let xFirst := n / 2 % 2 == 1
  let o := n / 4 % 2
  let g := n / 8
  let at_ := fun (p : Place) => (p.pieces.find? (fun z =>
    decide (bankKey z.1 + z.2.1 ≤ 64 * g) && decide (64 * g < bankKey z.1 + z.2.1 + z.2.2)
      && s.fld (bankAt z.1) BANK_OWN_OWNER == 2)).map (fun z => (z.1, (64 * g - bankKey z.1) / 4))
  let hit := fun (px py kind : Nat) (p : Place) (v : XferAt) (h : Fly → Fly) => match at_ p with
    | none => s
    | some z => if px = py then s else (s.modFly v.c.lead v.c.pd 96 v.f.idx h).busy z.1 z.2 (if xFirst then py else px) kind
  if x.reads tier g && y.writes tier g then
    hit (x.f.arg % 2) (y.writePort o) 0 x.src.place x (fun f => { f with undef := g :: f.undef })
  else if x.writes tier g && y.reads tier g then
    hit (x.writePort o) (y.f.arg % 2) 0 x.dst.place y (fun f => { f with undef := g :: f.undef })
  else if x.writes tier g && y.writes tier g then
    hit (x.writePort o) (y.writePort (1 - o)) 1 x.dst.place (if xFirst then y else x) (fun f => { f with drop := g :: f.drop })
  else s

/-- The collisions of a transfer with the transfers still in flight, at one granule or (none) at any of its own; each granule
collides at most once with each of them. -/
def State.collisions (s : State) (x : XferAt) (only : Option Nat) : State :=
  let ys := if 2 ≤ x.src.place.tier && 2 ≤ x.dst.place.tier then [] else s.rivals x.c
  if ys.isEmpty then s else
  let ns := ((Config.openPoison s.fresh).filter (fun n => only.all (fun g => n / 8 == g))).foldl (fun acc n =>
    if acc.any (fun m => m % 2 == n % 2 && m / 8 == n / 8) then acc else acc ++ [n]) []
  s.drawn.forAll ys (fun s y => s.forAll ns (fun s n => s.meet x y n))

/-- A transfer in flight as it stands now. -/
def State.flyNow (s : State) (c : Ctx) (f : Fly) : Fly :=
  match s.ctx c.lead c.die 96 with
  | none => f
  | some e => ((e.run.queue e.pd 96).fly.find? (fun x => x.idx == f.idx && x.op == f.op)).getD f

/-- Copy the bytes of one range of a transfer with their poison; in a granule that the range does not fill, poison that stands
stays beside it. -/
def Mem.copyRun (m src : Mem) (da sa n : Nat) : Mem :=
  if n % 64 = 0 then m.copy src da sa n
  else
    let m := m.copyBytes src da sa n
    if src.anyPoison sa n then m.setPoison da n true else m

/-- Move a transfer's granules between two tiers of the module, with their poison; writes that were denied when it issued (R263)
or dropped in a collision (R266) leave what stands. -/
def State.xferMove (s : State) (src dst : TileAt) (f : Fly) : State :=
  let (s, m) := s.xferSource src f
  s.changeBut dst.place.tier [dst.place] f.noWr (fun t =>
    let u := if dst.packed then t.setPoison dst.place.key dst.place.len false else t
    f.drop.foldl (fun (u : Mem) g => u.copy t (64 * g) (64 * g) 64)
      ((xferRuns src dst).foldl (fun u x => u.copyRun m (dst.keyOf x.2.1) (src.keyOf x.1) x.2.2) u))

/-- Engine of the destination die that a transfer from another die holds. -/
def Fly.farEngine (f : Fly) : Option Nat := if f.arg < 8 then none else some (f.arg / 8 - 1)

/-! ## Yields and the end of a run -/

/-- YIELD: issues only after every earlier instruction of its queue has completed (R243). -/
def execYield (j : Slot) (d : Die) (q : QueueNo) (s : State) : Host.Outcome State Fault Refusal :=
  .next ((s.issue j d q (fun i => iOp i == 0x0A) (fun _ c _ => (c.run.queue c.pd q).fly.isEmpty) (fun s c _ i =>
    s.modRun j (fun r =>
      let qs := r.queue c.pd q
      { r with queues := Tab.put r.queues (c.pd * 97 + q.val) { qs with yielded := some (leAt i 12 2, bitN (leAt i 14 1) 0) } }))).checkEnd j)

/-- All YIELDs of the point complete: the job continues (R245). -/
def State.passYield (s : State) (lead : Nat) : State :=
  match (s.job lead).run, (s.job lead).binding with
  | some r, some b =>
    let sec := planSection b.plan r.sect
    let s := s.forAll r.queues (fun s q =>
      if q.2.yielded.isNone then s else
      let pd := q.1 / 97
      let i := planInstr b.plan sec ((planSched b.plan sec pd (q.1 % 97) r.phase).1 + (q.2.pos - 1))
      (s.setQueue lead pd (q.1 % 97) { q.2 with yielded := none }).signal lead (r.map.getD pd 0) (q.1 % 97) i)
    (s.modRun lead (fun r => { r with evict := false })).showAll lead
  | _, _ => s

end Sys2Proof.Machine
end

