-- ==== Sys2Proof/Machine/Stream.lean ====
section
/-!
DEFINITION. What the Qualey arrays work on (R47 to R87, R93, R94, R114, R117 to R123): the streams of an MMA, the operands that the
entry converter forms, the layout of a weight buffer, the cells' products, the special classes, and the clocks that the
rules compute.
-/
namespace Sys2Proof.Machine

/-- One stream of an MMA: its position among the streams, its array and quadrant, its tiles, and the memory that they are
read from. -/
structure Strm where
  pos  : Nat
  arr  : Nat
  quad : Nat
  act  : TileAt
  wgt  : TileAt
  out  : TileAt
  wsc  : Option TileAt
  zpt  : Option TileAt
  gsc  : Option TileAt
  asc  : Option TileAt
  m    : Mem
  rtl  : Tab Nat
  bookA : List Nat
  bookW : List Nat
  /-- Array mode 0 4×4, 1 8×4, 2 8×8; quadrant mode; passes; S_K. -/
  mode : Nat
  qm   : Bool
  pass : Nat
  sk   : Nat

/-- Tiles that an MMA reads. -/
def State.mmaReads (s : State) (c : Ctx) (i : PInstr) : List TileAt :=
  ((instrDeckles i).filter (fun x => !x.2)).map (fun x => s.tile c x.1)

/-- The shelves as an MMA reads them: the ranges that were denied when it issued read as zeros without poison (R263; log
entry 45). -/
def State.mmaMem (s : State) (denied : List (Nat × Nat)) : Mem := denied.foldl (fun m x => m.scrub x.1 x.2) s.shelf

/-- The streams of an MMA that are not skipped (R195). -/
def State.streams (s : State) (c : Ctx) (i : PInstr) (denied : List (Nat × Nat)) : List Strm :=
  let m := s.mmaMem denied
  let sts := mmaStreams i
  ((List.range sts.length).filter (fun n => !c.streamSkipped i (sts.getD n (0, 0)))).map (fun n =>
    let st := sts.getD n (0, 0)
    let aux := fun k => (mmaAuxIdx i k st).map (s.tile c)
    let act := s.tile c (mmaAct i st)
    let wgt := s.tile c (mmaWgt i st)
    ⟨n, st.1, st.2, act, wgt, s.tile c (mmaOut i st), aux 0, aux 1, aux 2, aux 3, m, c.run.rtl,
     s.book c.die c.phys act.dk.cb, s.book c.die c.phys wgt.dk.cb, mmaMode i, mmaQuadMode i, mmaPasses i, mmaSk i⟩)

/-- Does the stream have a float operand? -/
def Strm.isFloat (t : Strm) : Bool := fmtFloat t.act.dk.format || fmtFloat t.wgt.dk.format

/-! ## Operands (R114, R117 to R123, R190, R191) -/

/-- Is element (i, j) of a tile logical? -/
def TileAt.has (t : TileAt) (rtl : Tab Nat) (i j : Nat) : Bool :=
  decide (i < t.dk.rowsIn rtl) && decide (j < t.dk.colsIn rtl)

/-- K extent of the stream. -/
def Strm.kk (t : Strm) : Nat := t.act.dk.shapeC
/-- Chunk length along K (Table 2-1, R55). -/
def Strm.chunk (t : Strm) : Nat := if t.qm then 16 else 32
/-- First K index at or beyond which every chunk is skipped (R196). -/
def Strm.effK (t : Strm) : Nat := if t.act.dk.ragC then min t.kk (t.act.dk.effC t.rtl - t.act.dk.orgC) else t.kk
/-- K that remains when the skipped chunks are gone. -/
def Strm.keptK (t : Strm) : Nat := min t.kk (alignUp t.effK t.chunk)
/-- Number of segments (R63). -/
def Strm.segs (t : Strm) : Nat := max 1 (ceilDiv t.kk t.sk)
/-- K indices of a segment. -/
def Strm.segK (t : Strm) (g : Nat) : List Nat := (List.range (min t.sk (t.kk - g * t.sk))).map (fun x => g * t.sk + x)

/-- Zero point of weight column n (R114). -/
def Strm.zp (t : Strm) (n : Nat) : Int :=
  match t.zpt with
  | none => 0
  | some z => if z.has t.rtl 0 n then codeInt z.dk.format [] (z.raw t.m 0 n) else 0

/-- Is a zero point one that Table 3-7 does not permit? -/
def Strm.zpBad (t : Strm) (n : Nat) : Bool :=
  let z := t.zp n
  let f := t.wgt.dk.format
  if t.mode = 2 then
    (if f = 0 then decide (z < -8) || decide (7 < z) else if f = 1 then decide (z < 0) || decide (15 < z)
     else if f = 3 then z != 0 && z != 128 else z != 0)
  else if f = 1 then z != 0 && z != 8 else z != 0

/-- Value of an activation: a float's, or an integer or level. -/
def Strm.aVal (t : Strm) (i k : Nat) : FVal :=
  if !t.act.has t.rtl i k then .fin false 0 0 else
  let w := t.act.raw t.m i k
  if fmtFloat t.act.dk.format then (fmtOf t.act.dk.format).dec w
  else let x := codeInt t.act.dk.format t.bookA w; .fin (decide (x < 0)) x.natAbs 0

/-- Value of a weight, its zero point subtracted. -/
def Strm.wVal (t : Strm) (k n : Nat) : FVal :=
  if !t.wgt.has t.rtl k n then .fin false 0 0 else
  let w := t.wgt.raw t.m k n
  if fmtFloat t.wgt.dk.format then (fmtOf t.wgt.dk.format).dec w
  else let x := codeInt t.wgt.dk.format t.bookW w - (if t.wgt.dk.format < 4 then t.zp n else 0)
       .fin (decide (x < 0)) x.natAbs 0

/-- Aligned integers of a row or column of a segment, the scale exponent of R120 and the elements clamped (R119). -/
def alignSeg (fmt : Nat) (vs : List FVal) : List Int × Int × Nat :=
  if fmtFloat fmt then
    let w := 8 * slicesOf fmt
    match sharedExp vs with
    | none => (vs.map (fun _ => 0), 0, 0)
    | some e =>
      let as_ := vs.map (alignElem w e)
      (as_.map Prod.fst, e - (w : Int) + 2, (as_.filter Prod.snd).length)
  else (vs.map (fun v => match v with | .fin n m _ => smant n m | _ => 0), 0, 0)

/-- Slice i of an aligned value of `n` slices: the top one signed, the others unsigned (R121). -/
def sliceOf (n i : Nat) (a : Int) : Int :=
  if i = 0 then a / 2 ^ (8 * (n - 1)) else a / 2 ^ (8 * (n - 1 - i)) % 256

/-! ## Slices, cells and the weight buffer (R48 to R56, R73 to R78) -/

/-- Slices in the stream's mode: whole operands outside 8×8 (Table 2-5). -/
def Strm.sa (t : Strm) : Nat := if t.mode = 2 then slicesOf t.act.dk.format else 1
/-- Weight slices. -/
def Strm.sw (t : Strm) : Nat := if t.mode = 2 then slicesOf t.wgt.dk.format else 1
/-- Weight slices in use (R77). -/
def Strm.slices (t : Strm) : Nat := max 1 (min t.sw t.pass)
/-- Sweeps of a stream on weight slice j (R77). -/
def Strm.sweepsOn (t : Strm) (j : Nat) : Nat := if j < t.slices then min (t.sa - 1) (t.pass - 1 - j) + 1 else 0

/-- A digit product of a cell, shifted as the mode directs (R47). -/
def cell (a w : Int) (shift : Nat) : Int := a * w * 2 ^ shift

/-- What a position makes of an activation and a weight: one digit product in 4×4 mode, two clocks of one digit in 8×4 mode
(R52), the fusion of four cells in 8×8 mode (R53). -/
def cellMul (mode : Nat) (a w : Int) : Int :=
  let aL := a % 16
  let aH := a / 16
  let wL := w % 16
  let wH := w / 16
  if mode = 2 then cell aL wL 0 + (cell aL wH 4 + cell aH wL 4) + cell aH wH 8
  else if mode = 1 then cell aL w 0 + cell aH w 4
  else cell a w 0

/-- Byte of w(k, n) in a weight buffer, and whether it stands in the upper nibble (R54, R56). -/
def wPos (mode : Nat) (qm : Bool) (q k n : Nat) : Nat × Bool :=
  if mode = 2 then (if qm then q * 256 + k * 16 + n else k * 32 + n, false)
  else (if qm then q * 512 + k * 32 + n / 2 else k * 64 + n / 2, n % 2 == 1)

/-- Bytes of one row k of a set in the buffer. -/
def wRowBytes (mode : Nat) (qm : Bool) : Nat :=
  if mode = 2 then (if qm then 16 else 32) else if qm then 32 else 64

/-- Lanes of one accumulator row, those of the four quadrants together (R62). The rules count the outputs of a row by them:
whether a tile with fewer columns than lanes makes fewer outputs is not said (log entry 43, DESIGN CHOICE). -/
def Strm.perRow (t : Strm) : Nat :=
  if t.mode = 2 then (if t.qm then 64 else 32) else if t.qm then 256 else 128
/-- Lane of the stream's first column in an accumulator row. -/
def Strm.lane0 (t : Strm) : Nat := if t.qm then t.quad * (t.perRow / 4) else 0

/-- Aligned integers of activation row i in segment g, with their scale exponent and the elements clamped. -/
def Strm.rowA (t : Strm) (g i : Nat) : List Int × Int × Nat := alignSeg t.act.dk.format ((t.segK g).map (fun k => t.aVal i k))
/-- The same of weight column n. -/
def Strm.colW (t : Strm) (g n : Nat) : List Int × Int × Nat := alignSeg t.wgt.dk.format ((t.segK g).map (fun k => t.wVal k n))

/-- Is chunk x of segment g swept (R196)? -/
def Strm.live (t : Strm) (g x : Nat) : Bool :=
  decide (x * t.chunk < (t.segK g).length) && decide (g * t.sk + x * t.chunk < t.effK)
/-- Chunks of segment g that are swept; they are its first. -/
def Strm.swept (t : Strm) (g : Nat) : Nat := ((List.range (ceilDiv (t.segK g).length t.chunk)).filter (t.live g)).length
/-- The entries of an operand row or column that chunk x covers. -/
def Strm.part (t : Strm) (x : Nat) (l : List Int) : List Int := (l.drop (x * t.chunk)).take t.chunk

/-- One row k of slice j of chunk x as the weight feed writes it (R54, R56). -/
def Strm.feedRow (t : Strm) (cols : List (List Int)) (j k : Nat) : List Byte :=
  let at_ := fun (n : Nat) => (cols.getD n []).getD k 0
  padTo (wRowBytes t.mode t.qm) (if t.mode = 2 then
      (List.range cols.length).map (fun n => BitVec.ofInt 8 (sliceOf t.sw j (at_ n)))
    else (List.range ((cols.length + 1) / 2)).map (fun b => BitVec.ofInt 8 (at_ (2 * b) % 16 + at_ (2 * b + 1) % 16 * 16)))
/-- Slice j of chunk x of segment g of a stream's weights. -/
def Strm.feed (t : Strm) (g x j : Nat) : List Byte :=
  let cols := if t.live g x && decide (j < t.sw) then (List.range t.wgt.dk.shapeC).map (fun n => t.part x (t.colW g n).1) else []
  (List.range t.chunk).flatMap (t.feedRow cols j)
/-- The bytes that the feed writes into the back buffer: one set or slice, or those of the four quadrants. -/
def feedImage (ts : List Strm) (g x j : Nat) : List Byte :=
  match ts with
  | [] => []
  | t :: _ =>
    if t.qm then
      (List.range 4).flatMap (fun q => match ts.find? (fun u => u.quad == q) with
        | some u => u.feed g x j
        | none => zeros (t.chunk * wRowBytes t.mode true))
    else t.feed g x j

/-- Does a weight operand enter as signed? Slices below the first never do; an unsigned format does once a zero point is
taken off (Table 3-7). -/
def Strm.wSigned (t : Strm) (j n : Nat) : Bool :=
  j == 0 && !(t.zp n == 0 && (t.wgt.dk.format == 3 || (t.wgt.dk.format == 1 && t.mode != 2)))
/-- The weight operand that the cells take from the front buffer. -/
def Strm.wAt (t : Strm) (buf : List Byte) (j k n : Nat) : Int :=
  let (b, up) := wPos t.mode t.qm t.quad k n
  let v := (buf.getD b 0).toNat
  if t.mode = 2 then (if t.wSigned j n then signedN 8 v else v)
  else
    let d := if up then v / 16 else v % 16
    if t.wSigned j n then signedN 4 d else d

/-- Every array's checksum vector entry (R88). -/
def checksum (w : List Int) : Int := w.foldl (fun a x => a + x) 0 % 127

/-- Add numbers into the lanes from `o` on. -/
def addLanes (l : List Int) (o : Nat) (v : List Int) : List Int :=
  l.take o ++ (l.drop o).zipWith (fun a b => a + b) v ++ l.drop (o + v.length)

/-- All rows of chunk x's slice j of a stream against the front buffer, for accumulator row r: each activation slice in turn
(R77), into the pass accumulators and the predicted residues (R88). -/
def Strm.sweepRow (t : Strm) (ws : List (List Int)) (g x j r : Nat) (b : BankRow) : BankRow :=
  let as_ := t.part x (t.rowA g r).1
  (List.range (t.sweepsOn j)).foldl (fun b i =>
    let ai := as_.map (sliceOf t.sa i)
    let sums := (ai.zip ws).foldl (fun acc y => acc.zipWith (fun u w => u + cellMul t.mode y.1 w) y.2)
      (List.replicate t.wgt.dk.shapeC 0)
    let p := (ai.zip ws).foldl (fun acc y => acc + y.1 * checksum y.2) 0 % 127
    { b with lanes := listMod b.lanes (i + j) (fun l => addLanes l t.lane0 sums),
             pred := listMod b.pred (i + j) (fun l => listMod l t.quad (fun q => (q + p) % 127)) }) b

/-- The operands of a front buffer by k and n. -/
def Strm.frontRows (t : Strm) (buf : List Byte) (j : Nat) : List (List Int) :=
  (List.range t.chunk).map (fun k => (List.range t.wgt.dk.shapeC).map (fun n => t.wAt buf j k n))

/-- An accumulator row that has been emptied. -/
def Strm.blankRow (t : Strm) : BankRow :=
  ⟨List.replicate t.pass (List.replicate t.perRow 0), List.replicate t.pass (List.replicate 4 0)⟩

/-! ## Residues and the drain's arithmetic (R65, R66, R88) -/

/-- The stream's lanes of a pass accumulator. -/
def Strm.lanesOf (t : Strm) (b : BankRow) (p : Nat) : List Int :=
  ((b.lanes.getD p []).drop t.lane0).take (if t.qm then t.perRow / 4 else t.perRow)
/-- The predicted residue of a pass. -/
def Strm.predOf (t : Strm) (b : BankRow) (p : Nat) : Int := (b.pred.getD p []).getD t.quad 0
/-- Does the check of a pass fail? -/
def Strm.fails (t : Strm) (b : BankRow) (p : Nat) : Bool := checksum (t.lanesOf b p) != t.predOf b p
/-- The first pass whose check fails. -/
def Strm.failing (t : Strm) (b : BankRow) : Option Nat := (List.range t.pass).find? (t.fails b)

/-- The combined integer of output n (R65 step 2). -/
def Strm.combine (t : Strm) (b : BankRow) (n : Nat) : Int :=
  (List.range t.pass).foldl (fun c p => c + (b.lanes.getD p []).getD (t.lane0 + n) 0 * 2 ^ (8 * (t.sa + t.sw - 2 - p))) 0

/-- A row's contribution to output (i, n) before accumulation: C to FP32, times 2^E, times the group scale (R65 steps 2 to 5),
and whether it overflowed from finite operands; such an overflow counts as the accumulation's (R66; log entry 43, DESIGN
CHOICE). -/
def Strm.addend (t : Strm) (b : BankRow) (e : Int) (g n : Nat) : Nat × Bool :=
  let v := f32.enc ((f32.dec (f32.ofInt (t.combine b n))).scale e)
  match t.gsc with
  | none => (v, f32.nonfinite v)
  | some x =>
    let sc := if x.has t.rtl g n then elemF32 x.dk.format [] one32 (x.raw t.m g n) else one32
    let y := f32.mul v sc
    (y, f32.nonfinite y && !f32.nonfinite sc)

/-! ## Poison (R89, R93, R94) -/

/-- Does a logical element of a tile meet poison? -/
def Strm.pz (t : Strm) (x : TileAt) (i j : Nat) : Bool := x.has t.rtl i j && x.pois t.m i j
/-- Row i of the activations carries poison in the K indices `ks`. -/
def Strm.rowP (t : Strm) (ks : List Nat) (i : Nat) : Bool := ks.any (fun k => t.pz t.act i k)
/-- Column n of the weights carries poison in the K indices `ks`. -/
def Strm.colP (t : Strm) (ks : List Nat) (n : Nat) : Bool := ks.any (fun k => t.pz t.wgt k n)
/-- Does an auxiliary element poison column n, or row i? -/
def Strm.auxP (t : Strm) (i n : Nat) : Bool :=
  (match t.wsc with | some x => t.gsc.isNone && t.pz x 0 n | none => false)
    || (match t.zpt with | some x => t.pz x 0 n || t.zpBad n | none => false)
    || (match t.gsc with | some x => (List.range t.segs).any (fun g => t.pz x g n) | none => false)
    || (match t.asc with | some x => t.pz x 0 i | none => false)
/-- Is output (i, n) written poisoned, verdicts and parity errors apart? -/
def Strm.outP (t : Strm) (i n : Nat) : Bool :=
  t.rowP (List.range t.kk) i || t.colP (List.range t.kk) n || t.auxP i n
/-- Is row i exempt from its check in a segment, parity errors apart (R89)? Any weight byte of the segment counts, whatever its
column, and a zero point that is not permitted counts as one (R114). -/
def Strm.exempt (t : Strm) (g i : Nat) : Bool :=
  t.rowP (t.segK g) i || (List.range t.wgt.dk.shapeC).any (fun n => t.colP (t.segK g) n || t.zpBad n)

/-- Does a parity error at array entry poison row r of the stream (R93)? On an activation byte that holds a logical
element (R194). -/
def Strm.parRow (t : Strm) (r : Nat) : Parity → Bool
  | .act a q i k => a == t.arr && q == t.quad && i == r &&
      (t.act.has t.rtl i k || (fmtBits t.act.dk.format == 4 && t.act.has t.rtl i (k / 2 * 2)))
  | .wgt _ _ _ => false
/-- Does one poison the stream's column n? On a weight byte: one column in 8×8 mode, two in 4×4 and 8×4. -/
def Strm.parCol (t : Strm) (n : Nat) : Parity → Bool
  | .act _ _ _ _ => false
  | .wgt q k c =>
    let c0 := if t.mode = 2 then c else c / 2 * 2
    q == t.quad && (t.wgt.has t.rtl k c || t.wgt.has t.rtl k c0) && (n == c || (t.mode != 2 && n / 2 == c / 2))
/-- K index of a parity error. -/
def parityK : Parity → Nat
  | .act _ _ _ k => k
  | .wgt _ k _ => k

/-! ## Specials (R84, R85, R122, R123) -/

/-- Does row i, or some weight, hold a NaN or an infinity? -/
def FVal.special : FVal → Bool
  | .fin _ _ _ => false
  | _ => true
/-- Special flag of an activation row. -/
def Strm.rowSp (t : Strm) (i : Nat) : Bool := (List.range t.kk).any (fun k => (t.aVal i k).special)
/-- Weight special flag in some K indices. -/
def Strm.wSp (t : Strm) (ks : List Nat) : Bool :=
  (List.range t.wgt.dk.shapeC).any (fun n => ks.any (fun k => (t.wVal k n).special))
/-- Is the stream flagged? -/
def Strm.flagged (t : Strm) : Bool :=
  (List.range t.act.dk.shapeR).any t.rowSp || t.wSp (List.range t.kk)

/-- Positive, negative and zero planes. -/
def FVal.pos : FVal → Bool
  | .fin n m _ => !n && m != 0
  | .inf n => !n
  | .nan => false
/-- Non-zero, non-NaN and negative. -/
def FVal.negp : FVal → Bool
  | .fin n m _ => n && m != 0
  | .inf n => n
  | .nan => false
/-- True zero. -/
def FVal.isZero : FVal → Bool
  | .fin _ m _ => m == 0
  | _ => false

/-- Class of output (i, n): 0 finite, 1 NaN, 2 +inf, 3 −inf; and whether zinf holds of a NaN. An output for which nan and zinf
both hold counts as NaN because of zinf (R86; log entry 43, DESIGN CHOICE). -/
def Strm.cls (t : Strm) (i n : Nat) : Nat × Bool :=
  let ps := (List.range t.kk).map (fun k => (t.aVal i k, t.wVal k n))
  let isInf := fun (v : FVal) => v.special && v != .nan
  let nan := ps.any (fun x => x.1 == .nan || x.2 == .nan)
  let zinf := ps.any (fun x => (x.1.isZero && isInf x.2) || (isInf x.1 && x.2.isZero))
  let pinf := ps.any (fun x => (x.1 == .inf false && x.2.pos) || (x.1 == .inf true && x.2.negp)
    || (x.1.pos && x.2 == .inf false) || (x.1.negp && x.2 == .inf true))
  let ninf := ps.any (fun x => (x.1 == .inf false && x.2.negp) || (x.1 == .inf true && x.2.pos)
    || (x.1.pos && x.2 == .inf true) || (x.1.negp && x.2 == .inf false))
  if nan || zinf || (pinf && ninf) then (1, zinf) else if pinf then (2, false) else if ninf then (3, false) else (0, false)

/-! ## Clocks that the rules compute (R59, R60, R69, R81 to R83, R92) -/

/-- Clocks that a row takes: two digits in 8×4 mode (R52). -/
def Strm.cpr (t : Strm) : Nat := if t.mode = 1 then 2 else 1
/-- Clocks to load a set or slice (Table 2-8). -/
def Strm.loadClocks (t : Strm) : Nat := if t.mode = 2 then 16 else 32

/-- Slices that the feed loads for a chunk. -/
def sliceCount (ts : List Strm) : Nat := ts.foldl (fun m t => max m t.slices) 1
/-- Chunks of segment g that are swept for some stream. -/
def sweptChunks (ts : List Strm) (g : Nat) : Nat := ts.foldl (fun m t => max m (t.swept g)) 0
/-- Weight loads of a segment: one for each swept chunk and weight slice in use (R77). -/
def segLoads (ts : List Strm) (g : Nat) : Nat := sweptChunks ts g * sliceCount ts
/-- Segments of an MMA: quadrants may have K of their own (R55). -/
def segCount (ts : List Strm) : Nat := ts.foldl (fun m t => max m t.segs) 1

/-- Rows of an array: the most among its streams. -/
def mmaRows (ts : List Strm) (arr : Nat) : Nat := (ts.filter (fun t => t.arr == arr)).foldl (fun m t => max m t.act.dk.shapeR) 0
/-- Rows of the array with the most. -/
def mostRows (ts : List Strm) : Nat := ts.foldl (fun m t => max m t.act.dk.shapeR) 0
/-- Clocks in which an array issues rows on weight slice j of chunk x. -/
def arrActive (ts : List Strm) (arr g x j : Nat) : Nat :=
  (ts.filter (fun t => t.arr == arr && t.live g x)).foldl (fun m t => max m (t.act.dk.shapeR * t.cpr * t.sweepsOn j)) 0
/-- Clocks that a buffer is active in segment g, by the number of its load: until the last array has issued its last row
(R58). -/
def coreActive (ts : List Strm) (g n : Nat) : Nat :=
  let k := sliceCount ts
  (List.range 4).foldl (fun m a => max m (arrActive ts a g (n / k) (n % k))) 0
/-- Arrays with rows. -/
def arrsOf (ts : List Strm) : List Nat := (List.range 4).filter (fun a => ts.any (fun t => t.arr == a))
/-- Clocks that loads `n` onwards of a segment stream. -/
def streamClocks (ts : List Strm) (g n : Nat) : Nat :=
  (List.range (segLoads ts g - n)).foldl (fun acc x => acc + coreActive ts g (n + x)) 0

/-- Clocks of the pre-scan of segment 0 on the weight feed, and on the longest activation input, at 64 B a clock (R81). It
covers the chunks that are not skipped (R196). -/
def prescanClocks (ts : List Strm) : Nat × Nat :=
  let bytes := fun (x : TileAt) (n : Nat) => if fmtFloat x.dk.format then ceilDiv (n * fmtBits x.dk.format) 8 else 0
  let k0 := fun (t : Strm) => min (t.segK 0).length t.keptK
  let act := (arrsOf ts).map (fun a => (ts.filter (fun t => t.arr == a)).foldl (fun n t =>
    n + bytes t.act (t.act.dk.shapeR * k0 t)) 0)
  let wgt := (List.range 4).foldl (fun n q => n + (match ts.find? (fun t => t.quad == q) with
    | some t => bytes t.wgt (k0 t * t.wgt.dk.shapeC)
    | none => 0)) 0
  (ceilDiv wgt 64, ceilDiv (act.foldl max 0) 64)

/-- Clocks of the specials slot (R83, R196): none without a float operand. -/
def specialsClocks (ts : List Strm) : Nat :=
  let k := ts.foldl (fun m t => max m t.keptK) 0
  if !ts.any Strm.isFloat then 0
  else if ts.any (fun t => t.qm) then 16 + ceilDiv k 32 * max (mostRows ts) 16
  else 32 + ceilDiv k 128 * max (mostRows ts) 32

/-- Clocks of an output drain, and of a recompute slot: outputs / 32 + 7 of the array with the most rows (R70, R83). -/
def drainClocks (ts : List Strm) : Nat := match ts with
  | [] => 0
  | t :: _ => mostRows ts * t.perRow / 32 + 7

/-- Clocks of a vote on `n` flagged rows of segment g (R92). -/
def Strm.voteClocks (t : Strm) (g n : Nat) : Nat :=
  t.swept g * (List.range t.slices).foldl (fun x j => x + t.loadClocks + t.sweepsOn j * n * t.cpr) 0
    + 11 + n * t.perRow / 32 + 7 + t.loadClocks

end Sys2Proof.Machine
end

