-- ==== Sys2Proof/Machine/Arrays.lean ====
section
/-!
DEFINITION. The Qualey arrays at work (R58 to R72, R81 to R96): the MMA from its issue through its sweeps, segment drains, votes,
specials pass and output drain to its recompute slot.
-/
namespace Sys2Proof.Machine

/-! ## The MMAs of a core -/

/-- Where the MMAs of a core that runs stand: its context, if the job runs there. -/
def State.coreCtx (s : State) (j d l : Nat) : Option Ctx :=
  match s.ctx j d l with
  | none => none
  | some c => if s.coreRuns d l then some c else none

/-- The MMA at work in a core: the oldest. -/
def State.mmaOf (s : State) (j d l : Nat) : Option (Ctx × MmaFly × PInstr) :=
  match s.coreCtx j d l with
  | none => none
  | some c => match (s.core d c.phys).mmas with
    | [] => none
    | f :: _ => if f.lead == j then some (c, f, c.ins c.pd l f.idx) else none

/-- Replace the k-th MMA of a core, oldest first. -/
def State.setMmaAt (s : State) (c : Ctx) (k : Nat) (f : MmaFly) : State :=
  s.modCore c.die c.phys (fun x => { x with mmas := listSet x.mmas k f })
/-- Replace the oldest MMA of a core. -/
def State.setMma (s : State) (c : Ctx) (f : MmaFly) : State := s.setMmaAt c 0 f

/-- Has an MMA rows that it has not issued? -/
def MmaFly.sweeps (f : MmaFly) (ts : List Strm) : Bool := decide (f.swaps < segLoads ts f.seg)
/-- Is its specials slot over? It has no slot without a float operand. -/
def MmaFly.slotOver (f : MmaFly) (ts : List Strm) : Bool :=
  !f.sweeps ts && (decide (2 ≤ f.stage) || !ts.any Strm.isFloat)

/-- The MMA whose sweeps come next, with its place: the oldest, or the one behind it once the oldest one's specials slot has
ended and no vote of it waits (R72). -/
def State.sweeper (s : State) (j d l : Nat) : Option (Ctx × Nat × MmaFly × List Strm) :=
  match s.mmaOf j d l with
  | none => none
  | some (c, f, i) =>
    let ts := s.streams c i f.denied
    if f.sweeps ts then some (c, 0, f, ts)
    else if !f.slotOver ts || !f.pend.isEmpty then none
    else match (s.core d c.phys).mmas.drop 1 with
      | [] => none
      | h :: _ => if h.lead == j then some (c, 1, h, s.streams c (c.ins c.pd l h.idx) h.denied) else none

/-- Job of a stream (R61, R232). -/
def Ctx.member (c : Ctx) (arr : Nat) : Nat := if arr < c.run.members.length then arr else 0
/-- Slot of a stream's job. -/
def Ctx.memberSlot (c : Ctx) (arr : Nat) : Nat := c.run.members.getD (c.member arr) c.lead

/-- Consume poison for the streams that meet it: the first poisoned operand of each (R293, R294). -/
def State.mmaConsume (s : State) (c : Ctx) (ts : List Strm) : State :=
  s.forAll ts (fun s t =>
    let tiles := [t.act, t.wgt] ++ (t.wsc.toList ++ t.zpt.toList ++ t.gsc.toList ++ t.asc.toList)
    match tiles.findSome? (fun x => ((x.dk.elems t.rtl).find? (fun e => x.pois t.m e.1 e.2)).map (fun e => (x, e))) with
    | some (x, e) => s.consume c.lead (c.memberSlot t.arr) 0 (x.dk.elemAt e.1 e.2).1 0 (some c.die)
    | none => s)

/-- The sibling of a vote: from i + 1 mod 4 upwards, idle arrays not suspect, then active ones not suspect, then suspect
ones; never one that awaits a vote. -/
def State.sibling (s : State) (c : Ctx) (f : MmaFly) (ts : List Strm) (arr : Nat) : Option Nat :=
  let ring := [(arr + 1) % 4, (arr + 2) % 4, (arr + 3) % 4]
  let ok := ring.filter (fun x => !f.pend.any (fun v => v.arr == x))
  let sus := fun x => s.bit (arrAt c.die c.phys x) ARR_STAT_ARR_SUSPECT || s.bit (arrAt c.die c.phys x) ARR_STAT_CHK_SUSPECT
  let act := fun x => ts.any (fun t => t.arr == x)
  match ok.find? (fun x => !act x && !sus x), ok.find? (fun x => act x && !sus x), ok.find? sus with
  | some x, _, _ => some x
  | _, some x, _ => some x
  | _, _, some x => some x
  | _, _, _ => none

/-- Core word of the NAN_ZINF and VOTE events (Table 10-11). -/
def coreWord (l arr quad : Nat) (quadMode : Bool) : Nat :=
  l + arr * 128 + (if quadMode then quad * 512 + 2048 else 0)

/-! ## Stalls (R60, R69, R81, R82) -/

/-- Bump a counter of every array with rows. -/
def State.bumpArrs (s : State) (c : Ctx) (ts : List Strm) (f : Fld) (n : Nat → Nat) : State :=
  s.forAll (arrsOf ts) (fun s a => s.bump (arrAt c.die c.phys a) f (n a))

/-- The stalls and sweeps that swap n of segment g brings: a load that the outgoing set did not cover (R82), a drain that is
not over before the segment's first row (R69), the rows of the incoming set and the waits for siblings (R60). -/
def State.swapClocks (s : State) (c : Ctx) (ts : List Strm) (g n : Nat) : State :=
  let load := ts.foldl (fun m t => max m t.loadClocks) 0
  let perRow := ts.foldl (fun m t => max m t.perRow) 0
  let k := sliceCount ts
  let before := if n = 0 then coreActive ts (g - 1) (segLoads ts (g - 1) - 1) else coreActive ts g (n - 1)
  let s := if g = 0 && n = 0 then s else s.bumpArrs c ts ARR_CNT_LOAD_STALL_V (fun _ => load - before)
  let s := if n = 0 && 2 ≤ g then
      s.bumpArrs c ts ARR_CNT_DRAIN_STALL_V (fun a => mmaRows ts a * perRow / 32 + 11 - streamClocks ts (g - 1) 0)
    else s
  let s := s.bumpArrs c ts ARR_CNT_SWEEP_V (fun a => arrActive ts a g (n / k) (n % k))
  s.bumpArrs c ts ARR_CNT_SHARE_WAIT_V (fun a => coreActive ts g n - arrActive ts a g (n / k) (n % k))

/-- Clocks for which the MMA in front certainly hides the pre-scan and the first load of one that issues now (R81, R82): the
sets that it has not begun, the emptying of the pipeline and its specials slot. Once its last set streams, how far it has
come is open. -/
def MmaFly.hides (f : MmaFly) (ts : List Strm) : Nat :=
  if !f.sweeps ts then 0
  else
    streamClocks ts f.seg f.swaps
      + (List.range (segCount ts)).foldl (fun n g => if f.seg < g then n + streamClocks ts g 0 else n) 0
      + 11 + specialsClocks ts

/-- What is exposed of an MMA's pre-scan of segment 0 and of its first weight load, which follows the weight feed's part of the
pre-scan: what runs beyond the specials slot of the MMA in front, if that has not ended (R81, R82; Table 2-16). For how long
beyond `MmaFly.hides` the MMA in front still runs is a free value (log entry 43). -/
def State.exposed (s : State) (c : Ctx) (ts : List Strm) (front : Option Nat) : State :=
  let load := ts.foldl (fun m t => max m t.loadClocks) 0
  let w := (prescanClocks ts).1
  let p := max w (prescanClocks ts).2
  let hid := match front with
    | none => 0
    | some n => n + s.free.toNat
  let s := if front.isSome then s.drawn else s
  let q := p - hid
  (s.bumpArrs c ts ARR_CNT_LOAD_STALL_V (fun _ => max p (w + load) - hid - q)).bump (coreAt c.die c.phys) CORE_CNT_PRESCAN_V q

/-- Does a pre-scan of an MMA's segment run: it has float operands and sweeps chunks of the segment? -/
def prescans (ts : List Strm) (g : Nat) : Bool := ts.any Strm.isFloat && decide (0 < segLoads ts g)

/-! ## Issue -/

/-- The arrays take up the MMA at position `pos`: its operands are admitted, its skipped streams and chunks counted. -/
def State.openMma (s : State) (c : Ctx) (pos : Nat) (i : PInstr) : State :=
  let a := coreAt c.die c.phys
  let (s, no) := (s.mmaReads c i).foldl (fun (acc : State × List (Nat × Nat)) t =>
    let (s, no) := acc.1.allow 1 false (some c.lead) t.place
    (s, acc.2 ++ no)) (s, [])
  let ts := s.streams c i no
  let front := match (s.core c.die c.phys).mmas with
    | [] => none
    | f :: _ =>
      let us := s.streams c (c.ins c.pd c.log f.idx) f.denied
      if f.slotOver us then none else some (f.hides us)
  let s := s.exposed c ts front
  let s := s.modCore c.die c.phys (fun x => { x with mmas := x.mmas ++ [{ lead := c.lead, idx := pos, denied := no }] })
  let s := s.bump a CORE_CNT_STREAM_SKIP_V ((mmaStreams i).length - ts.length)
  let all := ts.foldl (fun m t => max m ((List.range t.segs).foldl (fun n g => n + ceilDiv (t.segK g).length t.chunk) 0)) 0
  let run := (List.range (segCount ts)).foldl (fun n g => n + sweptChunks ts g) 0
  let s := s.bump a CORE_CNT_CHUNK_SKIP_V (all - run)
  let s := if prescans ts 0 then s.setFld a CORE_CONV_STAT_PRESCAN_BUSY 1 else s
  s.mmaConsume c ts

/-- MMA: issues when the arrays can take it: no other, or one that has begun streaming its last segment (R72). -/
def execMma (j : Slot) (d : Die) (l : Logical) (s : State) : Host.Outcome State Fault Refusal :=
  .next (s.issue j d l (fun i => iOp i == 0x01)
    (fun s c _ => match (s.core c.die c.phys).mmas with
      | [] => true
      | [f] =>
        let ts := s.streams c (c.ins c.pd l f.idx) f.denied
        !f.sweeps ts || (segLoads ts (f.seg + 1) == 0 && decide (0 < f.swaps))
      | _ => false)
    (fun s c pos i => (s.launch c l pos 0 i).openMma c pos i))

/-! ## Sweeps (R58, R77, R88, R93) -/

/-- ARR_STAT.BUSY of every array of a core: an MMA has issued rows on it, and not every segment is drained. -/
def State.showArrays (s : State) (c : Ctx) : State :=
  let busy := ((s.core c.die c.phys).mmas.filter (fun f => f.stage == 0 && (decide (0 < f.seg) || decide (0 < f.swaps)))).flatMap
    (fun f => arrsOf (s.streams c (c.ins c.pd c.log f.idx) f.denied))
  s.forAll [0, 1, 2, 3] (fun s a => s.setFld (arrAt c.die c.phys a) ARR_STAT_BUSY (b2n (busy.contains a)))

/-- Scale exponents that the converter keeps of segment g: rows and columns of each stream (R81, R120). -/
def segExps (ts : List Strm) (g : Nat) : Tab (List Int × List Int) :=
  (ts.filter (fun t => decide (g < t.segs))).map (fun t => (g * 16 + t.pos,
    (List.range t.act.dk.shapeR).map (fun r => (t.rowA g r).2.1), (List.range t.wgt.dk.shapeC).map (fun n => (t.colW g n).2.1)))

/-- Elements that the alignment of a segment clamps: every stream's rows, and the weights of each quadrant once (R119). -/
def segClamps (ts : List Strm) (g : Nat) : Nat :=
  ts.foldl (fun n t => (List.range t.act.dk.shapeR).foldl (fun n r => n + (t.rowA g r).2.2) n) 0
    + (List.range 4).foldl (fun n q => match ts.find? (fun t => t.quad == q) with
      | some t => (List.range t.wgt.dk.shapeC).foldl (fun n x => n + (t.colW g x).2.2) n
      | none => n) 0

/-- The rows of an array's bank after the sweeps on slice j of chunk x: an emptied bank before the segment's first. -/
def sweepBank (ts : List Strm) (front : List Byte) (g x j arr : Nat) (old : List BankRow) : List BankRow :=
  let mine := (ts.filter (fun t => t.arr == arr && t.live g x)).map (fun t => (t, t.frontRows front j))
  (List.range old.length).map (fun r => mine.foldl (fun b y =>
    if r < y.1.act.dk.shapeR then y.1.sweepRow y.2 g x j r b else b) (old.getD r ⟨[], []⟩))

/-- WEIGHT_BUFFER_SWAP: every array has issued its last row on the front buffer; the feed has written the next set or slice
into the back one; the buffers swap and the rows sweep it (R58). The first sweeps of a segment wait until the drain has
emptied their bank (R69), and a chunk's until no vote waits (R90, R92). `errs` are the parity errors met at array entry (R93). -/
def execWeightBufferSwap (j : Slot) (d : Die) (l : Logical) (errs : List Parity) (s : State) :
    Host.Outcome State Fault Refusal :=
  .next (match s.sweeper j d l with
    | none => s
    | some (c, place, f, ts) =>
      let a := coreAt d c.phys
      let k := sliceCount ts
      let g := f.seg
      let n := f.swaps
      let x := n / k
      let core := s.core d c.phys
      if (n % k = 0 && !f.pend.isEmpty) || (n = 0 && (arrsOf ts).any (fun y => (Tab.find core.banks (y * 2 + g % 2)).isSome))
        || !f.sweeps ts then s else
      let img := feedImage ts g x (n % k)
      let front := img ++ core.back.drop img.length
      let blank := fun (arr : Nat) => match ts.find? (fun t => t.arr == arr) with
        | some t => List.replicate (mmaRows ts arr) t.blankRow
        | none => []
      let banks := (arrsOf ts).foldl (fun b arr =>
        let key := arr * 2 + g % 2
        Tab.put b key (sweepBank ts front g x (n % k) arr (if n = 0 then blank arr else Tab.getD b key []))) core.banks
      let s := s.modCore d c.phys (fun y => { y with front := front, back := core.front, banks := banks })
      let ks := fun (t : Strm) => (List.range t.chunk).map (fun y => g * t.sk + x * t.chunk + y)
      let s := if ts.any (fun t => t.live g x && t.wSp (ks t)) then
          (s.bump a CORE_CNT_SPECIAL_WSETS_V).setFld a CORE_CONV_STAT_SPECIAL_SEEN 1
        else s
      let clamps := if n = 0 then segClamps ts g else 0
      let s := if clamps = 0 then s else (s.bump a CORE_CNT_ALIGN_CLAMP_V clamps).setFld a CORE_CONV_STAT_CLAMP_SEEN 1
      let s := if n = 0 then s.setFld a CORE_CONV_STAT_PRESCAN_BUSY (b2n (prescans ts (g + 1))) else s
      let s := if g = 0 && n = 0 then
          s.forAll ts (fun s t => (s.setFld (arrAt d c.phys t.arr) ARR_STAT_MODE t.mode).setFld (arrAt d c.phys t.arr)
            ARR_STAT_QUAD (b2n t.qm))
        else s
      let s := s.swapClocks c ts g n
      let met := errs.filter (fun e => ts.any (fun t => t.live g x && (ks t).contains (parityK e)))
      let exps := if n = 0 then segExps ts g ++ f.exps.filter (fun e => decide (g ≤ e.1 / 16 + 1)) else f.exps
      let last := decide (segLoads ts g ≤ n + 1)
      let f := { f with seg := if last then g + 1 else g, swaps := if last then 0 else n + 1, exps := exps,
                        errs := f.errs ++ met.map (fun e => (some g, e)) }
      (s.setMmaAt c place f).showArrays c)

/-! ## Segment drain (R65 to R67, R88 to R90, R96) -/

/-- Add a row's part into an accumulator (R65 step 6, R66). -/
def MmaFly.addTo (f : MmaFly) (key : Nat) (p : Nat × Bool) : MmaFly :=
  if f.sticky.contains key then f else
  let old := Tab.getD f.acc key 0
  let new := f32.add old p.1
  let f := { f with acc := Tab.put f.acc key new }
  if p.2 || (f32.nonfinite new && !f32.nonfinite old && !f32.nonfinite p.1) then { f with sticky := key :: f.sticky } else f

/-- Accumulate rows of a stream's segment. -/
def MmaFly.addRows (f : MmaFly) (t : Strm) (g : Nat) (rows : List (Nat × BankRow)) : MmaFly :=
  let ex := Tab.getD f.exps (g * 16 + t.pos) ([], [])
  rows.foldl (fun f r => (List.range t.wgt.dk.shapeC).foldl (fun f n =>
    f.addTo ((t.pos * 64 + r.1) * 128 + n) (t.addend r.2 (ex.1.getD r.1 0 + ex.2.getD n 0) g n)) f) f

/-- A fault strikes a row of a bank. -/
def Strm.upset (t : Strm) (u : Upset) (b : BankRow) : BankRow :=
  if u.pred then { b with pred := listMod b.pred (u.pass - 1) (fun l => listMod l t.quad (fun x => (x + u.err) % 127)) }
  else if u.lane < (if t.qm then t.perRow / 4 else t.perRow) then
    { b with lanes := listMod b.lanes (u.pass - 1) (fun l => listMod l (t.lane0 + u.lane) (fun x => x + u.err)) }
  else b

/-- The faults among `us` that strike a stream's row. -/
def Strm.upsets (t : Strm) (us : List Upset) (r : Nat) (b : BankRow) : BankRow :=
  (us.filter (fun u => u.arr == t.arr && u.quad == t.quad && u.row == r)).foldl (fun b u => t.upset u b) b

/-- Bit 0 of a number inverted. -/
def flip0 (x : Int) : Int := if x % 2 = 0 then x + 1 else x - 1

/-- An injection acts on a row (R96): on pass accumulator 1, and on the lane that LANE names modulo the lanes of the mode (log
entry 43, DESIGN CHOICE). -/
def Strm.inject (t : Strm) (v : Nat) (b : BankRow) : BankRow :=
  if bitN v 1 then { b with pred := listMod b.pred 0 (fun l => listMod l t.quad flip0) }
  else
    let w := if t.qm then t.perRow / 4 else t.perRow
    { b with lanes := listMod b.lanes 0 (fun l => listMod l (t.lane0 + bitsN v 8 2 % w) flip0) }

/-- Is row r of a stream exempt from its check in segment g (R89)? -/
def MmaFly.exempt (f : MmaFly) (t : Strm) (g r : Nat) : Bool :=
  t.exempt g r || f.errs.any (fun e => e.1 == some g &&
    (t.parRow r e.2 || (List.range t.wgt.dk.shapeC).any (fun n => t.parCol n e.2)))

/-- What the drain makes of one stream: the armed injection strikes the first row checked (in quadrant mode, of the array's
first quadrant that checks one: log entry 43); rows are checked, those that fail are flagged, the others are accumulated. An
injected row beside rows that fail of themselves belongs to their vote, which then counts as none of the injection's (log
entry 43, DESIGN CHOICE). -/
def State.drainSeg (s : State) (c : Ctx) (f : MmaFly) (ups : List Upset) (g : Nat) (t : Strm) : State × MmaFly :=
  if t.swept g = 0 then (s, f) else
  let b := arrAt c.die c.phys t.arr
  let key := t.arr * 2 + g % 2
  let core := s.core c.die c.phys
  let rows := (List.range t.act.dk.shapeR).map (fun r => t.upsets ups r ((Tab.getD core.banks key []).getD r ⟨[], []⟩))
  let checked := (List.range rows.length).filter (fun r => !f.exempt t g r)
  let hit := match Tab.find core.armed t.arr, checked with
    | some v, r :: _ => some (r, v)
    | _, _ => none
  let mine := checked.any (fun x => (t.failing (rows.getD x ⟨[], []⟩)).isSome)
  let rows := match hit with
    | some (r, v) => listMod rows r (t.inject v)
    | none => rows
  let bad := checked.filter (fun r => (t.failing (rows.getD r ⟨[], []⟩)).isSome)
  let armed := if hit.isSome then Tab.erase core.armed t.arr else core.armed
  let all := Tab.getD core.banks key []
  let s := s.modCore c.die c.phys (fun x => { x with armed := armed, banks := Tab.put x.banks key (rows ++ all.drop rows.length) })
  let s := (s.bump b ARR_CHECKS_V (checked.length * t.pass)).bumpSat b ARR_MISMATCH_COUNT bad.length
  let f := f.addRows t g (((List.range rows.length).filter (fun r => !bad.contains r)).map (fun r => (r, rows.getD r ⟨[], []⟩)))
  match bad with
  | [] => (s, f)
  | r :: _ =>
    let p := (t.failing (rows.getD r ⟨[], []⟩)).getD 0 + 1
    (s, { f with pend := f.pend ++ [{ arr := t.arr, quad := t.quad, rows := bad, pass := p, seg := g, inj := hit.isSome && !mine }] })

/-- ARR_STAT.VOTING: the next vote that may run involves its array and its sibling. The vote of the final segment runs after
the specials slot (R92, Table 2-11). -/
def State.showVotes (s : State) (c : Ctx) (f : MmaFly) (ts : List Strm) : State :=
  let now := match minBy (fun (x : Vote) => x.arr * 4 + x.quad) f.pend with
    | some w => if f.stage = 1 && ts.any Strm.isFloat then [] else w.arr :: (s.sibling c f ts w.arr).toList
    | none => []
  s.forAll [0, 1, 2, 3] (fun s a => s.setFld (arrAt c.die c.phys a) ARR_STAT_VOTING (b2n (now.contains a)))

/-- SEGMENT_DRAIN: the oldest segment whose last row has been written is drained: its residues are checked, flagged rows wait for
a vote, the others are accumulated, and the banks without flagged rows are empty. `ups` are the faults that have struck it. -/
def execSegmentDrain (j : Slot) (d : Die) (l : Logical) (ups : List Upset) (s : State) :
    Host.Outcome State Fault Refusal :=
  .next (match s.mmaOf j d l with
    | none => s
    | some (c, f, i) =>
      let ts := s.streams c i f.denied
      let g := f.drained
      if f.stage != 0 || !f.pend.isEmpty || !(decide (g < f.seg) || segLoads ts g == 0) then s else
      let (s, f) := ts.foldl (fun (acc : State × MmaFly) t => acc.1.drainSeg c acc.2 ups g t) (s, f)
      let held := f.pend.map (fun v => v.arr * 2 + g % 2)
      let s := s.modCore d c.phys (fun x => { x with
        banks := x.banks.filter (fun e => e.1 % 2 != g % 2 || !(arrsOf ts).contains (e.1 / 2) || held.contains e.1) })
      let last := decide (segCount ts ≤ g + 1)
      let f := { f with drained := g + 1, stage := if last then 1 else 0 }
      ((s.setMma c f).showArrays c).showVotes c f ts)

/-! ## Votes (R90 to R92) -/

/-- The replay of a flagged row: every slice of the segment again, with what strikes the replay. -/
def Strm.replay (t : Strm) (ts : List Strm) (g r : Nat) (us : List Upset) : BankRow :=
  let all := (List.range (t.swept g)).flatMap (fun x => (List.range t.slices).map (fun j => (x, j)))
  t.upsets us r (all.foldl (fun b y => t.sweepRow (t.frontRows (feedImage ts g y.1 y.2) y.2) g y.1 y.2 r b) t.blankRow)

/-- How one flagged row is decided (Table 2-10): 1 the checker failed, 2 the array failed, 3 neither agrees. -/
def Strm.verdict (t : Strm) (old new : BankRow) : Nat :=
  let ps := List.range t.pass
  if ps.all (fun p => t.lanesOf new p == t.lanesOf old p) then 1
  else if ps.all (fun p => checksum (t.lanesOf new p) == t.predOf old p) then 2
  else 3

/-- RESIDUE_VOTE: the first array and quadrant that waits for a vote is decided: each flagged row by Table 2-10, the vote by the
worst. Several quadrants of one array vote one after another, in ascending quadrant order; a three-way verdict poisons the
stream of the flagged quadrant; a vote without a sibling takes no clocks in ARR_CNT_VOTE; an injected vote without one logs
three-way and adds no row, and neither poisons nor retires (log entry 43, DESIGN CHOICE). `ups` are the faults that strike
the replay. -/
def execResidueVote (j : Slot) (d : Die) (l : Logical) (ups : List Upset) (s : State) : Host.Outcome State Fault Refusal :=
  .next (match s.mmaOf j d l with
    | none => s
    | some (c, f, i) =>
      let ts := s.streams c i f.denied
      match minBy (fun (x : Vote) => x.arr * 4 + x.quad) f.pend with
      | none => s
      | some w =>
        if f.stage = 1 && ts.any Strm.isFloat then s else
        match ts.find? (fun t => t.arr == w.arr && t.quad == w.quad) with
        | none => s
        | some t =>
          let key := w.arr * 2 + w.seg % 2
          let bank := Tab.getD (s.core d c.phys).banks key []
          let sib := s.sibling c f ts w.arr
          let old := w.rows.map (fun r => (r, bank.getD r ⟨[], []⟩))
          let new := w.rows.map (fun r => (r, t.replay ts w.seg r ups))
          let outcome := if sib.isNone then 3 else (old.zip new).foldl (fun m x => max m (t.verdict x.1.2 x.2.2)) 1
          let b := arrAt d c.phys w.arr
          let slot := c.memberSlot w.arr
          let log := outcome + (sib.getD 0) * 4 + b2n t.qm * 16 + (if t.qm then w.quad * 32 else 0)
            + (w.rows.headD 0) % 64 * 2 ^ 7 + w.rows.length % 128 * 2 ^ 13 + w.pass % 4 * 2 ^ 20 + b2n w.inj * 2 ^ 22
            + w.seg % 4096 * 2 ^ 24 + slot % 64 * 2 ^ 36
          let s := s.setReg (ARR_VOTE_LOG_OUTCOME.at b 0) (BitVec.ofNat 64 log)
          let s := if w.inj then s
            else if outcome = 1 then (s.setFld b ARR_STAT_CHK_SUSPECT 1).bumpSat b ARR_STAT_CHK_VERDICTS
            else if outcome = 2 then (s.setFld b ARR_STAT_ARR_SUSPECT 1).bumpSat b ARR_STAT_ARR_VERDICTS
            else s.modCore d c.phys (fun x => { x with retiring := true })
          let s := match sib with
            | some x =>
              let n := t.voteClocks w.seg w.rows.length
              (s.bump b ARR_CNT_VOTE_V n).bump (arrAt d c.phys x) ARR_CNT_VOTE_V n
            | none => s
          let rest := f.pend.filter (fun x => !(x.arr == w.arr && x.quad == w.quad))
          let f := { f with pend := rest, votes := f.votes ++ [{ w with outcome := outcome }],
                            bad := if outcome = 3 && !w.inj then t.pos :: f.bad else f.bad }
          let f := if outcome = 1 then f.addRows t w.seg old else if outcome = 2 then f.addRows t w.seg new else f
          let s := if rest.any (fun x => x.arr == w.arr) then s
            else s.modCore d c.phys (fun x => { x with banks := Tab.erase x.banks key })
          let m := c.member w.arr
          ((s.setMma c f).showVotes c f ts).event slot
            { type := 0x0F, die := some d.val, seq := some (c.run.seqs.getD m 0), step := some c.run.step, a := log,
              b := coreWord l w.arr w.quad t.qm })

/-! ## Specials pass (R83 to R87, R123) -/

/-- SPECIALS_PASS: the slot after the last segment drain; flagged rows are counted (R83, R84, R123). When some flag is raised the
mask planes are read: `errs` are the parity errors that they meet (R87, R93). The pass is not residue-checked. -/
def execSpecialsPass (j : Slot) (d : Die) (l : Logical) (errs : List Parity) (s : State) : Host.Outcome State Fault Refusal :=
  .next (match s.mmaOf j d l with
    | none => s
    | some (c, f, i) =>
      if f.stage != 1 then s else
      let ts := s.streams c i f.denied
      let runs := ts.any Strm.isFloat && ts.any Strm.flagged
      let rows := if runs then ts.foldl (fun n t => n + ((List.range t.act.dk.shapeR).filter t.rowSp).length) 0 else 0
      let a := coreAt d c.phys
      let s := s.bump a CORE_CNT_SPECIAL_ROWS_V rows
      let s := if rows = 0 then s else s.setFld a CORE_CONV_STAT_SPECIAL_SEEN 1
      let s := s.bumpArrs c ts (if runs then ARR_CNT_SLOT_USED_V else ARR_CNT_SLOT_IDLE_V) (fun _ => specialsClocks ts)
      let f := { f with stage := 2, errs := f.errs ++ (if runs then errs.map (fun e => (none, e)) else []) }
      (s.setMma c f).showVotes c f ts)

/-! ## Output drain (R70, R85, R86, R112, R113, R128 to R130) -/

/-- One output as the drain forms it. -/
structure DrainOut where
  i    : Nat
  j    : Nat
  conv : Conv
  /-- The FP32 value that enters conversion (R144). -/
  src  : Nat
  /-- floor(log2) of the output under the first output scale exponent, where it is finite and not zero; an output whose
  accumulator overflowed has none (R142; log entry 46). -/
  top  : Option Int
  cls  : Nat
  zinf : Bool
  p    : Bool

/-- Scale element of an auxiliary deckle, 1.0 where it has none (R111, R190). -/
def Strm.scale (t : Strm) (x : Option TileAt) (k : Nat) : Nat :=
  match x with
  | none => one32
  | some y => if y.has t.rtl 0 k then elemF32 y.dk.format [] one32 (y.raw t.m 0 k) else one32

/-- Multiply an output by a finite scale that is not zero: value and sticky bit. -/
def scaleBy (v : Nat × Bool) (sc : Nat) : Nat × Bool :=
  let y := f32.mul v.1 sc
  (y, v.2 || (f32.nonfinite y && !f32.nonfinite v.1))

/-- Multiply an output by its weight scale, then by its activation scale (R70 step 1, R113): a scale that is NaN or infinite gives
the canonical NaN; a zero scale gives a zero with the sign of the unscaled sum. -/
def scaleOut (v : Nat × Bool) (w a : Nat) : Nat × Bool :=
  if f32.nonfinite w || f32.nonfinite a then (f32.nanBits, false)
  else if w % 2 ^ 31 = 0 || a % 2 ^ 31 = 0 then (v.1 / 2 ^ 31 % 2 * 2 ^ 31, false)
  else scaleBy (scaleBy v w) a

/-- Output scale exponent of a stream's tensor, and the next one (R112). -/
def State.xOuts (s : State) (c : Ctx) (t : Strm) : Int × Int :=
  match planTensorIdx c.pl t.out.dk.tensor with
  | none => (0, 4)
  | some k =>
    let e := planTensor c.pl k
    let x := (s.job (c.ownerSlot k)).xOut e k
    (x, x + e.xStep)

/-- The outputs of a stream under output scale exponent `x`. `last`: the recompute slot, where RECOMPUTE saturates. -/
def State.drainStream (s : State) (c : Ctx) (i : PInstr) (f : MmaFly) (t : Strm) (x : Int) : List DrainOut :=
  let fl := t.flagged && t.isFloat
  let book := s.book c.die c.phys t.out.dk.cb
  (t.out.dk.elems t.rtl).map (fun e =>
    let key := (t.pos * 64 + e.1) * 128 + e.2
    let v0 := (Tab.getD f.acc key 0, f.sticky.contains key)
    let v2 := scaleOut v0 (if t.gsc.isSome then one32 else t.scale t.wsc e.2) (t.scale t.asc e.1)
    let cl := if fl then t.cls e.1 e.2 else (0, false)
    let v : FVal := if cl.1 = 1 then .nan else if cl.1 = 2 then .inf false else if cl.1 = 3 then .inf true
      else (f32.dec v2.1).scale (-x)
    let sticky := cl.1 == 0 && v2.2
    let u := if convRound (mmaConv i) = 2 then
        s.draw c (mmaRstream i) t.out.dk.tensor (t.out.dk.orgR + e.1) (t.out.dk.orgC + e.2)
      else 0
    let cv := convert t.out.dk.format book (convMode (mmaConv i)) (convRnd (mmaConv i) u) v sticky
    ⟨e.1, e.2, cv, f32.enc v, if cl.1 = 0 && !v2.2 then ((f32.dec v2.1).scale (-(s.xOuts c t).1)).log2 else none, cl.1, cl.2, f.bad.contains t.pos || t.outP e.1 e.2
      || f.errs.any (fun x => t.parRow e.1 x.2 || t.parCol e.2 x.2)⟩)

/-- Write a stream's outputs. -/
def State.drainWrite (s : State) (c : Ctx) (t : Strm) (os : List DrainOut) : State :=
  s.putElems c 1 t.out (os.map (fun o => ⟨o.i, o.j, o.conv.code, o.p⟩))

/-- OUTPUT_DRAIN: the outputs are written; a stream with a value out of range under RECOMPUTE raises its overflow flag. -/
def execOutputDrain (j : Slot) (d : Die) (l : Logical) (s : State) : Host.Outcome State Fault Refusal :=
  .next (match s.mmaOf j d l with
    | none => s
    | some (c, f, i) =>
      let ts := s.streams c i f.denied
      if !f.pend.isEmpty || f.stage = 0 || f.stage = 3 || (f.stage = 1 && ts.any Strm.isFloat) then s else
      let outs := ts.map (fun t => (t, s.drainStream c i f t (s.xOuts c t).1))
      let excess := (outs.filter (fun x => convMode (mmaConv i) == 2 && x.2.any (fun o => o.cls == 0 && o.conv.excess))).map
        (fun x => x.1.pos)
      let s := s.forAll outs (fun s x => s.drainWrite c x.1 x.2)
      s.setMma c { f with stage := 3, excess := excess })

/-! ## Recompute slot and completion (R71, R404) -/

/-- A tile status record (Table 10-12). -/
def tileRecord (c : Ctx) (i : PInstr) (f : MmaFly) (t : Strm) (os : List DrainOut) (phase : Bool) : List Byte :=
  let n := fun (p : DrainOut → Bool) => min 65535 (os.filter p).length
  let vote := (f.votes.filter (fun v => v.arr == t.arr && v.quad == t.quad)).foldl (fun m v => max m v.outcome) 0
  let fl := b2n (f.excess.contains t.pos) + 2 * b2n (f.excess.contains t.pos && os.any (fun o => o.conv.excess))
    + 4 * b2n (os.any (fun o => o.p)) + 8 * b2n (vote != 0) + vote % 4 * 16 + 128 * b2n phase
  bytesLE 4 t.out.dk.tensor ++ bytesLE 4 t.out.dk.problem ++ bytesLE 4 t.out.dk.orgR ++ bytesLE 4 t.out.dk.orgC
    ++ bytesLE 4 c.run.step ++ bytesLE 2 (n (fun o => o.cls == 1 && o.zinf)) ++ bytesLE 2 (n (fun o => o.cls == 1))
    ++ bytesLE 2 (n (fun o => o.cls == 2 || o.cls == 3)) ++ bytesLE 1 c.log
    ++ bytesLE 1 (t.arr + t.quad * 4 + b2n (mmaQuadMode i) * 16 + c.pd * 32) ++ bytesLE 1 fl ++ zeros 3

/-- Write a record into the run's tile status ring, if it has one. It is half of a granule, whose poison stays (R282, R295). -/
def State.tileStatus (s : State) (c : Ctx) (rec : Bool → List Byte) : State :=
  match (s.job c.lead).run with
  | none => s
  | some r =>
    if r.tileLa = 0 then s else
    let n := 2 ^ r.tileLog
    let la := r.tileLa + r.tiles % n * 32
    let s := s.larderWrite la (rec (r.tiles / n % 2 == 0)) (s.larder.poisoned la)
    s.modRun c.lead (fun r => { r with tiles := r.tiles + 1 })

/-- The pairs of a stream whose tensor has a WRITE point: its logical elements in sampled rows (R143, R144, R312). -/
def State.drainPairs (s : State) (c : Ctx) (idx : Nat) (t : Strm) (os : List DrainOut) : List PairAt :=
  match planTensorIdx c.pl t.out.dk.tensor with
  | none => []
  | some k =>
    if !c.writePoint k then [] else
    let book := s.book c.die c.phys t.out.dk.cb
    (os.filter (fun o => s.sampled (c.ownerSlot k) c.run.step (t.out.dk.orgR + o.i))).map (fun o =>
      ⟨t.out.dk.orgR + o.i, t.out.dk.orgC + o.j,
       ⟨c.orderOf idx, tallyKey c.lead k, o.src, convBack t.out.dk.format book one32 o.conv.code⟩⟩)

/-- RECOMPUTE_SLOT: tiles that overflowed are drained again under the next exponent; then tallies, records, events and
measurement pairs are made, and the MMA completes. -/
def execRecomputeSlot (j : Slot) (d : Die) (l : Logical) (s : State) : Host.Outcome State Fault Refusal :=
  .next (match s.mmaOf j d l with
    | none => s
    | some (c, f, i) =>
      if f.stage != 3 then s else
      let ts := s.streams c i f.denied
      let outs := ts.map (fun t =>
        let x := s.xOuts c t
        (t, s.drainStream c i f t (if f.excess.contains t.pos then x.2 else x.1)))
      let a := coreAt d c.phys
      let one := fun (s : State) (x : Strm × List DrainOut) =>
        let (t, os) := x
        let s := if f.excess.contains t.pos then s.drainWrite c t os else s
        let s := if convRound (mmaConv i) = 2 then
            s.bump a VEC_CNT_DRAWS_V (drawBlocks t.out.dk (os.map (fun o => (o.i, o.j))))
          else s
        let s := match planTensorIdx c.pl t.out.dk.tensor with
          | none => s
          | some k =>
            if !c.writePoint k then s else s.modTally c k (fun y =>
              let y := y.mark (os.map (fun o => ⟨o.conv.event, o.top, o.p⟩))
              { y with tiles := y.tiles + 1, recomp := y.recomp + b2n (f.excess.contains t.pos) })
        let report := f.excess.contains t.pos || os.any (fun o => o.cls != 0 || o.p)
          || f.votes.any (fun v => v.arr == t.arr && v.quad == t.quad)
        if report then s.tileStatus c (tileRecord c i f t os) else s
      let s := outs.foldl one s
      let s := if outs.any (fun x => decide (x.2.length < x.1.out.dk.shapeR * x.1.out.dk.shapeC)) then
          s.bump a CORE_CNT_EDGE_WRITE_V else s
      let s := s.queuePairs d c.phys c.run.phase (pairOrder (outs.flatMap (fun x => s.drainPairs c f.idx x.1 x.2)))
      let total := outs.foldl (fun n x => n + (x.2.filter (fun o => o.cls == 1 && o.zinf)).length) 0
      let s := match outs.findSome? (fun x => (x.2.find? (fun o => o.cls == 1 && o.zinf)).map (fun o => (x.1, o))) with
        | none => s
        | some (t, o) =>
          s.event (c.memberSlot t.arr) { type := 1, die := some d.val, seq := some (c.run.seqs.getD (c.member t.arr) 0),
                                         step := some c.run.step, tensor := some t.out.dk.tensor, a := t.out.dk.orgR + o.i,
                                         b := t.out.dk.orgC + o.j, c := t.out.dk.problem,
                                         d := coreWord l t.arr t.quad (mmaQuadMode i), e := min total (2 ^ 32 - 1) }
      let ran := fun a => ts.any (fun t => t.arr == a && f.excess.contains t.pos)
      let slot := drainClocks ts
      let s := s.bumpArrs c ts ARR_CNT_SLOT_USED_V (fun a => if ran a then slot else 0)
      let s := s.bumpArrs c ts ARR_CNT_SLOT_IDLE_V (fun a => if ran a then 0 else slot)
      let s := s.modCore d c.phys (fun x => { x with mmas := x.mmas.drop 1 })
      s.retire j d l f.idx)

/-- ARR_INJECT: a write acts only under D2; ARM = 1 arms one injection, ARM = 0 leaves it (R96). -/
def State.arrInject (s : State) (d p a v : Nat) : State :=
  if s.d2 && v % 2 == 1 then s.modCore d p (fun x => { x with armed := Tab.put x.armed a (v % 512) }) else s

/-- ARR_INJECT. -/
def execArrInject (d : Die) (p : Phys) (a : Arr) (v : Nat) (s : State) : Host.Outcome State Fault Refusal :=
  .next (s.served (arrAt d p a) (fun s => s.arrInject d p a v))

end Sys2Proof.Machine
end

