-- ==== Sys2Proof/Machine/Functions.lean ====
section
/-!
DEFINITION. The functions of the beater (R300): exp, log, rsqrt, GELU and SiLU give one of the FP32 values within 1 ulp of the
exact value, the same one for the same input bits (log entry 10). The exact value is formed with 800 fraction bits, far more than
tells it from every FP32 value that it does not equal.
-/
namespace Sys2Proof.Machine

/-- A NaN pattern? -/
def nan32 (w : Nat) : Bool := decide (0x7F800000 < w % 2 ^ 31)

/-! ## Fixed point with 800 fraction bits -/

/-- 1.0. -/
def fxOne : Int := 2 ^ 800
/-- Product. -/
def fxMul (a b : Int) : Int := a * b / fxOne
/-- Quotient. -/
def fxDiv (a b : Int) : Int := a * fxOne / b
/-- A finite FP32 value. -/
def fxOf (w : Nat) : Int :=
  match f32.dec w with
  | .fin neg m e => smant neg m * fxOne / 2 ^ (-e).toNat * 2 ^ e.toNat
  | _ => 0

/-- Σ t(n) for n from 0, where t(0) is given and t(n + 1) = next n t(n), over `k` terms weighed by `w`. -/
def fxSeries (next : Nat → Int → Int) (w : Nat → Int → Int) (k : Nat) (t0 : Int) : Int :=
  ((List.range k).foldl (fun (acc : Int × Int) n => (acc.1 + w n acc.2, next n acc.2)) (0, t0)).1

/-- e^x by its series on x / 2^16, squared sixteen times. -/
def fxExp (x : Int) : Int :=
  let r := x / 2 ^ 16
  let y := fxSeries (fun n t => fxMul t r / ((n : Int) + 1)) (fun _ t => t) 64 fxOne
  (List.range 16).foldl (fun y _ => fxMul y y) y

/-- 2 × artanh(y) for |y| ≤ 1/3. -/
def fxArtanh2 (y : Int) : Int :=
  2 * fxSeries (fun _ t => fxMul t (fxMul y y)) (fun n t => t / (2 * (n : Int) + 1)) 260 y

/-- arctan(1 / q). -/
def fxArctan (q : Int) : Int :=
  fxSeries (fun _ t => -t / (q * q)) (fun n t => t / (2 * (n : Int) + 1)) 360 (fxOne / q)

/-- The logarithm of m × 2^e, m not 0. -/
def fxLog (m : Nat) (e : Int) : Int :=
  let k := m.log2
  let t := (m : Int) * fxOne / 2 ^ k
  fxArtanh2 (fxDiv (t - fxOne) (t + fxOne)) + (e + (k : Int)) * fxArtanh2 (fxOne / 3)

/-- 1 / √(2π). -/
def fxInvRoot2Pi : Int :=
  let pi := 4 * (4 * fxArctan 5 - fxArctan 239)
  fxDiv fxOne (isqrt (2 * pi * fxOne).toNat)

/-- The distribution function Φ of the standard normal for |x| ≤ 16. -/
def fxPhi (x : Int) : Int :=
  fxOne / 2 + fxMul fxInvRoot2Pi
    (fxSeries (fun n t => -fxMul t (fxMul x x) / (2 * ((n : Int) + 1))) (fun n t => t / (2 * (n : Int) + 1)) 900 x)

/-! ## Choosing among the values within 1 ulp -/

/-- One of the FP32 values within 1 ulp of an exact finite value: the two beside it, or itself and the two beside it where it is
one. `pick` chooses. -/
def near32 (pick : Nat) (v : FVal) : Nat :=
  match v with
  | .fin neg m e =>
    let t := f32.roundMag .trunc m e
    let sg := b2n neg * 2 ^ 31
    if f32.top ≤ t then sg + (if pick % 2 = 0 then f32.maxBits else f32.top)
    else
      let exact := match (f32.dec t).add (.fin true m e) with
        | .fin _ z _ => z == 0
        | _ => false
      if !exact then sg + t + pick % 2
      else if pick % 3 = 0 then sg + t
      else if pick % 3 = 1 then sg + t + 1
      else if t = 0 then 2 ^ 31 - sg + 1
      else sg + t - 1
  | _ => f32.nanBits

/-- Of a fixed-point value. -/
def nearFx (pick : Nat) (x : Int) : Nat := near32 pick (.fin (decide (x < 0)) x.natAbs (-800))

/-- A function of FP32 (R101, R300): the canonical NaN for a NaN; else what `exact` gives with the function's own choice; an open
value where that names no result. -/
def fn32 (choice : Nat → Nat) (exact : Nat → Nat → Option Nat) (x : Nat) : Nat :=
  if nan32 x then f32.nanBits else (exact (choice x) x).getD (choice x % 2 ^ 32)

/-- exp. Beyond 2^8 the exact value lies above every FP32 value, below −2^8 under the smallest one. -/
def exp32 : Nat → Nat := fn32 Config.expFn (fun pick x =>
  if x = 0x7F800000 then some 0x7F800000 else if x = 0xFF800000 then some 0
  else if 0x43800000 ≤ x % 2 ^ 31 then some (if bitN x 31 then pick % 2 else 0x7F800000 - pick % 2)
  else some (nearFx pick (fxExp (fxOf x))))
/-- The natural logarithm; of zeros and negative numbers none is stated. -/
def log32 : Nat → Nat := fn32 Config.logFn (fun pick x =>
  if x = 0x7F800000 then some x else if bitN x 31 then none else
  match f32.dec x with
  | .fin _ m e => if m = 0 then none else some (nearFx pick (fxLog m e))
  | _ => none)
/-- The reciprocal square root; of zeros, negative numbers and infinities none is stated. -/
def rsqrt32 : Nat → Nat := fn32 Config.rsqrtFn (fun pick x =>
  if bitN x 31 then none else
  match f32.dec x with
  | .fin n m e => if m = 0 then none else
    some (near32 pick (FVal.sqrt (FVal.div (.fin n 1 0) (.fin n m e))))
  | _ => none)
/-- GELU: x Φ(x). From 16 on the exact value lies under x by less than an ulp, from −16 on above −2^−149. -/
def gelu32 : Nat → Nat := fn32 Config.geluFn (fun pick x =>
  if 0x7F800000 ≤ x % 2 ^ 31 then none
  else if 0x41800000 ≤ x % 2 ^ 31 then some (if bitN x 31 then 2 ^ 31 + pick % 2 else x - pick % 2)
  else if x % 2 ^ 31 = 0 then some (if pick % 3 = 0 then x else if pick % 3 = 1 then 1 else 2 ^ 31 + 1)
  else some (nearFx pick (fxMul (fxOf x) (fxPhi (fxOf x)))))
/-- SiLU: x / (1 + exp(−x)). From 128 on the exact value lies under x by less than an ulp, from −128 on above −2^−149. -/
def silu32 : Nat → Nat := fn32 Config.siluFn (fun pick x =>
  if 0x7F800000 ≤ x % 2 ^ 31 then none
  else if 0x43000000 ≤ x % 2 ^ 31 then some (if bitN x 31 then 2 ^ 31 + pick % 2 else x - pick % 2)
  else if x % 2 ^ 31 = 0 then some (if pick % 3 = 0 then x else if pick % 3 = 1 then 1 else 2 ^ 31 + 1)
  else some (nearFx pick (fxDiv (fxOf x) (fxOne + fxExp (-fxOf x)))))
/-- The derivatives of GELU and SiLU, for which R300 states no bound: open. -/
def dgelu32 : Nat → Nat := fn32 Config.dgeluFn (fun _ _ => none)
/-- SiLU's. -/
def dsilu32 : Nat → Nat := fn32 Config.dsiluFn (fun _ _ => none)

end Sys2Proof.Machine
end

