-- ==== Sys2Proof/Machine/Beater.lean ====
section
/-!
DEFINITION. The beater (R300 to R331): its VEC operations. A VEC issues and computes in one step; it completes in the same step
unless pairs of it have to wait for an array instruction that issued before it.
-/
namespace Sys2Proof.Machine

/-- A VEC at work: context, position, instruction, its operand tiles (D0 to D3, P) and the memory that each is read from. -/
structure Vec where
  c     : Ctx
  pos   : Nat
  i     : PInstr
  tiles : List TileAt
  views : List Mem
  core  : Core

/-- Operand tile k. -/
def Vec.t (v : Vec) (k : Nat) : TileAt := v.tiles.getD k ⟨Deckle.ofBytes [], ⟨0, 0, 0, 0, 0⟩, 0⟩
/-- Memory that operand k is read from. -/
def Vec.m (v : Vec) (k : Nat) : Mem := v.views.getD k {}
/-- Run-time lengths. -/
def Vec.rtl (v : Vec) : Tab Nat := v.c.run.rtl
/-- VMODE bit. -/
def Vec.mode (v : Vec) (b : Nat) : Bool := bitN (vecMode v.i) b
/-- Conversion control. -/
def Vec.conv (v : Vec) : Nat := leAt v.i 29 1
/-- Random stream. -/
def Vec.stream (v : Vec) : Nat := leAt v.i 30 1
/-- Codebook of an operand. -/
def Vec.book (v : Vec) (k : Nat) : List Nat := Tab.getD v.core.books (v.t k).dk.cb []
/-- Loss-scale exponent in force for the member that owns an operand's tensor (R305). -/
def Vec.ls (v : Vec) (k : Nat) : Int :=
  let o := match planTensorIdx v.c.pl (v.t k).dk.tensor with
    | some x => (planTensor v.c.pl x).owner
    | none => 0
  v.c.run.ls.getD o 0

/-- Is element (i, j) of operand k logical? -/
def Vec.has (v : Vec) (k i j : Nat) : Bool :=
  (vecDeckle v.i k).isSome && decide (i < (v.t k).dk.rowsIn v.rtl) && decide (j < (v.t k).dk.colsIn v.rtl)

/-- What an element beyond the logical extent enters as (Table 5-4, the classes of Table 8-2). An operation that first finds a
maximum and then goes element by element reduces over logical elements alone, so that its elements enter as 0. -/
def vopIdent (vop : Nat) : Nat :=
  if [0x11, 0x13, 0x1C, 0x1E].contains vop then negInf32 else if vop = 0x12 || vop = 0x14 then posInf32 else 0

/-- FP32 value of element (i, j) of operand k: the identity beyond the logical extent (R190), LS removed from D0 (R305). -/
def Vec.x (v : Vec) (k i j : Nat) : Nat :=
  if !v.has k i j then vopIdent (vecOp v.i) else
  let t := v.t k
  let w := elemF32 t.dk.format (v.book k) one32 (t.raw (v.m k) i j)
  if k = 0 && v.mode 5 then f32.enc ((f32.dec w).scale (-(v.ls 0))) else w

/-- Is logical element (i, j) of operand k poisoned? -/
def Vec.p (v : Vec) (k i j : Nat) : Bool := v.has k i j && (v.t k).pois (v.m k) i j

/-- Is a logical element of row i of operand k poisoned? -/
def Vec.rowP (v : Vec) (k i : Nat) : Bool := (List.range ((v.t k).dk.colsIn v.rtl)).any (fun j => v.p k i j)
/-- Is a logical element of column j of operand k poisoned? -/
def Vec.colP (v : Vec) (k j : Nat) : Bool := (List.range ((v.t k).dk.rowsIn v.rtl)).any (fun i => v.p k i j)

/-- `n` bytes at offset `o` of the parameter deckle's region. -/
def Vec.par (v : Vec) (o n : Nat) : Nat := (v.m 4).readN ((v.t 4).place.key + o) n
/-- Bytes of the parameter deckle that an operation takes as a block (R311, R313, R322, Table 8-4); NORM_BWD takes its γ by
elements. -/
def vopBlock (vop : Nat) : Nat :=
  if vop = 0x05 || vop = 0x18 || vop = 0x19 then 4 else if vop = 0x06 then 3 else if vop = 0x20 || vop = 0x21 then 29
  else if vop = 0x28 || vop = 0x29 then 12 else 0
/-- Is the parameter block poisoned? -/
def Vec.parP (v : Vec) : Bool :=
  (vecDeckle v.i 4).isSome && (v.m 4).anyPoison (v.t 4).place.key (vopBlock (vecOp v.i))

/-- Logical columns and rows of operand k. -/
def Vec.cols (v : Vec) (k : Nat) : Nat := (v.t k).dk.colsIn v.rtl
/-- Logical rows of operand k. -/
def Vec.rows (v : Vec) (k : Nat) : Nat := (v.t k).dk.rowsIn v.rtl
/-- A row of operand k: (column, value) of its logical elements; none beyond its logical rows. -/
def Vec.row (v : Vec) (k i : Nat) : List (Nat × Nat) :=
  if i < v.rows k then (List.range (v.cols k)).map (fun j => (j, v.x k i j)) else []

/-! ## Reductions (R303, R565) -/

/-- Combine neighbours pairwise. -/
def pairUp (op : Nat → Nat → Nat) : List Nat → List Nat
  | a :: b :: t => op a b :: pairUp op t
  | l => l

/-- Reduce a row: element c to lane c mod 128, each lane ascending, then the fixed pairwise tree (R303). -/
def reduce (op : Nat → Nat → Nat) (ident : Nat) (xs : List (Nat × Nat)) : Nat :=
  let lane := fun l => match (xs.filter (fun x => x.1 % 128 == l)).map Prod.snd with
    | [] => ident
    | a :: t => t.foldl op a
  let up := pairUp op
  (up (up (up (up (up (up (up ((List.range 128).map lane)))))))).headD ident

/-- FP32 sum of a row. -/
def sum32 (xs : List (Nat × Nat)) : Nat := reduce f32.add 0 xs

/-- Place of an FP32 pattern that is no NaN in the total order of R565. -/
def order32 (w : Nat) : Int := if bitN w 31 then -(Int.ofNat (w % 2 ^ 31)) - 1 else (w : Int)

/-- The winning (column, value) of a row under R565, the greatest (true) or least; none in an empty row. -/
def winner (greatest : Bool) (xs : List (Nat × Nat)) : Option (Nat × Nat) :=
  match xs.find? (fun x => nan32 x.2) with
  | some x => some (x.1, f32.nanBits)
  | none => xs.foldl (fun acc x => match acc with
    | none => some x
    | some b => if (if greatest then order32 b.2 < order32 x.2 else order32 x.2 < order32 b.2) then some x else some b) none

/-! ## Writing outputs -/

/-- A converted output element: its code, its tally event, the value that entered conversion, what the code reads back as in FP32,
and whether it is poisoned. -/
structure OutEl where
  i     : Nat
  j     : Nat
  code  : Nat
  event : Nat
  src   : FVal
  back  : Nat
  p     : Bool

/-- Write converted elements into operand k: enables, tally, measurement, the blocks drawn (R193, R301, R310, R312, R316). -/
def State.writeOut (s : State) (v : Vec) (k : Nat) (draws : Bool) (os : List OutEl) : State :=
  let t := v.t k
  let s := s.putElems v.c 3 t (os.map (fun o => ⟨o.i, o.j, o.code, o.p⟩))
  let a := coreAt v.c.die v.c.phys
  let s := s.bump a VEC_CNT_ELEMS_V os.length
  let s := if draws then s.bump a VEC_CNT_DRAWS_V (drawBlocks t.dk (os.map (fun o => (o.i, o.j)))) else s
  match planTensorIdx v.c.pl t.dk.tensor with
  | none => s
  | some x =>
    if !v.c.writePoint x then s else
    let s := s.modTally v.c x (fun y => y.mark (os.map (fun o => ⟨o.event, o.src.log2, o.p⟩)))
    if !v.mode 6 then s else
    s.pairs v.c.die v.c.phys (pairOrder ((os.filter (fun o =>
        s.sampled (v.c.ownerSlot x) v.c.run.step (t.dk.orgR + o.i))).map (fun o =>
      ⟨t.dk.orgR + o.i, t.dk.orgC + o.j, ⟨v.c.orderOf v.pos, tallyKey v.c.lead x, f32.enc o.src, o.back⟩⟩)))

/-- Multiply by 2^k: exact, unless the result leaves the FP32 normal range, where it is rounded to FP32 (R305). -/
def lsScale (k : Int) (x : FVal) : FVal :=
  let y := x.scale k
  match y.log2 with
  | some l => if -126 ≤ l ∧ l ≤ 127 then y else f32.dec (f32.enc y)
  | none => y

/-- A value to be converted into an output element. -/
structure Elem where
  i : Nat
  j : Nat
  v : FVal
  p : Bool

/-- Convert values into operand k and write them. `apply`: LS_APPLY multiplies them (R305). `key`: the key tensor of an operation
that draws by itself; else draws are made where ROUND asks for them, under the operand's own tensor (R315, R322). `raw`: a code
that is written in place of the converted one. -/
def State.emit (s : State) (v : Vec) (k : Nat) (es : List Elem) (apply : Bool := true) (key : Option Nat := none)
    (raw : Elem → Option Nat := fun _ => none) : State :=
  let t := v.t k
  let st := convRound v.conv == 2
  let u := fun (e : Elem) => if st then
      s.draw v.c v.stream (key.getD t.dk.tensor) (t.dk.orgR + e.i) (t.dk.orgC + e.j)
    else 0
  s.writeOut v k (st || key.isSome) ((es.filter (fun e => v.has k e.i e.j)).map (fun e =>
    let x := if apply && v.mode 4 then lsScale (v.ls k) e.v else e.v
    let c := convert t.dk.format (v.book k) (convMode v.conv) (convRnd v.conv (u e)) x
    let code := (raw e).getD c.code
    ⟨e.i, e.j, code, c.event, x, convBack t.dk.format (v.book k) one32 code, e.p⟩))

/-! ## Time in the beater (R308) -/

/-- Elements per clock of an operation (Table 8-2); `wide`: the 16-bit width. -/
def vopRate (vop : Nat) (wide : Bool) : Nat :=
  if vop ≤ 0x05 then (if wide then 256 else 128)
  else if (8 ≤ vop && vop ≤ 0x0C) || [0x15, 0x1C, 0x1E, 0x21].contains vop then 32
  else if vop = 0x20 then 16 else if 0x30 ≤ vop then 1 else 128
/-- Passes of an operation (Table 8-2). -/
def vopPasses (vop : Nat) : Nat :=
  if vop = 0x1C then 3 else if [0x18, 0x19, 0x1A, 0x1D, 0x1E, 0x24, 0x2C].contains vop then 2 else 1
/-- Passes that end in a cross-lane reduction: one in an operation that reduces rows, two where a maximum and a sum are formed
(R311); the sums of NORM_PGRAD run down the columns, within a lane. DEDUCED, log entry 43. -/
def vopReductions (vop : Nat) : Nat :=
  if vop = 0x1C || vop = 0x1E then 2
  else if (0x10 ≤ vop && vop ≤ 0x15) || [0x18, 0x19, 0x1A, 0x1D, 0x24, 0x2C].contains vop then 1 else 0

/-- The most bytes that places, each counted a number of times, have in one bank. -/
def bankBusiest (ps : List (Place × Nat)) : Nat :=
  let m := ps.foldl (fun (m : Tab Nat) p => p.1.pieces.foldl (fun m x => Tab.put m x.1 (Tab.getD m x.1 0 + x.2.2 * p.2)) m) []
  m.foldl (fun a e => max a e.2) 0

/-- Clocks that a VEC occupies the beater. D0 is read in each pass, every other operand once. -/
def Vec.clocks (v : Vec) (vop : Nat) : Nat :=
  let d0 := v.t 0
  let n := if vop = 0x2D then d0.place.len / 4160 * 2048
    else if 0x30 ≤ vop then (d0.dk.elems v.rtl).length
    else d0.dk.shapeR * d0.dk.shapeC
  let ps := vopPasses vop
  let ks := (List.range 5).filter (fun k => (vecDeckle v.i k).isSome)
  let rd := bankBusiest ((ks.filter (vopReads vop)).map (fun k => ((v.t k).place, if k = 0 then ps else 1)))
  let wr := bankBusiest ((ks.filter (vopWrites vop)).map (fun k => ((v.t k).place, 1)))
  12 + max (ps * ceilDiv n (vopRate vop (bitsN (vecMode v.i) 1 0 == 1))) (max (ceilDiv rd 64) (ceilDiv wr 64))
    + 8 * d0.dk.shapeR * vopReductions vop

/-! ## Issue -/

/-- Is the update of an optimizer instruction skipped (R320)? -/
def State.skipsUpdate (s : State) (v : Vec) : Bool :=
  let a := coreAt v.c.die v.c.phys
  (vecOp v.i == 0x20 || vecOp v.i == 0x21) && s.bit a VEC_STAT_GN_NONFIN && !bitN (v.par 28 1) 3 && !s.bit a VEC_STAT_GN_POISON

/-- Slot of the member that owns operand k's tensor. -/
def Vec.slot (v : Vec) (k : Nat) : Nat :=
  match planTensorIdx v.c.pl (v.t k).dk.tensor with
  | some x => v.c.ownerSlot x
  | none => v.c.lead

/-- The address of the first poisoned logical element of operand k, or of its block (R293, R310). The records of BS16_UNPACK and
the targets of atomics are looked at where they are read. -/
def Vec.firstPoison (v : Vec) (k : Nat) : Option Nat :=
  let t := v.t k
  let vop := vecOp v.i
  if (vop = 0x2D && k = 0) || 0x30 ≤ vop && k = 3 then none
  else if k = 4 && vop != 0x1A then (if v.parP then some t.place.addr else none)
  else ((t.dk.elems v.rtl).find? (fun e => v.p k e.1 e.2)).bind (fun e =>
    (t.dk.partsAt e.1 e.2).find? (fun x => (v.m k).poisoned (t.base + x)))

/-- Fold the pairs of a core that may be folded; a VEC whose last pair has been folded completes (R309, R312). -/
def State.foldQueue (s : State) (c : Ctx) (q : Nat) : State :=
  let s := s.foldPairs c.die c.phys c.run.phase
  match s.ctx c.lead c.die q with
  | none => s
  | some e =>
    let left := (s.core c.die e.phys).measure
    s.forAll ((e.run.queue e.pd q).fly.filter (fun f => f.op == 0x02 && left.all (fun p => p.order != e.orderOf f.idx))) (fun s f =>
      s.retire c.lead c.die q f.idx)

/-- Issue a VEC of an operation: its operands are read, `f` computes and writes, its pairs are folded (R309). While pairs of it
wait for an array instruction that issued before it, it stays in flight. -/
def State.vec (s : State) (j : Slot) (d : Die) (l : Logical) (vop : Nat) (f : State → Vec → State) : State :=
  s.issue j d l (fun i => iOp i == 0x02 && vecOp i == vop) (fun _ _ _ => true) (fun s c pos i =>
    let a := coreAt c.die c.phys
    let block := (s.regionFacts c i).block
    let tiles := (List.range 5).map (fun k => match vecDeckle i k with
      | some x => s.tile c x (if vecState i k then block else 0)
      | none => ⟨Deckle.ofBytes [], ⟨0, 0, 0, 0, 0⟩, 0⟩)
    let (s, views) := (List.range 5).foldl (fun (acc : State × List Mem) k =>
      if (vecDeckle i k).isSome && vopReads vop k && !(0x30 ≤ vop && k == 3) then
        let r := acc.1.view 3 (some c.lead) (tiles.getD k ⟨Deckle.ofBytes [], ⟨0, 0, 0, 0, 0⟩, 0⟩).place
        (r.1, acc.2 ++ [r.2])
      else (acc.1, acc.2 ++ [{}])) (s, [])
    let v : Vec := ⟨c, pos, i, tiles, views, s.core c.die c.phys⟩
    let s := s.bump a VEC_CNT_BUSY_V (v.clocks vop)
    let s := s.setReg (VEC_STAT_BUSY.at a 0) (withBits (withBits (s.reg (VEC_STAT_BUSY.at a 0)) 8 1 vop) 15 9 (c.lead % 64 + 64))
    let s := (List.range 5).foldl (fun s k =>
      if !vopReads vop k || (vecDeckle i k).isNone then s else
      match v.firstPoison k with
      | none => s
      | some x => s.consume c.lead (v.slot k) (v.t k).place.tier x 0 (some c.die)) s
    let masked := (List.range 5).any (fun k => vopWrites vop k && (vecDeckle i k).isSome && !(0x30 ≤ vop)
      && decide (((v.t k).dk.elems v.rtl).length < (v.t k).dk.shapeR * (v.t k).dk.shapeC))
    let s := if masked && !s.skipsUpdate v then s.bump a CORE_CNT_EDGE_WRITE_V else s
    let s := (f s v).foldQueue c c.log
    if (s.core c.die c.phys).measure.any (fun p => p.order == c.orderOf pos) then s.addFly c c.log { idx := pos, op := 0x02 }
    else s.signal c.lead c.die c.log i)

/-- An element-wise operation of `n` inputs into D3 (R190: identity 0). -/
def State.elementwise (s : State) (v : Vec) (n : Nat) (f : Nat → Nat → Nat → Nat) : State :=
  s.emit v 3 (((v.t 3).dk.elems v.rtl).map (fun e =>
    ⟨e.1, e.2, f32.dec (f (v.x 0 e.1 e.2) (v.x 1 e.1 e.2) (v.x 2 e.1 e.2)),
     v.parP || (List.range n).any (fun k => v.p k e.1 e.2)⟩))

/-- CONVERT. -/
def execConvert (j : Slot) (d : Die) (l : Logical) (s : State) : Host.Outcome State Fault Refusal :=
  .next (s.vec j d l 0x01 (fun s v => s.elementwise v 1 (fun x _ _ => x)))
/-- ADD. -/
def execAdd (j : Slot) (d : Die) (l : Logical) (s : State) : Host.Outcome State Fault Refusal :=
  .next (s.vec j d l 0x02 (fun s v => s.elementwise v 2 (fun a b _ => f32.add a b)))
/-- MUL. -/
def execMul (j : Slot) (d : Die) (l : Logical) (s : State) : Host.Outcome State Fault Refusal :=
  .next (s.vec j d l 0x03 (fun s v => s.elementwise v 2 (fun a b _ => f32.mul a b)))
/-- FMA. -/
def execFma (j : Slot) (d : Die) (l : Logical) (s : State) : Host.Outcome State Fault Refusal :=
  .next (s.vec j d l 0x04 (fun s v => s.elementwise v 3 (fun a b c => f32.fma a b c)))
/-- AXPY: α is the FP32 value at bytes [3:0] of P (R311). -/
def execAxpy (j : Slot) (d : Die) (l : Logical) (s : State) : Host.Outcome State Fault Refusal :=
  .next (s.vec j d l 0x05 (fun s v => s.elementwise v 2 (fun x y _ => f32.fma (v.par 0 4) x y)))
/-- GELU (log entry 10). -/
def execGelu (j : Slot) (d : Die) (l : Logical) (s : State) : Host.Outcome State Fault Refusal :=
  .next (s.vec j d l 0x08 (fun s v => s.elementwise v 1 (fun x _ _ => gelu32 x)))
/-- SILU. -/
def execSilu (j : Slot) (d : Die) (l : Logical) (s : State) : Host.Outcome State Fault Refusal :=
  .next (s.vec j d l 0x09 (fun s v => s.elementwise v 1 (fun x _ _ => silu32 x)))
/-- EXP. -/
def execExp (j : Slot) (d : Die) (l : Logical) (s : State) : Host.Outcome State Fault Refusal :=
  .next (s.vec j d l 0x0A (fun s v => s.elementwise v 1 (fun x _ _ => exp32 x)))
/-- GELU_BWD: dy times the derivative at x. -/
def execGeluBwd (j : Slot) (d : Die) (l : Logical) (s : State) : Host.Outcome State Fault Refusal :=
  .next (s.vec j d l 0x0B (fun s v => s.elementwise v 2 (fun x dy _ => f32.mul dy (dgelu32 x))))
/-- SILU_BWD. -/
def execSiluBwd (j : Slot) (d : Die) (l : Logical) (s : State) : Host.Outcome State Fault Refusal :=
  .next (s.vec j d l 0x0C (fun s v => s.elementwise v 2 (fun x dy _ => f32.mul dy (dsilu32 x))))

/-! ## Row reductions -/

/-- One value for each row, written to column 0 of D3. -/
def State.rowwise (s : State) (v : Vec) (f : List (Nat × Nat) → Nat) : State :=
  s.emit v 3 ((List.range (v.rows 3)).map (fun i => ⟨i, 0, f32.dec (f (v.row 0 i)), v.rowP 0 i⟩))

/-- SUM. -/
def execSum (j : Slot) (d : Die) (l : Logical) (s : State) : Host.Outcome State Fault Refusal :=
  .next (s.vec j d l 0x10 (fun s v => s.rowwise v sum32))
/-- MAX. -/
def execMax (j : Slot) (d : Die) (l : Logical) (s : State) : Host.Outcome State Fault Refusal :=
  .next (s.vec j d l 0x11 (fun s v => s.rowwise v (fun xs => ((winner true xs).map Prod.snd).getD negInf32)))
/-- MIN. -/
def execMin (j : Slot) (d : Die) (l : Logical) (s : State) : Host.Outcome State Fault Refusal :=
  .next (s.vec j d l 0x12 (fun s v => s.rowwise v (fun xs => ((winner false xs).map Prod.snd).getD posInf32)))

/-- The index of each row's winner, as an FP32 integral value never scaled by LS (R305); an empty row gives the encoding
0xFFFF_FFFF (Table 8-2). -/
def State.argwise (s : State) (v : Vec) (greatest : Bool) : State :=
  s.emit v 3 ((List.range (v.rows 3)).map (fun i => match winner greatest (v.row 0 i) with
    | some x => ⟨i, 0, f32.dec (f32.ofInt (x.1 : Int)), v.rowP 0 i⟩
    | none => ⟨i, 0, .nan, v.rowP 0 i⟩)) false none
    (fun e => if e.v == .nan && (v.t 3).dk.format == 10 then some 0xFFFFFFFF else none)

/-- ARGMAX. -/
def execArgmax (j : Slot) (d : Die) (l : Logical) (s : State) : Host.Outcome State Fault Refusal :=
  .next (s.vec j d l 0x13 (fun s v => s.argwise v true))
/-- ARGMIN. -/
def execArgmin (j : Slot) (d : Die) (l : Logical) (s : State) : Host.Outcome State Fault Refusal :=
  .next (s.vec j d l 0x14 (fun s v => s.argwise v false))

/-- SUMSQ (R318): each row's FP64 sum of squares is added into VEC_SSQ_LOCAL; non-finite elements add nothing and mark the
core, as poisoned ones do. -/
def State.sumsq (s : State) (v : Vec) : State :=
  let a := coreAt v.c.die v.c.phys
  let sq := fun (w : Nat) => let x := f64.enc (f32.dec w); f64.mul x x
  let rows := List.range (v.rows 0)
  let tot := rows.foldl (fun acc i =>
    f64.add acc (reduce f64.add 0 (((v.row 0 i).filter (fun x => !f32.nonfinite x.2)).map (fun x => (x.1, sq x.2)))))
    (s.fld a VEC_SSQ_LOCAL_V)
  let bad := rows.any (fun i => (v.row 0 i).any (fun x => f32.nonfinite x.2))
  let pois := rows.any (fun i => v.rowP 0 i)
  (s.setFld a VEC_SSQ_LOCAL_V tot).modCore v.c.die v.c.phys (fun x =>
    { x with nonfin := x.nonfin || bad, gnPoison := x.gnPoison || pois })

/-- SUMSQ. -/
def execSumsq (j : Slot) (d : Die) (l : Logical) (s : State) : Host.Outcome State Fault Refusal :=
  .next (s.vec j d l 0x15 (fun s v => s.sumsq v))

/-! ## Norms (R311) -/

/-- Quotient of a sum by a count. -/
def mean32 (sum n : Nat) : Nat := if n = 0 then 0 else f32.div sum (f32.ofInt (n : Int))

/-- LAYERNORM (R311): y into D3, mean and reciprocal standard deviation into the stats rows of D2. -/
def State.layernorm (s : State) (v : Vec) : State :=
  let eps := v.par 0 4
  let st := fun i =>
    let xs := v.row 0 i
    let mean := mean32 (sum32 xs) xs.length
    let dev := xs.map (fun x => let d := f32.sub x.2 mean; (x.1, f32.mul d d))
    (mean, rsqrt32 (f32.add (mean32 (sum32 dev) xs.length) eps))
  let bad := fun i => v.parP || v.rowP 0 i
  let s := s.emit v 2 ((List.range (v.rows 2)).flatMap (fun i =>
    [⟨i, 0, f32.dec (st i).1, bad i⟩, ⟨i, 1, f32.dec (st i).2, bad i⟩]))
  s.emit v 3 (((v.t 3).dk.elems v.rtl).map (fun e =>
    let q := st e.1
    ⟨e.1, e.2, f32.dec (f32.fma (f32.mul (f32.sub (v.x 0 e.1 e.2) q.1) q.2) (v.x 1 0 e.2) (v.x 1 1 e.2)),
     bad e.1 || v.p 1 0 e.2 || v.p 1 1 e.2⟩))

/-- LAYERNORM. -/
def execLayernorm (j : Slot) (d : Die) (l : Logical) (s : State) : Host.Outcome State Fault Refusal :=
  .next (s.vec j d l 0x18 (fun s v => s.layernorm v))

/-- RMSNORM (R311). -/
def State.rmsnorm (s : State) (v : Vec) : State :=
  let eps := v.par 0 4
  let st := fun i =>
    let xs := v.row 0 i
    rsqrt32 (f32.add (mean32 (sum32 (xs.map (fun x => (x.1, f32.mul x.2 x.2)))) xs.length) eps)
  let bad := fun i => v.parP || v.rowP 0 i
  let s := s.emit v 2 ((List.range (v.rows 2)).map (fun i => ⟨i, 0, f32.dec (st i), bad i⟩))
  s.emit v 3 (((v.t 3).dk.elems v.rtl).map (fun e =>
    ⟨e.1, e.2, f32.dec (f32.mul (f32.mul (v.x 0 e.1 e.2) (st e.1)) (v.x 1 0 e.2)), bad e.1 || v.p 1 0 e.2⟩))

/-- RMSNORM. -/
def execRmsnorm (j : Slot) (d : Die) (l : Logical) (s : State) : Host.Outcome State Fault Refusal :=
  .next (s.vec j d l 0x19 (fun s v => s.rmsnorm v))

/-- Normalised input of a row: its stats row holds mean and rstd, or the reciprocal root mean square alone. -/
def Vec.xhat (v : Vec) (i j : Nat) : Nat :=
  if (v.t 2).dk.shapeC = 1 then f32.mul (v.x 1 i j) (v.x 2 i 0) else f32.mul (f32.sub (v.x 1 i j) (v.x 2 i 0)) (v.x 2 i 1)

/-- NORM_BWD (R311): dx = rstd × (g − mean(g) − x̂ × mean(g × x̂)) with g = dy × γ; without mean(g) for RMSNORM. The order
of the roundings is the model's (log entry 14). -/
def State.normBwd (s : State) (v : Vec) : State :=
  let rms := (v.t 2).dk.shapeC == 1
  let g := fun i j => f32.mul (v.x 0 i j) (v.x 4 0 j)
  let cols := List.range (v.cols 0)
  let m1 := fun i => if rms then 0 else mean32 (sum32 (cols.map (fun j => (j, g i j)))) cols.length
  let m2 := fun i => mean32 (sum32 (cols.map (fun j => (j, f32.mul (g i j) (v.xhat i j))))) cols.length
  s.emit v 3 (((v.t 3).dk.elems v.rtl).map (fun e =>
    let i := e.1
    let j := e.2
    let r := if rms then v.x 2 i 0 else v.x 2 i 1
    ⟨i, j, f32.dec (f32.mul r (f32.sub (f32.sub (g i j) (m1 i)) (f32.mul (v.xhat i j) (m2 i)))),
     v.rowP 0 i || v.rowP 1 i || v.rowP 2 i || v.rowP 4 0⟩))

/-- NORM_BWD. -/
def execNormBwd (j : Slot) (d : Die) (l : Logical) (s : State) : Host.Outcome State Fault Refusal :=
  .next (s.vec j d l 0x1A (fun s v => s.normBwd v))

/-- NORM_PGRAD (R311): dγ = Σ dy × x̂ and dβ = Σ dy over the rows, each sum under R303. -/
def State.normPgrad (s : State) (v : Vec) : State :=
  let rows := List.range (v.rows 0)
  let dg := fun j => sum32 (rows.map (fun i => (i, f32.mul (v.x 0 i j) (v.xhat i j))))
  let db := fun j => sum32 (rows.map (fun i => (i, v.x 0 i j)))
  s.emit v 3 (((v.t 3).dk.elems v.rtl).filterMap (fun e =>
    if e.1 = 0 then some ⟨0, e.2, f32.dec (dg e.2), v.colP 0 e.2 || v.colP 1 e.2 || rows.any (fun i => v.rowP 2 i)⟩
    else if (v.t 2).dk.shapeC = 1 then none
    else some ⟨e.1, e.2, f32.dec (db e.2), v.colP 0 e.2⟩))

/-- NORM_PGRAD. -/
def execNormPgrad (j : Slot) (d : Die) (l : Logical) (s : State) : Host.Outcome State Fault Refusal :=
  .next (s.vec j d l 0x1B (fun s v => s.normPgrad v))

/-! ## Softmax (R311) -/

/-- exp(x − mx). -/
def expDiff (x mx : Nat) : Nat := exp32 (f32.sub x mx)
/-- A row that holds a NaN or +inf, and a row whose every logical element is −inf. -/
def rowSpecial (xs : List (Nat × Nat)) : Bool := xs.any (fun x => nan32 x.2 || x.2 == posInf32)
def rowEmptyMass (xs : List (Nat × Nat)) : Bool := xs.all (fun x => x.2 == negInf32)
/-- Σ exp(x − mx) of a row. -/
def expSum (xs : List (Nat × Nat)) (mx : Nat) : Nat := sum32 (xs.map (fun x => (x.1, expDiff x.2 mx)))
/-- Greatest value of a row. -/
def rowMax (xs : List (Nat × Nat)) : Nat := ((winner true xs).map Prod.snd).getD negInf32

/-- SOFTMAX; a row without logical elements writes nothing (R192). -/
def execSoftmax (j : Slot) (d : Die) (l : Logical) (s : State) : Host.Outcome State Fault Refusal :=
  .next (s.vec j d l 0x1C (fun s v => s.emit v 3 (((((v.t 3).dk.elems v.rtl).filter (fun e => !(v.row 0 e.1).isEmpty))).map (fun e =>
    let xs := v.row 0 e.1
    let y := if rowSpecial xs then f32.nanBits else if rowEmptyMass xs then 0
      else f32.div (expDiff (v.x 0 e.1 e.2) (rowMax xs)) (expSum xs (rowMax xs))
    ⟨e.1, e.2, f32.dec y, v.rowP 0 e.1⟩))))

/-- SOFTMAX_BWD: d ← Σ p × dp; dx ← p × (dp − d). -/
def execSoftmaxBwd (j : Slot) (d : Die) (l : Logical) (s : State) : Host.Outcome State Fault Refusal :=
  .next (s.vec j d l 0x1D (fun s v => s.emit v 3 (((v.t 3).dk.elems v.rtl).map (fun e =>
    let dd := sum32 ((v.row 0 e.1).map (fun x => (x.1, f32.mul x.2 (v.x 1 e.1 x.1))))
    ⟨e.1, e.2, f32.dec (f32.mul (v.x 0 e.1 e.2) (f32.sub (v.x 1 e.1 e.2) dd)), v.rowP 0 e.1 || v.rowP 1 e.1⟩))))

/-- LSE: mx + log(Σ exp(x − mx)). -/
def execLse (j : Slot) (d : Die) (l : Logical) (s : State) : Host.Outcome State Fault Refusal :=
  .next (s.vec j d l 0x1E (fun s v => s.rowwise v (fun xs =>
    if rowSpecial xs then f32.nanBits else if rowEmptyMass xs then negInf32
    else f32.add (rowMax xs) (log32 (expSum xs (rowMax xs))))))

/-! ## Optimizer (R320, R325 to R330) -/

/-- Ulp exponent of an FP32 value (R178). -/
def ulpExp (w : Nat) : Int :=
  let ex := w / 2 ^ 23 % 256
  if ex = 0 then -149 else Int.ofNat ex - 150

/-- Exact value of a master weight (F, X). -/
def masterVal (f x : Nat) : FVal :=
  match f32.dec f with
  | .fin neg m e => .fin neg (m * 2 ^ (e - ulpExp f).toNat * 65536 + x % 65536) (ulpExp f - 16)
  | v => v

/-- The master weight after a delta: (F', X', SAT) (R329). -/
def masterStep (f x delta : Nat) : Nat × Nat × Bool :=
  if f32.nonfinite f || f32.nonfinite delta then (f32.nanBits, 0, false) else
  match (masterVal f x).add (f32.dec delta) with
  | .fin neg m e =>
    if m = 0 then (0, 0, false) else
    let sg := b2n neg * 2 ^ 31
    let f' := f32.roundMag .trunc m e
    if (f32.dec f32.maxBits).lt (.fin false m e) then (sg + f32.maxBits, 0, true) else
    let back := match f32.dec f' with | .fin _ m' e' => FVal.fin true m' e' | v => v
    let rest := (FVal.fin false m e).add back
    let x' := match rest with
      | .fin _ mr er => roundAt .rne mr er (ulpExp f' - 16)
      | _ => 0
    if x' < 65536 then (sg + f', x', false) else (sg + f' + 1, 0, false)
  | _ => (f32.nanBits, 0, false)

/-- The clip factor of R320. -/
def clipFactor (clipEn gnValid : Bool) (gnorm maxnorm : Nat) : Nat :=
  if !clipEn || !gnValid then one32 else
  let n := f64.sqrt gnorm
  let mx := f64.enc (f32.dec maxnorm)
  if (f64.dec mx).lt (f64.dec n) then f32.enc (f64.dec (f64.div mx n)) else one32

/-- 1 / (1 − β^t), in FP64 rounded once to FP32 (R328); β^t is rounded once to FP64 (log entry 14). -/
def biasFactor (beta t : Nat) : Nat :=
  let p := match f32.dec beta with
    | .fin n m e => f64.enc (.fin (n && decide (t % 2 = 1)) (m ^ t) (e * Int.ofNat t))
    | v => f64.enc v
  f32.enc (f64.dec (f64.div (f64.ofInt 1) (f64.sub (f64.ofInt 1) p)))

/-- One parameter's update: (w, m or b, v) and the gradient to (delta, m', v') (R327). -/
def optStep (v : Vec) (adam : Bool) (clip bc1 bc2 w m1 m2 g0 : Nat) : Nat × Nat × Nat :=
  let fl := v.par 28 1
  let dec := bitN fl 0
  let wd := v.par 16 4
  let g := f32.mul g0 clip
  let g := if dec then g else f32.fma wd w g
  let fin := fun u => let u := if dec then f32.fma wd w u else u
    let y := f32.mul (v.par 0 4) u
    if nan32 y then y else y ^^^ 2 ^ 31
  if adam then
    let b1 := v.par 4 4
    let b2 := v.par 8 4
    let m := f32.fma b1 m1 (f32.mul (f32.sub one32 b1) g)
    let vv := f32.fma b2 m2 (f32.mul (f32.sub one32 b2) (f32.mul g g))
    (fin (f32.div (f32.mul m bc1) (f32.add (f32.sqrt (f32.mul vv bc2)) (v.par 12 4))), m, vv)
  else if bitN fl 5 then
    let mu := v.par 20 4
    let b := f32.fma mu m1 g
    (fin (if bitN fl 1 then f32.fma mu b g else b), b, 0)
  else (fin g, 0, 0)

/-- One parameter after its update: element, new F, X and moments, saturation, poison. -/
structure Upd where
  i   : Nat
  j   : Nat
  f   : Nat
  x   : Nat
  sat : Bool
  m1  : Nat
  m2  : Nat
  bad : Bool

/-- Offset of a state block's second and third field (the moments) and of X, 0 for a field that the block has not. -/
def stateOffsets (block : Nat) : Nat × Nat × Nat :=
  if block = 896 then (256, 512, 768) else if block = 640 then (256, 0, 512) else (0, 0, 256)

/-- A skipped update (R320, R321): noted for each die where it was, with one event for the member. -/
def State.skipUpdate (s : State) (v : Vec) : State :=
  let a := coreAt v.c.die v.c.phys
  let s := (s.setFld a VEC_STAT_UPD_SKIPPED 1).bump a VEC_CNT_UPD_SKIPPED_V
  let m := match planTensorIdx v.c.pl (v.t 1).dk.tensor with
    | some x => (planTensor v.c.pl x).owner
    | none => 0
  let s := s.modRun v.c.lead (fun r => { r with skipped := (m, v.c.die) :: r.skipped })
  if v.c.run.skipped.any (fun x => x.1 == m) then s else
  s.event (v.c.run.members.getD m v.c.lead) { type := 6, die := some v.c.die, seq := some (v.c.run.seqs.getD m 0),
                                              step := some v.c.run.step, a := v.c.log,
                                              b := s.fld 0 HUB_JOB_STREAM_OSTEP_V v.c.lead }

/-- The updates of an optimizer instruction's logical parameters (R325 to R329). `t`: its update count; `pAll`: every output is
poisoned (R320). -/
def Vec.updates (v : Vec) (adam : Bool) (clip t : Nat) (pAll : Bool) : List Upd :=
  let fl := v.par 28 1
  let bc1 := if adam && bitN fl 2 then biasFactor (v.par 4 4) t else one32
  let bc2 := if adam && bitN fl 2 then biasFactor (v.par 8 4) t else one32
  let k := v.t 1
  let (o1, o2, ox) := stateOffsets k.dk.block
  let m := v.m 1
  let get := fun (o w i j : Nat) => m.readN (k.base + k.dk.stateAt o w i j) w
  (k.dk.elems v.rtl).map (fun e =>
    let (i, j) := e
    let f := get 0 4 i j
    let (dl, m1, m2) := optStep v adam clip bc1 bc2 f (if o1 = 0 then 0 else get o1 4 i j) (if o2 = 0 then 0 else get o2 4 i j)
      (v.x 0 i j)
    let (f', x', sat) := masterStep f (get ox 2 i j) dl
    ⟨i, j, f', x', sat, m1, m2, pAll || v.parP || v.p 0 i j || v.p 1 i j⟩)

/-- The fields that an update writes: address and bytes. -/
def Upd.words (u : Upd) (k : TileAt) : List (Nat × List Byte) :=
  let (o1, o2, ox) := stateOffsets k.dk.block
  let at_ := fun (o w : Nat) => k.base + k.dk.stateAt o w u.i u.j
  [(at_ 0 4, bytesLE 4 u.f), (at_ ox 2, bytesLE 2 u.x)] ++ (if o1 = 0 then [] else [(at_ o1 4, bytesLE 4 u.m1)])
    ++ (if o2 = 0 then [] else [(at_ o2 4, bytesLE 4 u.m2)])

/-- Write the updated state. Every logical parameter of each granule is written, so that the granule takes the poison of what is
written (R193). -/
def State.putState (s : State) (c : Ctx) (k : TileAt) (us : List Upd) : State :=
  let ws := us.map (fun u => (u.words k, u.bad))
  s.updateIn 3 (some c.lead) k.place.tier (k.granules (us.map (fun u => (u.i, u.j))))
    (fun m =>
      let m := ws.foldl (fun m w => w.1.foldl (fun m x => (m.write x.1 x.2).setPoison x.1 1 false) m) m
      (ws.filter Prod.snd).foldl (fun m w => w.1.foldl (fun m x => m.setPoison x.1 1 true) m) m)
    (fun key => ws.any (fun w => w.1.any (fun x => x.1 / 8 == key / 8)))

/-- ADAM and SGD. -/
def State.optimizer (s : State) (v : Vec) (adam : Bool) : State :=
  let a := coreAt v.c.die v.c.phys
  let fl := v.par 28 1
  let clip := clipFactor (bitN fl 4) (s.bit a VEC_STAT_GN_VALID) (s.fld a VEC_GNORM_V) (v.par 24 4)
  let s := s.setFld a VEC_CLIP_FACTOR clip
  let s := s.modRun v.c.lead (fun r => { r with optRan := v.c.die :: r.optRan })
  if s.skipsUpdate v then s.skipUpdate v
  else
    let k := v.t 1
    let us := v.updates adam clip (s.fld 0 HUB_JOB_STREAM_OSTEP_V v.c.lead + 1) (s.bit a VEC_STAT_GN_POISON)
    let s := s.putState v.c k us
    let s := match planTensorIdx v.c.pl k.dk.tensor with
      | some x => if v.c.writePoint x then s.modTally v.c x (fun y => y.mark (us.map (fun (u : Upd) =>
          ⟨convEvent (f32.nonfinite u.f) u.sat (u.f % 2 ^ 31 == 0 && u.x == 0), (masterVal u.f u.x).log2, u.bad⟩))) else s
      | none => s
    let s := s.bump a VEC_CNT_ELEMS_V us.length
    if (vecDeckle v.i 3).isSome then s.emit v 3 (us.map (fun (u : Upd) => ⟨u.i, u.j, masterVal u.f u.x, u.bad⟩)) else s

/-- ADAM. -/
def execAdam (j : Slot) (d : Die) (l : Logical) (s : State) : Host.Outcome State Fault Refusal :=
  .next (s.vec j d l 0x20 (fun s v => s.optimizer v true))
/-- SGD. -/
def execSgd (j : Slot) (d : Die) (l : Logical) (s : State) : Host.Outcome State Fault Refusal :=
  .next (s.vec j d l 0x21 (fun s v => s.optimizer v false))

/-! ## Stash (R323, R324) -/

/-- Scale of a row: 2^max(e_max − 6, −149), or 1.0. -/
def stashScale (xs : List (Nat × Nat)) : Nat :=
  match sharedExp (xs.map (fun x => f32.dec x.2)) with
  | some e => f32.enc (.fin false 1 (max (e - 6) (-149)))
  | none => one32

/-- One element of a stash row of scale `sc`: what it converts to, and whether it was clamped (R323). -/
def Vec.stashEl (v : Vec) (x sc u : Nat) : Conv × Bool :=
  let f := (v.t 3).dk.format
  let q := f32.div x sc
  let c := convert f (v.book 3) (convMode v.conv) (convRnd v.conv u) (f32.dec q)
  if !f32.nonfinite q && (f32.dec (q % 2 ^ 31)).lt (.fin false 128 0) && c.excess then
    (if f = 2 then ⟨127, 0, false⟩
     else convert f (v.book 3) (convMode v.conv) (convRnd v.conv u) (f32.dec q) false true, true)
  else (c, false)

/-- STASH_PACK (R323): codes into D3, scales into D2. Under LS_APPLY the row is packed as its elements times 2^LS are, so that
both outputs are multiplied (R305; log entry 46, DESIGN CHOICE). -/
def State.stashPack (s : State) (v : Vec) : State :=
  let t := v.t 3
  let val := fun (i j : Nat) => if v.mode 4 then f32.enc (lsScale (v.ls 3) (f32.dec (v.x 0 i j))) else v.x 0 i j
  let sc := fun i => stashScale ((v.row 0 i).map (fun x => (x.1, val i x.1)))
  let draws := convRound v.conv == 2
  let outs := (t.dk.elems v.rtl).map (fun e =>
    let u := if draws then s.draw v.c v.stream t.dk.tensor (t.dk.orgR + e.1) (t.dk.orgC + e.2) else 0
    (e, v.stashEl (val e.1 e.2) (sc e.1) u))
  let s := s.writeOut v 3 draws (outs.map (fun (o : (Nat × Nat) × Conv × Bool) =>
    ⟨o.1.1, o.1.2, o.2.1.code, o.2.1.event, f32.dec (val o.1.1 o.1.2),
     convBack t.dk.format (v.book 3) (sc o.1.1) o.2.1.code, v.rowP 0 o.1.1⟩))
  let s := s.bump (coreAt v.c.die v.c.phys) VEC_CNT_STASH_CLAMP_V
    (outs.filter (fun (o : (Nat × Nat) × Conv × Bool) => o.2.2)).length
  s.writeOut v 2 false (((List.range (v.rows 2)).filter (fun i => v.has 2 i 0)).map (fun i =>
    ⟨i, 0, sc i, 0, f32.dec (sc i), sc i, v.rowP 0 i⟩))

/-- STASH_PACK. -/
def execStashPack (j : Slot) (d : Die) (l : Logical) (s : State) : Host.Outcome State Fault Refusal :=
  .next (s.vec j d l 0x24 (fun s v => s.stashPack v))

/-- STASH_UNPACK: integer or level times the row's scale (R324). -/
def execStashUnpack (j : Slot) (d : Die) (l : Logical) (s : State) : Host.Outcome State Fault Refusal :=
  .next (s.vec j d l 0x25 (fun s v => s.emit v 3 (((v.t 3).dk.elems v.rtl).map (fun e =>
    ⟨e.1, e.2, f32.dec (f32.mul (v.x 0 e.1 e.2) (v.x 1 e.1 0)), v.p 0 e.1 e.2 || v.p 1 e.1 0⟩))))

/-! ## Dropout (R322) -/

/-- DROPOUT and DROPOUT_BWD: kept elements times KEEP_SCALE, +0 for the others; every draw is under KEY_TENSOR. -/
def State.dropout (s : State) (v : Vec) : State :=
  let t := v.t 3
  let key := v.par 8 4
  s.emit v 3 ((t.dk.elems v.rtl).map (fun e =>
    let u := s.draw v.c v.stream key (t.dk.orgR + e.1) (t.dk.orgC + e.2)
    ⟨e.1, e.2, f32.dec (if v.par 0 2 ≤ u then f32.mul (v.x 0 e.1 e.2) (v.par 4 4) else 0), v.parP || v.p 0 e.1 e.2⟩))
    true (some key)

/-- DROPOUT. -/
def execDropout (j : Slot) (d : Die) (l : Logical) (s : State) : Host.Outcome State Fault Refusal :=
  .next (s.vec j d l 0x28 (fun s v => s.dropout v))
/-- DROPOUT_BWD. -/
def execDropoutBwd (j : Slot) (d : Die) (l : Logical) (s : State) : Host.Outcome State Fault Refusal :=
  .next (s.vec j d l 0x29 (fun s v => s.dropout v))

/-! ## BS16 (R109, R110, R341) -/

/-- A chunk record of the beater: header, 48 B of zero, payload. -/
def bs16Record (x : Nat) (special poison : Bool) (ms : List Int) : List Byte :=
  bytesLE 1 x ++ bytesLE 1 (b2n special + 8 * b2n poison) ++ zeros 62
    ++ ms.flatMap (fun m => bytesLE 2 (m % 65536).toNat)

/-- BS16_PACK. -/
def State.bs16Pack (s : State) (v : Vec) : State :=
  let k := (v.t 0).dk
  let all := (List.range k.shapeR).flatMap (fun i => (List.range k.shapeC).map (fun j => (i, j)))
  let t := v.t 3
  let recs := (chunksOf 2048 all).map (fun ch =>
    let vs := ch.map (fun e => if v.mode 4 then f32.enc (lsScale (v.ls 3) (f32.dec (v.x 0 e.1 e.2))) else v.x 0 e.1 e.2)
    let p := ch.any (fun e => v.p 0 e.1 e.2)
    let x := bs16Exp vs
    let ms := vs.map (bs16Elem x)
    (bs16Record x (vs.any f32.nonfinite) p (ms ++ List.replicate (2048 - ms.length) 0), p))
  let s := s.update 3 (some v.c.lead) t.place (fun m =>
    (List.range recs.length).foldl (fun m n =>
      let r := recs.getD n ([], false)
      m.writeP (t.place.key + 4160 * n) r.1 r.2) m)
  s.bump (coreAt v.c.die v.c.phys) VEC_CNT_ELEMS_V all.length

/-- BS16_PACK. -/
def execBs16Pack (j : Slot) (d : Die) (l : Logical) (s : State) : Host.Outcome State Fault Refusal :=
  .next (s.vec j d l 0x2C (fun s v => s.bs16Pack v))

/-- BS16_UNPACK: a record with SPECIAL gives NaN for every element; one with POISON gives poisoned elements, which
consumes poison. -/
def State.bs16Unpack (s : State) (v : Vec) : State :=
  let k := (v.t 3).dk
  let b := (v.t 0).place.key
  let m := v.m 0
  let flags := fun r => m.readN (b + 4160 * r + 1) 1
  let val := fun n =>
    let r := n / 2048
    if bitN (flags r) 0 then f32.nanBits
    else
      let w := bs16Val (m.readN (b + 4160 * r) 1) (signedN 16 (m.readN (b + 4160 * r + 64 + 2 * (n % 2048)) 2))
      if v.mode 5 then f32.enc ((f32.dec w).scale (-(v.ls 0))) else w
  let pois := fun n =>
    let r := n / 2048
    bitN (flags r) 3 || m.poisoned (b + 4160 * r) || m.poisoned (b + 4160 * r + 64 + 2 * (n % 2048))
  let es := k.elems v.rtl
  let s := match es.find? (fun e => pois (e.1 * k.shapeC + e.2)) with
    | some _ =>
      s.consume v.c.lead (v.slot 3) (v.t 0).place.tier (v.t 0).place.addr 0 (some v.c.die)
    | none => s
  s.emit v 3 (es.map (fun e => let n := e.1 * k.shapeC + e.2; ⟨e.1, e.2, f32.dec (val n), pois n⟩))

/-- BS16_UNPACK. -/
def execBs16Unpack (j : Slot) (d : Die) (l : Logical) (s : State) : Host.Outcome State Fault Refusal :=
  .next (s.vec j d l 0x2D (fun s v => s.bs16Unpack v))

/-! ## Atomics (R269, R331) -/

/-- The integer of an FP32 integral value, none otherwise. -/
def integral32 (w : Nat) : Option Int :=
  match f32.dec w with
  | .fin neg m e =>
    if 0 ≤ e then some (smant neg (m * 2 ^ e.toNat))
    else if m % 2 ^ (-e).toNat = 0 then some (smant neg (m / 2 ^ (-e).toNat)) else none
  | _ => none

/-- The word that an index names: that which holds the target's element (R331; in an INT8 target four elements share one: log
entry 46, DESIGN CHOICE); none for an index that is not integral, is negative or lies beyond the logical extent. -/
def Vec.target (v : Vec) (idx : Nat) : Option Nat :=
  let t := v.t 3
  match integral32 idx with
  | none => none
  | some n =>
    let r := n.toNat / max 1 t.dk.shapeC
    let c := n.toNat % max 1 t.dk.shapeC
    if 0 ≤ n && v.has 3 r c then some ((t.base + (t.dk.elemAt r c).1) / 4 * 4) else none

/-- One atomic (R269): `kind` 0 SCATTER_ADD, 1 COUNT, 2 SCATTER_SWAP; the value, and whether index or value is poisoned. A poisoned
granule stays poisoned. -/
def atomic (int8 : Bool) (kind : Nat) (m : Mem) (k val : Nat) (p : Bool) : Mem :=
  let old := m.readN k 4
  let new := if kind = 1 then old + 1
    else if kind = 2 then val
    else match (if int8 then integral32 val else none) with
      | some n => old + (n % 2 ^ 32).toNat
      | none => f32.add old val
  let m := m.write k (bytesLE 4 (new % 2 ^ 32))
  if p then m.setPoison k 4 true else m

/-- The atomics of one VEC, one after another in element order; only granules that an index names are accessed. -/
def State.scatter (s : State) (v : Vec) (kind : Nat) : State :=
  let a := coreAt v.c.die v.c.phys
  let t := v.t 3
  let ops := ((v.t 0).dk.elems v.rtl).map (fun e => (v.target (v.x 0 e.1 e.2), v.x 1 e.1 e.2, v.p 0 e.1 e.2 || v.p 1 e.1 e.2))
  let ks := ops.filterMap (fun o => o.1)
  let ps : List Place := (runsOf (ks.map (fun k => k / 64))).map (fun r =>
    { t.place with addr := t.place.addr + 64 * r.1 - t.place.key, len := 64 * r.2 })
  let s := match ks.find? (fun k => (s.tierMem t.place.tier).poisoned k) with
    | some k => s.consume v.c.lead (v.slot 3) t.place.tier (t.place.addr + k - t.place.key) 0 (some v.c.die)
    | none => s
  let s := s.updateIn 3 (some v.c.lead) t.place.tier ps
    (fun m => ops.foldl (fun m o => match o.1 with
      | some k => atomic (t.dk.format == 2) kind m k o.2.1 o.2.2
      | none => m) m)
    (fun key => ks.any (fun k => k / 8 == key / 8))
  let s := s.bump a VEC_CNT_ATOMICS_V ks.length
  s.bump a VEC_CNT_IDX_SKIP_V (ops.length - ks.length)

/-- SCATTER_ADD. -/
def execScatterAdd (j : Slot) (d : Die) (l : Logical) (s : State) : Host.Outcome State Fault Refusal :=
  .next (s.vec j d l 0x30 (fun s v => s.scatter v 0))
/-- COUNT. -/
def execCount (j : Slot) (d : Die) (l : Logical) (s : State) : Host.Outcome State Fault Refusal :=
  .next (s.vec j d l 0x31 (fun s v => s.scatter v 1))
/-- SCATTER_SWAP. -/
def execScatterSwap (j : Slot) (d : Die) (l : Logical) (s : State) : Host.Outcome State Fault Refusal :=
  .next (s.vec j d l 0x32 (fun s v => s.scatter v 2))

/-! ## Measurement (R312, R313) -/

/-- MEASURE_ENTRY: (element, aligned element) pairs of the sampled rows. -/
def State.measureEntry (s : State) (v : Vec) : State :=
  let t := v.t 0
  let f := t.dk.format
  let sk := 16 * v.par 0 2
  let byCol := v.par 2 1 == 1
  let w := 8 * slicesOf f
  let es := t.dk.elems v.rtl
  let seg := fun (e : Nat × Nat) => if byCol then (e.2, e.1 / max 1 sk) else (e.1, e.2 / max 1 sk)
  let val := fun (e : Nat × Nat) => f32.dec (v.x 0 e.1 e.2)
  let stored := fun (e : Nat × Nat) =>
    if !fmtFloat f then v.x 0 e.1 e.2 else
    match sharedExp ((es.filter (fun x => seg x == seg e)).map val) with
    | none => 0
    | some ea =>
      let q := (alignElem w ea (val e)).1
      f32.enc (.fin (decide (q < 0)) q.natAbs (ea - (w : Int) + 2))
  match planTensorIdx v.c.pl t.dk.tensor with
  | none => s
  | some x =>
    let s := s.modTally v.c x (fun y => { y with elements := cap48 (y.elements + es.length),
                                                 poison := y.poison || es.any (fun e => v.p 0 e.1 e.2) })
    s.pairs v.c.die v.c.phys (pairOrder ((es.filter (fun e =>
        s.sampled (v.c.ownerSlot x) v.c.run.step (t.dk.orgR + e.1))).map (fun e =>
      ⟨t.dk.orgR + e.1, t.dk.orgC + e.2, ⟨v.c.orderOf v.pos, tallyKey v.c.lead x, v.x 0 e.1 e.2, stored e⟩⟩)))

/-- MEASURE_ENTRY. -/
def execMeasureEntry (j : Slot) (d : Die) (l : Logical) (s : State) : Host.Outcome State Fault Refusal :=
  .next (s.vec j d l 0x06 (fun s v => s.measureEntry v))

/-- MEASURE_FOLD: the pairs that wait in a core's queue are folded, as far as they may be (R312). -/
def execMeasureFold (j : Slot) (d : Die) (l : Logical) (s : State) : Host.Outcome State Fault Refusal :=
  .next (match s.ctx j d l with
    | some c => s.foldQueue c l
    | none => s)

end Sys2Proof.Machine
end

