-- ==== Sys2Proof/Machine/RingUnit.lean ====
section
/-!
DEFINITION. The ring unit (R340 to R360): chunks and their order, the adder, one-bit compression, sending within credits,
receiving, and the end of a wait.
-/
namespace Sys2Proof.Machine

/-! ## A bucket -/

/-- CHUNKS of a RED. -/
def RedSt.chunks (r : RedSt) : Nat := leAt r.raw 20 2
/-- LENGTH of a RED. -/
def RedSt.len (r : RedSt) : Nat := leAt r.raw 22 4
/-- COMPRESS of a RED. -/
def RedSt.comp (r : RedSt) : Bool := bitN (leAt r.raw 26 1) 0

/-- A place in the order of R347: ring step, gather stage, origin (or segment), chunk. -/
structure Hop where
  step   : Nat
  gather : Bool
  origin : Nat
  chunk  : Nat
deriving DecidableEq, Repr

/-- Chunks of segment s of n (R348). -/
def segment (c n s : Nat) : List Nat := (List.range ((s + 1) * c / n - s * c / n)).map (fun k => s * c / n + k)

/-- What member i of n sends for a bucket, in order (R347, R349, R355). -/
def sendOrder (comp : Bool) (c n i : Nat) : List Hop :=
  if comp then
    (List.range (n - 1)).flatMap (fun t => (List.range c).map (fun k => ⟨t, false, (i + n - t) % n, k⟩))
  else
    (List.range (n - 1)).flatMap (fun t => (segment c n ((i + n - t) % n)).map (fun k => ⟨t, false, (i + n - t) % n, k⟩))
    ++ (List.range (n - 1)).flatMap (fun t =>
      (segment c n ((i + n + 1 - t) % n)).map (fun k => ⟨t, true, (i + n + 1 - t) % n, k⟩))

/-- Members of the run, and the order in which a RED's member sends and receives. -/
def RedSt.sends (r : RedSt) (n : Nat) : List Hop := sendOrder r.comp r.chunks n r.die
/-- A member receives what its previous member sends. -/
def RedSt.recvs (r : RedSt) (n : Nat) : List Hop := sendOrder r.comp r.chunks n ((r.die + n - 1) % n)

/-! ## Chunks on the wire (R340 to R342) -/

/-- Payload of an uncompressed chunk. -/
def elemBytes (ms : List Int) : List Byte := ms.flatMap (fun m => bytesLE 2 (m % 65536).toNat)

/-- Bytes 0 to 11 of a header (Table 9-1). -/
def chunkHead (x flags chunk bucket job route mu : Nat) : List Byte :=
  bytesLE 1 x ++ bytesLE 1 flags ++ bytesLE 2 chunk ++ bytesLE 2 bucket ++ bytesLE 1 (job % 64) ++ bytesLE 1 route
    ++ bytesLE 4 mu

/-- ROUTE of a hop. -/
def Hop.route (h : Hop) : Nat := h.origin % 4 + h.step % 4 * 4 + b2n h.gather * 16

/-- A chunk as sent: header with CHECK, payload. -/
def wireOf (head payload : List Byte) : List Byte := head ++ bytesLE 4 (crc32c (head ++ payload)) ++ payload

/-- FLAGS of a chunk on the wire. -/
def wireFlags (w : List Byte) : Nat := leAt w 1 1

/-- A chunk on the wire with POISON set. -/
def wirePoison (w : List Byte) : List Byte := putAt w 1 (bytesLE 1 (if bitN (wireFlags w) 3 then wireFlags w else wireFlags w + 8))

/-- Elements of an uncompressed payload. -/
def wireElems (w : List Byte) : List Int := (chunksOf 2 (w.drop 16)).map (fun b => signedN 16 (natLE b))

/-- Does a received chunk fail its check (R342)? `bad`: it was damaged on the way. `lead`, `bucket` and `h`: the chunk that
the receiver expects next. -/
def wireBad (bad comp : Bool) (lead bucket : Nat) (h : Hop) (w : List Byte) : Bool :=
  bad || leAt w 12 4 != crc32c (w.take 12 ++ w.drop 16)
    || (!comp && (chunksOf 2 (w.drop 16)).any (fun b => natLE b == 0x8000))
    || leAt w 6 1 != lead % 64 || leAt w 4 2 != bucket || leAt w 2 2 != h.chunk || leAt w 7 1 != h.route
    || wireFlags w / 16 != 0

/-! ## The adder (R351) -/

/-- sign(x) × (|x| div 2^k). -/
def shrS (x : Int) (k : Nat) : Int :=
  let m := Int.ofNat (x.natAbs / 2 ^ k)
  if x < 0 then -m else m

/-- The adder: the received record and the local one. -/
def ringAdd (a b : ChunkRec) : ChunkRec :=
  let xa := max a.x b.x
  let s := (a.m.zip b.m).map (fun p => shrS p.1 (xa - a.x) + shrS p.2 (xa - b.x))
  let fits := fun k => s.all (fun v => decide ((shrS v k).natAbs ≤ 32767))
  let k := ((List.range 32).find? fits).getD 32
  let fl := (a.flags ||| b.flags) &&& 13
  if xa + k ≤ 255 then ⟨xa + k, fl, s.map (fun v => shrS v k)⟩
  else ⟨255, fl ||| 4, s.map (fun v => max (-32767) (min 32767 (shrS v (255 - xa))))⟩

/-! ## Compression (R354, R355) -/

/-- y = g + e, the mean magnitude, the sign bits and the new error memory of one chunk; `n` logical elements. -/
def compressChunk (ys : List Nat) (n : Nat) : Nat × List Bool × List Nat × Bool :=
  let fin := (ys.take n).filter (fun y => !f32.nonfinite y)
  let total := fin.foldl (fun t y => f64.add t (f64.enc (f32.dec (y % 2 ^ 31)))) 0
  let mu := if fin.isEmpty then 0 else f32.enc ((f64.dec total).div (.fin false fin.length 0))
  let bits := (List.range 2048).map (fun i =>
    let y := ys.getD i 0
    decide (i < n) && !f32.nonfinite y && (f32.dec y).lt (.fin false 0 0))
  let es := (List.range 2048).map (fun i =>
    let y := ys.getD i 0
    if i < n && !f32.nonfinite y then f32.sub y (if bits.getD i false then mu + 2 ^ 31 else mu) else 0)
  (mu, bits, es, (ys.take n).any f32.nonfinite)

/-- 256 B of sign bits. -/
def signBytes (bits : List Bool) : List Byte :=
  (chunksOf 8 bits).map (fun b => BitVec.ofNat 8 (b.foldr (fun x n => b2n x + 2 * n) 0))

/-- The sum of the origins' chunks, packed (R355). -/
def uncompress (ws : List (List Byte)) (n : Nat) : ChunkRec :=
  let mu := fun (w : List Byte) => leAt w 8 4
  let sign := fun (w : List Byte) (i : Nat) => bitN (leAt w (16 + i / 8) 1) (i % 8)
  let val := fun (w : List Byte) (i : Nat) => if sign w i then mu w ^^^ 2 ^ 31 else mu w
  let r := (List.range 2048).map (fun i =>
    if n ≤ i then 0 else match ws with
      | [] => 0
      | w :: rest => rest.foldl (fun a w => f32.add a (val w i)) (val w i))
  let x := bs16Exp r
  ⟨x, ws.foldl (fun f w => f ||| (wireFlags w &&& 9)) 0, r.map (bs16Elem x)⟩

/-! ## State of a ring unit -/

/-- RING_ERR: the bit, and the fields of the first error (Table 9-6). -/
def State.ringErr (s : State) (d : Nat) (f : Fld) (peer job bucket chunk : Nat) : State :=
  let a := dieAt d
  let s := if bitsOf (s.reg (RING_ERR_CHECK.at a 0)) 4 0 != 0 then s else
    (((s.setFld a RING_ERR_PEER peer).setFld a RING_ERR_JOB job).setFld a RING_ERR_BUCKET_ID bucket).setFld a
      RING_ERR_CHUNK chunk
  s.setFld a f 1

/-- Change a RED of a run. -/
def State.modRed (s : State) (lead pd bucket : Nat) (f : RedSt → RedSt) : State :=
  s.modRun lead (fun r => { r with reds := r.reds.map (fun x => if x.die == pd && x.bucket == bucket then f x else x) })

/-- The RED of a member for a bucket. -/
def Run.red (r : Run) (pd bucket : Nat) : Option RedSt := r.reds.find? (fun x => x.die == pd && x.bucket == bucket)

/-- REDs in flight on a physical die, over every job, and RING_STAT (Table 9-5). -/
def State.showRing (s : State) (d : Nat) : State :=
  let n := s.jobs.foldl (fun n e => match e.2.run with
    | some r => n + (r.reds.filter (fun x => r.map.getD x.die 4 == d)).length
    | none => n) 0
  (s.setFld (dieAt d) RING_STAT_BUSY (b2n (n != 0))).setFld (dieAt d) RING_STAT_INFLIGHT (min n 8)

/-- Record c of SRC of an uncompressed RED (R341, R343, R345). -/
def State.localRec (s : State) (c : Ctx) (r : RedSt) (k : Nat) : ChunkRec :=
  let p := s.bufPlace c (leAt r.raw 12 2)
  let m := s.tierMem p.tier
  let a := p.key + 4160 * k
  let pois := m.anyPoison a 4160
  let fl := m.readN (a + 1) 1 &&& 13
  let n := r.len - k * 2048
  ⟨m.readN a 1, if pois then fl ||| 8 else fl,
   (List.range 2048).map (fun i => if i < n then signedN 16 (m.readN (a + 64 + 2 * i) 2) else 0)⟩

/-- Write record k of the result to DST (R341, R343); a record with SAT counts (R352). -/
def State.putRec (s : State) (c : Ctx) (r : RedSt) (k : Nat) (v : ChunkRec) : State :=
  let p := s.bufPlace c (leAt r.raw 14 2)
  let n := r.len - k * 2048
  let ms := (List.range 2048).map (fun i => if i < n then v.m.getD i 0 else 0)
  let bs := chunkHead v.x v.flags k r.bucket c.lead 0 0 ++ zeros 52 ++ elemBytes ms
  let s := s.update 2 (some c.lead) { p with addr := p.addr + 4160 * k, len := 4160 } (fun m =>
    m.writeP (p.key + 4160 * k) bs (bitN v.flags 3))
  if bitN v.flags 2 then
    (s.bump (dieAt c.die) RING_CNT_SAT_V).ringErr c.die RING_ERR_SAT ((c.pd + c.run.n - 1) % c.run.n)
      c.lead r.bucket k
  else s

/-- Write a compressed chunk to the staging area at ORIGIN × C + c (R341, R345). -/
def State.putStage (s : State) (c : Ctx) (r : RedSt) (origin k : Nat) (w : List Byte) : State :=
  let p := s.bufPlace c (leAt r.raw 14 2)
  let o := 4160 * r.chunks + 320 * (origin * r.chunks + k)
  let bs := chunkHead (leAt w 0 1) (wireFlags w) k r.bucket c.lead (origin % 4) (leAt w 8 4) ++ zeros 52 ++ w.drop 16
  s.update 2 (some c.lead) { p with addr := p.addr + o, len := 320 } (fun m =>
    m.writeP (p.key + o) bs (bitN (wireFlags w) 3))

/-- The context of the ring unit of plan die pd. -/
def State.ringCtx (s : State) (lead pd : Nat) : Option Ctx :=
  match (s.job lead).run with
  | some r => s.ctx lead (r.map.getD pd 4) 96
  | none => none

/-- A compressed chunk of an origin is held: staged, and once every origin's is there the result record is written. -/
def State.holdStage (s : State) (c : Ctx) (pd bucket origin k : Nat) (w : List Byte) : State :=
  match c.run.red pd bucket with
  | none => s
  | some r =>
    let s := s.putStage c r origin k w
    let s := s.modRed c.lead pd bucket (fun r => { r with held := Tab.put r.held (origin * 16384 + k) w })
    let held := Tab.put r.held (origin * 16384 + k) w
    let ws := (List.range c.run.n).filterMap (fun o => Tab.find held (o * 16384 + k))
    if ws.length = c.run.n then
      let v := uncompress ws (r.len - k * 2048)
      (s.putRec c r k v).modRed c.lead pd bucket (fun r => { r with acc := Tab.put r.acc k (true, v) })
    else s

/-- The chunk that a member sends at a hop, if what it sends is at hand. -/
def State.hopWire (s : State) (c : Ctx) (r : RedSt) (h : Hop) : Option (List Byte) :=
  if r.comp then
    (Tab.find r.held (h.origin * 16384 + h.chunk)).map (fun w =>
      wireOf (chunkHead (leAt w 0 1) (wireFlags w) h.chunk r.bucket c.lead h.route (leAt w 8 4)) (w.drop 16))
  else
    let v := if !h.gather && h.step = 0 then some (s.localRec c r h.chunk)
      else match Tab.find r.acc h.chunk with
        | some (final, v) => if h.gather && !final then none else some v
        | none => none
    v.map (fun v => wireOf (chunkHead v.x v.flags h.chunk r.bucket c.lead h.route 0) (elemBytes v.m))

/-- Bytes of one chunk on the wire (R340). -/
def RedSt.chunkBytes (r : RedSt) : Nat := if r.comp then 272 else 4112

/-- Bytes that the resend buffer of a physical die keeps: the chunks it sent that are not acknowledged, of every job
(R342). -/
def State.unacked (s : State) (d : Nat) : Nat :=
  s.jobs.foldl (fun n e => match e.2.run with
    | some r => (r.reds.filter (fun x => r.map.getD x.die 4 == d)).foldl (fun n x => n + (x.sent - x.acked) * x.chunkBytes) n
    | none => n) 0

/-- Send the next chunk of plan die pd if it may be sent: within credits, in the order of R347, and while the 1 MiB resend
buffer has room for it (R342). Answers whether one left. -/
def State.sendOne (s : State) (lead pd : Nat) : State × Bool :=
  match s.ringCtx lead pd with
  | none => (s, false)
  | some c =>
    let n := c.run.n
    match c.run.reds.find? (fun r => r.die == pd && decide (r.sent < (r.sends n).length)) with
    | none => (s, false)
    | some r =>
      match (if r.credit && decide (s.unacked c.die + r.chunkBytes ≤ 1048576) then (r.sends n)[r.sent]?.bind (s.hopWire c r) else none) with
      | none => (s, false)
      | some w =>
        let dest := (pd + 1) % n
        let b := c.run.map.getD dest 0
        let s := s.modRed lead pd r.bucket (fun r => { r with sent := r.sent + 1 })
        let s := s.modRun lead (fun x => { x with
          chunks := x.chunks ++ [⟨dest, r.bucket, w⟩], tx := Tab.put x.tx pd (Tab.getD x.tx pd [] ++ [w]) })
        let s := s.bump (dieAt c.die) RING_CNT_CHUNKS_TX_V
        let s := match s.path c.die b (shortCw c.die b) with
          | some h => s.countPath h w.length
          | none => s
        let s := if bitN (wireFlags w) 3 then s.ringErr c.die RING_ERR_POISON dest lead r.bucket (leAt w 2 2) else s
        (s, true)

/-- Send what may be sent, at most `fuel` chunks. -/
def sendLoop : Nat → State → Nat → Nat → State
  | 0, s, _, _ => s
  | k + 1, s, lead, pd =>
    let r := s.sendOne lead pd
    if r.2 then sendLoop k r.1 lead pd else r.1

/-- Send what a member may send. -/
def State.pump (s : State) (lead pd : Nat) : State :=
  match (s.job lead).run with
  | none => s
  | some r =>
    sendLoop ((r.reds.filter (fun x => x.die == pd)).foldl (fun n x => n + (x.sends r.n).length) 0) s lead pd

/-- An acknowledgement frees room in a die's resend buffer: every job with buckets in flight there sends what it may. -/
def State.pumpDie (s : State) (d : Nat) : State :=
  s.forAll (s.jobs.filterMap (fun e => e.2.run.bind (fun r => (r.map.findIdx? (· == d)).map (fun pd => (e.1, pd)))))
    (fun s x => s.pump x.1 x.2)

/-! ## The end of a wait (R359) -/

/-- A poisoned record with open contents. -/
def openRec (start : Nat) : ChunkRec :=
  ⟨(Config.freeBits start).toNat % 256, 8, (List.range 2048).map (fun i => signedN 16 ((Config.freeBits (start + 1 + i)).toNat % 65536))⟩

/-- Write a poisoned record for every chunk that a RED still lacks. -/
def State.lackPoisoned (s : State) (c : Ctx) (pd bucket : Nat) : State :=
  match c.run.red pd bucket with
  | none => s
  | some r =>
    let lacks := (List.range r.chunks).filter (fun k => match Tab.find r.acc k with
      | some (final, _) => !final
      | none => true)
    s.forAll lacks (fun s k =>
      let v := openRec s.fresh
      ((s.drawnN 2049).putRec c r k v).modRed c.lead pd bucket (fun r => { r with acc := Tab.put r.acc k (true, v) }))

/-- Poisoned compressed chunks for the origins that a RED lacks, so that it can send them onward. -/
def RedSt.fillHeld (r : RedSt) (n : Nat) : RedSt :=
  if !r.comp then r else
  { r with held := (List.range n).foldl (fun t o => (List.range r.chunks).foldl (fun t k =>
      match Tab.find t (o * 16384 + k) with
      | some _ => t
      | none => Tab.put t (o * 16384 + k) (chunkHead 0 10 k r.bucket 0 0 0 ++ zeros 260)) t) r.held }

/-- Silent peer of a waiting member: its previous member for a chunk, else its next member for credits (R359). -/
def RedSt.peer (r : RedSt) (n : Nat) : Option Nat :=
  if r.timedOut then none
  else if r.recvd < (r.recvs n).length then some ((r.die + n - 1) % n)
  else if !r.credit && decide (r.sent < (r.sends n).length) then some ((r.die + 1) % n)
  else none

/-- The first chunk that a member lacks. -/
def RedSt.lacks (r : RedSt) (n : Nat) : Nat := (((r.recvs n)[r.recvd]?).map Hop.chunk).getD 0

/-- A wait of plan die pd for a bucket ends (R359). -/
def State.endWait (s : State) (lead pd bucket peer : Nat) : State :=
  match s.ringCtx lead pd with
  | none => s
  | some c =>
    let n := c.run.n
    match c.run.red pd bucket with
    | none => s
    | some r =>
      let first := r.lacks n
      let s := s.lackPoisoned c pd bucket
      let s := s.modRed lead pd bucket (fun r =>
        let r := r.fillHeld n
        let r := { r with timedOut := true, recvd := (r.recvs n).length }
        if r.credit then r else { r with sent := (r.sends n).length, acked := (r.sends n).length })
      let s := (s.bump (dieAt c.die) RING_CNT_TIMEOUT_V).ringErr c.die RING_ERR_TIMEOUT peer lead bucket first
      let outs := (List.range c.run.members.length).map (fun m => (m, 0x2043))
      let s := s.modRun lead (fun x => { x with outcomes := x.outcomes ++ outs.filter (fun o => !x.outcomes.contains o) })
      let s := s.event lead { type := 0x0C, die := some c.die, seq := some (c.run.seqs.getD 0 0), step := some c.run.step,
                              a := bucket, b := first, c := peer }
      s.pump lead pd

end Sys2Proof.Machine
end

