-- ==== Sys2Proof/Machine/TwoPhase.lean ====
section
/-!
DEFINITION. Two-phase commands (R396 to R399): prepared records, replies, lost parts and the abort. What each command
commits is defined with the command.
-/
namespace Sys2Proof.Machine

/-- Is the opcode two-phase (Table 10-3)? -/
def opTwo (op : Nat) : Bool := [0x0002, 0x0004, 0x0006, 0x0007, 0x2000, 0x2001, 0x3001, 0x3003, 0x4000].contains op

/-- Set bit `i` of a mask where `b`. -/
def orIf (m i : Nat) (b : Bool) : Nat := if b then orBit m i else m

/-- Send the prepare to the command's parts in ascending order; a part that holds another command's record makes the rest
wait (R396). -/
def askParts (s : State) (j seq : Nat) : List Nat → State
  | [] => s
  | p :: ps =>
    match s.cmd j seq with
    | none => s
    | some c =>
      if !bitN c.want p || bitN c.asked p then askParts s j seq ps
      else match Tab.find s.prepared p with
        | some _ => s
        | none => askParts ({ s with prepared := Tab.put s.prepared p (j, seq, s.ts) }.modCmd j seq
            (fun c => { c with asked := orBit c.asked p })) j seq ps

/-- Every prepare that can be sent now, by pair and then in queue order. -/
def State.askAll (s : State) : State :=
  s.forAll s.qps (fun s q => s.forAll (q.2.cmds.filter (fun c => c.started && !c.done && opTwo c.op && c.want != 0)) (fun s c =>
    askParts s q.1 c.seq [0, 1, 2, 3, 4]))

/-- Give up a command's prepared records; prepares that waited for them go out. -/
def State.release (s : State) (j seq : Nat) : State :=
  { s with prepared := s.prepared.filter (fun e => !(e.2.1 == j && e.2.2.1 == seq)) }.askAll

/-- Begin a two-phase command on a set of parts. -/
def State.beginTwo (s : State) (j seq want : Nat) : State :=
  askParts (s.modCmd j seq (fun c => { c with want := want })) j seq [0, 1, 2, 3, 4]

/-- Has every part of a command replied or been lost? -/
def Cmd.allReplied (c : Cmd) : Bool := c.want != 0 && c.replied == c.want

/-- CLR_STAT.BUSY: a freeze, seal or restore is under way. -/
def State.showCellarBusy (s : State) : State :=
  s.setFld 0 CLR_STAT_BUSY (b2n (s.jobs.any (fun e => s.bit 0 CLR_JOB_RESTORING e.1 || (match e.2.capture with
    | some c => c.snap.isSome
    | none => false))))

/-- A restore that ends before its decision leaves what it wrote undefined, and clears CONSISTENT if it wrote (R462). -/
def State.spoil (s : State) (j : Nat) : State :=
  let ws := (s.job j).restoring
  let s := (s.setFld 0 CLR_JOB_RESTORING 0 j).showCellarBusy
  if ws.isEmpty then s else
  let s := s.forAll ws (fun s w =>
    let s := s.scramble w.1 w.2.1 w.2.2 (some false)
    if w.1 = 2 then s.touchEpoch w.2.1 w.2.2 else s)
  (s.modJob j (fun x => { x with restoring := [] })).setFld 0 CLR_JOB_CONSISTENT 0 j

/-- A two-phase command ends before its decision: every prepared part aborts. -/
def State.abortTwo (s : State) (j seq : Nat) : State :=
  match s.cmd j seq with
  | none => s
  | some c =>
    if c.want = 0 || c.done then s else
    let s := s.release j seq
    if c.op = 0x3001 then s.spoil j else s

/-- A prepare that failed, once every reply is in: every prepared part aborts, and the command completes with the failing
part's status; PART_MASK names the parts that prepared (R397). -/
def State.settleAbort (s : State) (j seq : Nat) : State :=
  match s.cmd j seq with
  | none => s
  | some c =>
    if !c.allReplied || c.prepared == c.want || c.done then s else
    ((s.abortTwo j seq).modCmd j seq (fun c => { c with parts := c.prepared })).finish j seq

/-- A part's prepare fails with a status. -/
def State.prepareFails (s : State) (j seq part st : Nat) : State :=
  ((s.modCmd j seq (fun c => { c with replied := orBit c.replied part, asked := orBit c.asked part })).outcome j seq
    st).settleAbort j seq

/-- A part is lost during every prepare that involves it (R397): those that it holds and those still to be sent. -/
def State.partLost (s : State) (part : Nat) : State :=
  s.forAll s.qps (fun s q => s.forAll (q.2.cmds.filter (fun c =>
      c.started && !c.done && opTwo c.op && bitN c.want part && !bitN c.replied part)) (fun s c =>
    s.prepareFails q.1 c.seq part 0x2053))

end Sys2Proof.Machine
end

