-- ==== Sys2Proof/Machine/Sets.lean ====
section
/-!
DEFINITION. Dies and replica sets (R393 to R395, R425 to R429): forming and shrinking sets, failed parts, a die that leaves
service.
-/
namespace Sys2Proof.Machine

/-! ## Sets -/

/-- A job's replica set, as a mask. -/
def State.jobSet (s : State) (j : Nat) : Nat := s.fld 0 HUB_FLT_JOB_SET j
/-- A job's home set: dies whose PLAN_AREA is not 0 (R428). -/
def Binding.home (b : Binding) : List Nat := allDies.filter (fun d => b.area.getD d 0 != 0)

/-- Slots that a change of job j's set concerns: the members of its run, or its own. -/
def State.membersOf (s : State) (j : Nat) : List Nat :=
  match (s.job j).run with
  | some r => r.members
  | none => [j]

/-- SEQ of a member's RUN, while the run lasts. -/
def State.runSeq (s : State) (j slot : Nat) : Option Nat :=
  match (s.job j).run with
  | some r => if r.posted then none else (r.members.zip r.seqs).findSome? (fun x => if x.1 == slot then some x.2 else none)
  | none => none

/-- Write a job's replica set, with the REPLICA_SET event of every member where it changes (R429). -/
def State.putSet (s : State) (j new cause : Nat) : State :=
  let old := s.jobSet j
  if old = new then s else
  let s := s.setFld 0 HUB_FLT_JOB_SET new j
  s.forAll (s.membersOf j) (fun s m =>
    s.event m { type := 0x11, seq := s.runSeq j m, step := (s.job j).run.map Run.step, a := old, b := new, c := cause })

/-- Form the home and replica set of a bound job (R428); `cause` 7 where it grows, none at the first bind. -/
def State.formSet (s : State) (j : Nat) (report : Bool) : State :=
  match (s.job j).binding with
  | none => (s.setFld 0 HUB_FLT_JOB_SET 0 j).setFld 0 HUB_FLT_JOB_HOME 0 j
  | some b =>
    let s := s.setFld 0 HUB_FLT_JOB_HOME (maskOf b.home) j
    let new := maskOf (s.largestGroup b.home)
    if report then s.putSet j new 7 else s.setFld 0 HUB_FLT_JOB_SET new j

/-! ## Failed parts of a run -/

/-- Instructions of a queue that a run has not completed: those in flight, the rest of the phase and of later phases. -/
def Ctx.undone (c : Ctx) (pd q : Nat) : List PInstr :=
  let qs := c.run.queue pd q
  let sched := fun ph => planSched c.pl c.sec pd q ph
  let now := sched c.run.phase
  (qs.fly.map (fun f => planInstr c.pl c.sec (now.1 + f.idx)))
    ++ (List.range (now.2 - qs.pos)).map (fun k => planInstr c.pl c.sec (now.1 + qs.pos + k))
    ++ ((List.range 16).filter (fun ph => decide (c.run.phase < ph) && decide (ph ≤ planPhases c.pl))).flatMap (fun ph =>
      (List.range (sched ph).2).map (fun k => planInstr c.pl c.sec ((sched ph).1 + k)))

/-- Where a region of a plan die lies. -/
def State.regionPlace (s : State) (c : Ctx) (r : Region) : Place :=
  let d := c.run.map.getD r.die 0
  if r.tier = 0 then ⟨0, d, s.phys d r.core, r.start, r.len⟩
  else if r.tier = 1 then ⟨1, d, 0, r.start, r.len⟩
  else ⟨r.tier, d, 0, (if r.tier = 2 then c.bind.ldrBase.getD d 0 else c.bind.atcBase) + r.start, r.len⟩

/-- Output ranges of a failed part that can still be reached: on another die in service, or in the attic (R394). -/
def State.lostOutputs (s : State) (c : Ctx) (pd : Nat) : List Place :=
  ((List.range 97).flatMap (fun q =>
    ((c.undone pd q).filter (fun i => !s.gated c i)).flatMap (fun i =>
      (s.regions c q i).filter (fun r =>
        r.write && (r.tier == 3 || (r.die != pd && s.inService (c.run.map.getD r.die 0))))))).map (s.regionPlace c)

/-- Poison a range: its contents are open (R394, R421). -/
def State.poisonPlace (s : State) (p : Place) : State :=
  let s := s.scramble p.tier p.key p.len (some true)
  if p.tier = 2 then s.touchEpoch p.addr p.len else s

/-- Parts of a run fail: their instructions in flight are abandoned, their outputs are poisoned where their tier can be
reached, and every member's RUN is PARTIAL (R393, R394). `gone` is a mask of physical dies. -/
def State.failParts (s : State) (lead gone : Nat) : State :=
  match (s.job lead).run with
  | none => s
  | some r =>
    let pds := (List.range r.map.length).filter (fun pd =>
      let d := r.map.getD pd 4
      bitN gone d && !bitN r.failed d)
    if pds.isEmpty then s else
    let outs := pds.flatMap (fun pd => match s.ringCtx lead pd with
      | some c => if r.ended then [] else s.lostOutputs c pd
      | none => [])
    let s := s.forAll outs State.poisonPlace
    let mask := maskOf (pds.map (fun pd => r.map.getD pd 4))
    let s := s.modRun lead (fun r => { r with
      failed := r.failed ||| mask
      queues := r.queues.map (fun e =>
        if pds.contains (e.1 / 97) then (e.1, ({ e.2 with fly := [] } : QueueSt)) else e)
      reds := r.reds.filter (fun x => !pds.contains x.die)
      chunks := r.chunks.filter (fun x => !pds.contains x.dest)
      outcomes := r.outcomes ++ (List.range r.members.length).map (fun m => (m, 0x2040)) })
    let s := match outs.head? with
      | some p => s.event lead { type := 0x15, seq := s.runSeq lead lead, step := some r.step, a := mask, b := p.addr, c := p.tier }
      | none => s.event lead { type := 0x15, seq := s.runSeq lead lead, step := some r.step, a := mask }
    -- the ring units of the other members end their waits on the failed parts at once (R427)
    let n := r.n
    let s := s.forAll pds (fun s pd => s.forAll [((pd + 1) % n, pd, true), ((pd + n - 1) % n, pd, false)] (fun s x =>
      match (s.job lead).run with
      | none => s
      | some r => s.forAll (r.reds.filter (fun y => y.die == x.1 && !y.timedOut)) (fun s y =>
          let waits := if x.2.2 then decide (y.recvd < (y.recvs n).length) else decide (y.acked < (y.sends n).length)
          if !waits then s else
          let s := if x.2.2 then s else s.modRed lead x.1 y.bucket (fun z => { z with credit := false })
          s.endWait lead x.1 y.bucket x.2.1)))
    let s := s.forAll pds (fun s pd => s.showRing (r.map.getD pd 4))
    s.checkEnd lead

/-- Every job's set shrinks to its largest group that still works (R428, R429). -/
def State.shrinkSets (s : State) (cause : Nat) : State :=
  s.forAll (s.jobs.map Prod.fst) (fun s j =>
    if (s.job j).binding.isNone then s else
    let old := s.jobSet j
    let new := maskOf (s.largestGroup (maskBits 4 old))
    if old = new then s else
    let s := s.putSet j new cause
    match (s.job j).run with
    | some r => if r.posted || (r.ended && cause != 5) then s else s.failParts j (old - (old &&& new))
    | none => s)

/-! ## A die leaves service (R427) -/

/-- Abandon every fill of a die (R423): its FILLING bits return to 0. -/
def State.abandonFills (s : State) (d : Nat) : State :=
  let fs := (s.die d).fills
  if fs.isEmpty then s else
  let a := dieAt d
  let s := s.forAll fs (fun s f =>
    let s := s.setFld a DIE_CORE_MAP_FILLING 0 f.logical
    let s := ((List.range 4).filter (fun q => s.fld a DIE_SPARE_Q_PHYS q == f.target && s.fld a DIE_SPARE_Q_STATE q == 1)).foldl
      (fun s q => s.setFld a DIE_SPARE_Q_STATE 0 q) s
    s.bump a DIE_FILL_CNT_ABANDONED_V)
  let s := match fs.head? with
    | some f => ((((s.setFld a DIE_FILL_LOG_OUTCOME 3).setFld a DIE_FILL_LOG_CAUSE f.cause).setFld a
        DIE_FILL_LOG_LOGICAL f.logical).setFld a DIE_FILL_LOG_OLD f.source).setFld a DIE_FILL_LOG_POISONED f.poisoned
    | none => s
  let s := s.modDie d (fun x => { x with fills := [] })
  let s := (s.setFld a DIE_FILL_STAT_STATE 0).setFld a DIE_FILL_STAT_QUEUED 0
  s.setFld 0 HUB_DIE_STATE_FILL_ACTIVE 0 d

/-- The contents of a die's banks and larder become open (R427). -/
def State.scrambleDie (s : State) (d : Nat) : State :=
  ((s.scramble 0 (shelfKey d 0 0) (100 * 5242880) (some false)).scramble 1 (storeKey d 0) (2 ^ 26) (some false)).scramble 2
    (d * 2 ^ 35) 32000000000 (some false)

/-- Destination of a COPY or FILL: space (0 host, 1 LA, 2 AA) and address (Table 10-3). -/
def Cmd.copyDst (c : Cmd) : Nat × Nat :=
  if c.op = 0x1000 then (bitsN (c.opnd 56 1) 3 2, c.opnd 40 8) else (bitsN (c.opnd 48 1) 3 2, c.opnd 32 8)
/-- Tier of an address space, as the POISON event numbers tiers (Table 10-11). -/
def spaceTier (sp : Nat) : Nat := if sp = 0 then 4 else if sp = 1 then 2 else 3
/-- Bytes of a COPY or FILL. -/
def Cmd.copyLen (c : Cmd) : Nat := if c.op = 0x1000 then c.opnd 48 8 else c.opnd 40 8

/-- Part d of a COPY or FILL fails: its output, where its tier can be reached, is poisoned (R393, R394). -/
def State.copyFails (s : State) (j : Nat) (c : Cmd) (d : Nat) : State :=
  let asked := orBit c.asked d
  let left := c.want - (c.want &&& asked)
  let s := s.modCmd j c.seq (fun x => { x with asked := asked, parts := left })
  let s := s.outcome j c.seq (if left = 0 then 0x2054 else 0x2040)
  let (sp, a) := c.copyDst
  let s := s.event j { type := 0x15, seq := some c.seq, a := 2 ^ d, b := a, c := spaceTier sp }
  if sp = 0 || (sp = 1 && a / 2 ^ 35 = d) then s
  else s.poisonPlace ⟨spaceTier sp, a / 2 ^ 35, 0, a, c.copyLen⟩

/-- COPY and FILL commands that a lost die takes part in fail on it (R393, R394). -/
def State.copyLost (s : State) (d : Nat) : State :=
  s.forAll s.qps (fun s q => s.forAll (q.2.cmds.filter (fun c =>
      c.started && !c.done && (c.op == 0x1000 || c.op == 0x1001) && bitN c.want d && !bitN c.asked d)) (fun s c =>
    s.copyFails q.1 c d))

/-- Show a die's spares and whether a fill runs or waits (Table 11-9). -/
def State.showSpares (s : State) (d : Nat) : State :=
  let n := ((List.range 4).filter (fun q => s.fld (dieAt d) DIE_SPARE_Q_STATE q == 0 && s.bit (dieAt d) DIE_SPARE_Q_MAPPED q)).length
  (s.setFld 0 HUB_DIE_STATE_SPARES n d).setFld 0 HUB_DIE_STATE_FILL_ACTIVE (b2n (!(s.die d).fills.isEmpty)) d

/-- A die leaves service for a cause of Table 11-6, into a state of Table 11-5 (R427): its work is abandoned, its fills
too, its contents become open, sets shrink, prepares and copies that it takes part in lose it. -/
def State.leaveService (s : State) (d cause st : Nat) : State :=
  if s.dieState d ≠ 0 then s else
  let s := (s.setFld 0 HUB_DIE_STATE_STATE st d).setFld 0 HUB_DIE_STATE_CAUSE cause d
  let s := s.setFld 0 HUB_STATUS_DIES (clearBit (s.fld 0 HUB_STATUS_DIES) d)
  let s := (s.bump 0 HUB_FLT_CNT_DIE_OUT_V).trace 6 d 96 0
  let s := s.abandonFills d
  let s := s.shrinkSets cause
  let s := s.scrambleDie d
  let s := (s.copyLost d).partLost d
  let s := s.forAll (s.jobs.map Prod.fst) (fun s j => s.modJob j (fun x => { x with
    capture := x.capture.map (fun c => match c.snap with
      | some n => if bitN n.set d then { c with lost := true } else c
      | none => c) }))
  s.showSpares d

end Sys2Proof.Machine
end

