-- ==== Sys2Proof/Machine/Larder.lean ====
section
/-!
DEFINITION. The larder's bursts (R279 to R281): the errors that reads meet, retries, a device that fails, and the patrol scrub.
-/
namespace Sys2Proof.Machine

/-- Device of a larder address (R279). -/
def larderDevice (la : Nat) : Nat := 8 * (la / 2 ^ 35) + la % 2 ^ 35 / 2048 % 8

/-- A larder device is declared failed: its die leaves service (R280). -/
def State.deviceFails (s : State) (n : Nat) : State := (s.setFld 0 LDR_DEV_STAT_FAILED 1 n).leaveService (n / 8) 2 2

/-- A read finds an uncorrectable granule: its stored poison is set, and it is reported (R281). -/
def State.larderUe (s : State) (la : Nat) : State :=
  let n := larderDevice la
  let s := { s with larder := s.larder.setPoison la 1 true }
  ((s.setFld 0 LDR_DEV_STAT_UE 1 n).bump 0 LDR_DEV_CNT_UE_V 1 n).poisonLog 0 (la / 64 * 64)

/-- One error of a burst (R280, R281), if it strikes a burst of the accesses: `reads` and `writes` are their ranges, first LA
and bytes. -/
def State.burst (s : State) (reads writes : List (Nat × Nat)) (e : BurstErr) : State :=
  let at_ := fun (rs : List (Nat × Nat)) la => laPopulated la && rs.any (fun r =>
    decide (r.1 / 64 ≤ la / 64) && decide (la / 64 * 64 < r.1 + r.2))
  match e with
  | .corrected la => if at_ reads la then s.bump 0 LDR_DEV_CNT_CE_V 1 (larderDevice la) else s
  | .uncorrectable la => if at_ reads la then s.larderUe la else s
  | .retried la k =>
    if at_ (reads ++ writes) la then s.bump 0 LDR_DEV_CNT_RETRY_V (min k 16) (larderDevice la) else s
  | .exhausted la =>
    if at_ (reads ++ writes) la then
      (s.bump 0 LDR_DEV_CNT_RETRY_V 16 (larderDevice la)).deviceFails (larderDevice la) else s

/-- The errors of the bursts of some larder accesses. -/
def State.bursts (s : State) (reads writes : List (Nat × Nat)) (errs : List BurstErr) : State :=
  errs.foldl (fun s e => s.burst reads writes e) s

/-- PATROL_SCRUB of larder granule g (R281). -/
def execPatrolScrub (g : Nat) (found : ScrubFind) (s : State) : Host.Outcome State Fault Refusal :=
  .next (
    let la := g * 64
    if !s.bit 0 LDR_SCRUB_EN || !laPopulated la then s else
    match found with
    | .clean => if s.larder.poisoned la then s.poisonLog 0 la else s
    | .corrected => s.bump 0 LDR_DEV_CNT_CE_V 1 (larderDevice la)
    | .uncorrectable => s.larderUe la)

end Sys2Proof.Machine
end

