-- ==== Sys2Proof/Machine/Cipher.lean ====
section
/-!
DEFINITION. AES-256 in the XTS mode (FIPS 197 and IEEE 1619, named by R443): 4 KiB sectors, each one data unit with its
sector index as the tweak.
-/
namespace Sys2Proof.Machine

/-! ## The field of 256 elements -/

/-- Multiply by x. -/
def xtime (a : Byte) : Byte := if a.msb then (a <<< 1) ^^^ 0x1B else a <<< 1

/-- Multiply. -/
def gmul (a b : Byte) : Byte :=
  ((List.range 8).foldl (fun (t : Byte × Byte) i => (if b.getLsbD i then t.1 ^^^ t.2 else t.1, xtime t.2)) (0, a)).1

/-- The inverse, and 0 for 0: the 254th power. -/
def ginv (a : Byte) : Byte := (List.range 254).foldl (fun r _ => gmul r a) 1

/-- The substitution of a byte. -/
def sbox (a : Byte) : Byte :=
  let b := ginv a
  b ^^^ b.rotateLeft 1 ^^^ b.rotateLeft 2 ^^^ b.rotateLeft 3 ^^^ b.rotateLeft 4 ^^^ 0x63

/-- The inverse substitution. -/
def sboxInv (a : Byte) : Byte := ginv (a.rotateLeft 1 ^^^ a.rotateLeft 3 ^^^ a.rotateLeft 6 ^^^ 0x05)

/-! ## AES-256 -/

/-- Exclusive or of byte strings. -/
def xorBytes (a b : List Byte) : List Byte := List.zipWith (fun x y => x ^^^ y) a b

/-- The next word of the key schedule after the words `w`, newest first. -/
def keyWord (w : List (List Byte)) : List Byte :=
  let i := w.length
  let t := w.getD 0 []
  let t := if i % 8 = 0 then
      xorBytes ((t.drop 1 ++ t.take 1).map sbox) [(List.range (i / 8 - 1)).foldl (fun r _ => xtime r) 1, 0, 0, 0]
    else if i % 8 = 4 then t.map sbox else t
  xorBytes (w.getD 7 []) t

/-- The fifteen round keys of a 256-bit key. -/
def roundKeys (key : List Byte) : List (List Byte) :=
  let w := (List.range 52).foldl (fun w _ => keyWord w :: w) (chunksOf 4 key).reverse
  (chunksOf 4 w.reverse).map List.flatten

/-- Byte k of a block after its rows have shifted left (`dir` 1) or right (`dir` 3): row k mod 4 of column k div 4. -/
def shiftRows (dir : Nat) (s : List Byte) : List Byte :=
  (List.range 16).map (fun k => s.getD ((k + 4 * dir * (k % 4)) % 16) 0)

/-- Mix each column with the coefficients of row 0. -/
def mixColumns (co : List Byte) (s : List Byte) : List Byte :=
  (List.range 16).map (fun k => (List.range 4).foldl (fun (x : Byte) j =>
    x ^^^ gmul (co.getD ((j + 4 - k % 4) % 4) 0) (s.getD (k / 4 * 4 + j) 0)) 0)

/-- Encrypt a block of 16 B. -/
def aesEncrypt (ks : List (List Byte)) (p : List Byte) : List Byte :=
  let s := (List.range 13).foldl (fun s r =>
    xorBytes (mixColumns [2, 3, 1, 1] (shiftRows 1 (s.map sbox))) (ks.getD (r + 1) [])) (xorBytes p (ks.getD 0 []))
  xorBytes (shiftRows 1 (s.map sbox)) (ks.getD 14 [])

/-- Decrypt a block of 16 B. -/
def aesDecrypt (ks : List (List Byte)) (c : List Byte) : List Byte :=
  let s := (List.range 13).foldl (fun s r =>
    mixColumns [14, 11, 13, 9] (xorBytes ((shiftRows 3 s).map sboxInv) (ks.getD (13 - r) []))) (xorBytes c (ks.getD 14 []))
  xorBytes ((shiftRows 3 s).map sboxInv) (ks.getD 0 [])

/-! ## XTS -/

/-- The tweak of the next block: multiplied by x. -/
def nextTweak (t : Nat) : Nat := if 2 ^ 127 ≤ t then (2 * t % 2 ^ 128) ^^^ 0x87 else 2 * t

/-- Run a block cipher over the blocks of a sector, each masked with its tweak before and after. -/
def xtsBlocks (f : List Byte → List Byte) (t : Nat) (bs : List Byte) : List Byte :=
  ((chunksOf 16 bs).foldl (fun (a : List (List Byte) × Nat) b =>
    let m := bytesLE 16 a.2
    (xorBytes (f (xorBytes b m)) m :: a.1, nextTweak a.2)) ([], t)).1.reverse.flatten

/-- Encrypt sector n, or decrypt it: the first half of the 512-bit key is the cipher's, the second the tweak's. -/
def xtsSector (open_ : Bool) (key : List Byte) (n : Nat) (bs : List Byte) : List Byte :=
  let ks := roundKeys (key.take 32)
  let t := natLE (aesEncrypt (roundKeys (key.drop 32)) (bytesLE 16 n))
  xtsBlocks (if open_ then aesDecrypt ks else aesEncrypt ks) t bs

/-- Encrypt or decrypt consecutive sectors of 4 KiB from sector n on. -/
def xtsSectors (open_ : Bool) (key : List Byte) (n : Nat) (bs : List Byte) : List Byte :=
  let cs := chunksOf 4096 bs
  (List.range cs.length).flatMap (fun i => xtsSector open_ key (n + i) (cs.getD i []))

end Sys2Proof.Machine
end

