-- ==== Sys2Proof/Machine/Loader.lean ====
section
/-!
DEFINITION. The plan loader (R208 to R214, R251, R306, R366): the checks of Tables 5-7 and 6-12 and check 25. Each check gives
the items of a section that fail it; the first of them in the scan order of R210 is the one reported.
-/
namespace Sys2Proof.Machine

/-- The item at which a check fails (Table 5-10). An item of the image header belongs to no section. -/
structure Rej where
  sect  : Option Nat := none
  phase : Nat := 0
  die   : Nat := 0
  core  : Nat := 127
  kind  : Nat
  item  : Nat
deriving DecidableEq, Repr

/-- Phases, dies, logical cores and items in ascending order (R210); what names no phase stands in phase 0, what names no core
after the cores. -/
def Rej.before (a b : Rej) : Bool :=
  decide (((a.phase * 4 + a.die) * 128 + a.core) * 2 ^ 32 + a.item < ((b.phase * 4 + b.die) * 128 + b.core) * 2 ^ 32 + b.item)

/-- The first of some items in the scan order. -/
def firstRej : List Rej → Option Rej
  | [] => none
  | r :: l => some (match firstRej l with
    | some q => if q.before r then q else r
    | none => r)

/-- What the checks read: the image, the job's windows and binding, the physical die of each plan die, the machine. -/
structure LoadCtx where
  pl   : Mem
  job  : Job
  bind : Binding
  map  : List Nat
  st   : State

/-- The first entry on which `f` answers. -/
def firstSome {α β : Type} (f : α → Option β) : List α → Option β
  | [] => none
  | a :: t => match f a with
    | some b => some b
    | none => firstSome f t

/-- Item `r` where a condition holds. -/
def failIf (b : Bool) (r : Rej) : List Rej := if b then [r] else []

/-- Sections in ascending bucket and, within a bucket, replica count (R210). -/
def LoadCtx.sections (c : LoadCtx) : List (Nat × Section) :=
  sortBy (fun x => x.2.bucket * 8 + x.2.replicas)
    ((List.range (planSections c.pl)).map (fun k => (k, planSection c.pl k)))

/-- The first item of any section that `f` finds. -/
def LoadCtx.perSection (c : LoadCtx) (f : Nat → Section → List Rej) : Option Rej :=
  firstSome (fun x => firstRej (f x.1 x.2)) c.sections

/-- An instruction with its place: phase, plan die, queue, position, index in the table; `held` keeps it from issuing. -/
structure Placed where
  phase : Nat
  die   : Nat
  q     : Nat
  pos   : Nat
  idx   : Nat
  ins   : PInstr
  held  : Bool := false
deriving DecidableEq, Repr

/-- Instructions of one queue in one phase. -/
def LoadCtx.queueInstrs (c : LoadCtx) (sec : Section) (phase d q : Nat) : List Placed :=
  let sc := planSched c.pl sec d q phase
  (List.range sc.2).map (fun k => ⟨phase, d, q, k, sc.1 + k, planInstr c.pl sec (sc.1 + k), false⟩)

/-- The queues of a phase that hold instructions. -/
def LoadCtx.queues (c : LoadCtx) (sec : Section) (phase : Nat) : List (List Placed) :=
  (allDies.flatMap (fun d => (List.range 97).map (fun q => c.queueInstrs sec phase d q))).filter (fun q => !q.isEmpty)

/-- Every instruction of a section in scan order (R210). -/
def LoadCtx.instrs (c : LoadCtx) (sec : Section) : List Placed :=
  (List.range 16).flatMap (fun ph => (c.queues sec ph).flatten)

/-- Core of an item that a queue holds. -/
def Placed.core (p : Placed) : Nat := if p.q = 96 then 127 else p.q

/-- The item that an instruction is. -/
def Placed.rej (p : Placed) (k : Nat) : Rej :=
  { sect := some k, phase := p.phase, die := p.die, core := p.core, kind := 2, item := p.idx }

/-- A deckle that an instruction names, as the failing item. -/
def Placed.deckleRej (p : Placed) (k i : Nat) : Rej := { p.rej k with kind := 1, item := i }

/-- Instructions of a section that fail `f`. -/
def LoadCtx.badInstrs (c : LoadCtx) (k : Nat) (sec : Section) (f : Placed → Bool) : List Rej :=
  (c.instrs sec).flatMap (fun p => failIf (f p) (p.rej k))

/-- Fail on the first instruction of any section that fails `f`. -/
def LoadCtx.perInstr (c : LoadCtx) (f : Section → Placed → Bool) : Option Rej :=
  c.perSection (fun k sec => c.badInstrs k sec (f sec))

/-- Die and core of a buffer's item. -/
def Buffer.rej (b : Buffer) (k kind item : Nat) : Rej :=
  { sect := some k, die := b.die % 4, core := if b.tier = 0 then b.core % 128 else 127, kind := kind, item := item }

/-- Deckles of a section that fail `f`. -/
def LoadCtx.badDeckles (c : LoadCtx) (k : Nat) (sec : Section) (f : Nat → Bool) : List Rej :=
  (List.range sec.deckles).flatMap (fun i =>
    failIf (f i) ((planBuffer c.pl sec (planDeckle c.pl sec i).buf).rej k 1 i))

/-- Buffers of a section that fail `f`. -/
def LoadCtx.badBuffers (c : LoadCtx) (k : Nat) (sec : Section) (f : Buffer → Bool) : List Rej :=
  (List.range sec.buffers).flatMap (fun i => let b := planBuffer c.pl sec i; failIf (f b) (b.rej k 3 i))

/-- An ownership interval as the failing item. -/
def Interval.rej (v : Interval) (k i : Nat) : Rej :=
  { sect := some k, phase := v.phase % 16, die := v.die % 4, core := if v.bank < 8 then v.core % 128 else 127, kind := 5,
    item := i }

/-- A mapping record as the failing item. -/
def mapRej (k i : Nat) : Rej := { sect := some k, kind := 4, item := i }

/-- The image header as the failing item. -/
def headerRej : Rej := { kind := 7, item := 0 }

/-! ## Issue in order with unlimited units (check 22)

A run of a phase in which every instruction signals and each yield point is a barrier. Holding an instruction back shows what
depends on it. -/

/-- One pass over the queues: each issues while its next instruction is neither held nor a YIELD and its token count is
reached. Answers the remaining instructions, the token counts, and whether any issued. -/
def depPass (ls : List (List Placed)) (tok : Tab Nat) : List (List Placed) × Tab Nat × Bool :=
  ls.foldl (fun acc q =>
    let r := go (q.length) q acc.2.1 false
    (acc.1 ++ [r.1], r.2.1, acc.2.2 || r.2.2)) ([], tok, false)
where
  /-- Issue from one queue. -/
  go : Nat → List Placed → Tab Nat → Bool → List Placed × Tab Nat × Bool
  | 0, q, tok, b => (q, tok, b)
  | _, [], tok, b => ([], tok, b)
  | n + 1, p :: q, tok, b =>
    if p.held || iOp p.ins == 0x0A then (p :: q, tok, b)
    else if iFlag p.ins 0 && decide (Tab.getD tok (p.die * 1024 + iWaitTok p.ins) 0 < iWaitCount p.ins) then
      (p :: q, tok, b)
    else
      let key := iSigDie p.ins * 1024 + iSigTok p.ins
      let tok := if iFlag p.ins 1 then Tab.put tok key (Tab.getD tok key 0 + 1) else tok
      go n q tok true

/-- What is left of the queues: at a fixed point where every queue stands at a YIELD, the yield point is passed. -/
def depRun : Nat → List (List Placed) → Tab Nat → List (List Placed)
  | 0, ls, _ => ls
  | n + 1, ls, tok =>
    let r := depPass ls tok
    if r.1.all List.isEmpty then r.1
    else if r.2.2 then depRun n r.1 r.2.1
    else if r.1.all (fun q => match q with | p :: _ => !p.held && iOp p.ins == 0x0A | [] => false) then
      depRun n (r.1.map (fun q => q.drop 1)) r.2.1
    else r.1

/-- What never issues in a phase while the instructions that `hold` names are held back. -/
def LoadCtx.unissued (c : LoadCtx) (sec : Section) (ph : Nat) (hold : Placed → Bool) : List Placed :=
  let qs := (c.queues sec ph).map (fun q => q.map (fun p => { p with held := hold p }))
  (depRun (2 * qs.flatten.length + 2) qs []).flatten

/-- Are two placed instructions the same one? -/
def Placed.same (a b : Placed) : Bool := a.phase == b.phase && a.die == b.die && a.q == b.q && a.pos == b.pos

/-- Does b issue only after a? -/
def LoadCtx.precedes (c : LoadCtx) (sec : Section) (a b : Placed) : Bool :=
  decide (a.phase < b.phase) || (a.phase == b.phase && (c.unissued sec a.phase (fun p => p.same a)).any (fun p => p.same b && !a.same b))

/-! ## Data that the checks judge (log entry 18)

Images of codebooks and optimizer blocks lie in shelves when the plan runs. The loader reads them where the plan's transfers
bring them from. -/

/-- A byte of a tier's space as it stands: shelf and store room by address, larder and attic by offset from the job's base. -/
def LoadCtx.stored (c : LoadCtx) (tier die core a : Nat) : Byte :=
  let d := c.map.getD die die
  let a := if tier = 2 then c.bind.ldrBase.getD d 0 + a else if tier = 3 then c.bind.atcBase + a else a
  (c.st.tierMem tier).read1 (Place.key ⟨tier, d, c.st.phys d core, a, 1⟩)

/-- What a transfer brings where: source and destination (tier, die, core) and its ranges. -/
structure Brings where
  src  : Nat × Nat × Nat
  dst  : Nat × Nat × Nat
  runs : List (Nat × Nat × Nat)

/-- The transfers that precede an instruction, the last one first. -/
def LoadCtx.brings (c : LoadCtx) (sec : Section) (p : Placed) : List Brings :=
  (((c.instrs sec).filter (fun x => iOp x.ins == 0x08 && c.precedes sec x p)).map (fun x =>
    let at_ := fun o =>
      let dk := planDeckle c.pl sec (iDeckle x.ins o)
      let b := planBuffer c.pl sec dk.buf
      (dk, (b.tier, b.die, if b.tier = 0 then b.core else 0), if b.tier = 0 then dk.sa else b.base + dk.sa)
    let (a, sa, pa) := at_ 12
    let (b, sb, pb) := at_ 15
    (⟨sa, sb, deckleRuns a b pa pb⟩ : Brings))).reverse

/-- A byte that an instruction will find at an address, through at most n transfers. -/
def LoadCtx.found (c : LoadCtx) (bs : List Brings) : Nat → Nat × Nat × Nat → Nat → Byte
  | 0, t, a => c.stored t.1 t.2.1 t.2.2 a
  | n + 1, t, a =>
    match firstSome (fun x => if x.dst != t then none else
        (x.runs.find? (fun r => decide (r.2.1 ≤ a) && decide (a < r.2.1 + r.2.2))).map (fun r => (x.src, r.1 + (a - r.2.1)))) bs with
    | some y => c.found bs n y.1 y.2
    | none => c.stored t.1 t.2.1 t.2.2 a

/-- `n` bytes that an instruction will find in its core's shelves. -/
def LoadCtx.shelfAt (c : LoadCtx) (sec : Section) (p : Placed) (sa n : Nat) : List Byte :=
  let bs := c.brings sec p
  (List.range n).map (fun k => c.found bs bs.length (0, p.die, p.q) (sa + k))

/-- The image that a TBL names: 320 B, of which a KQ4 image has the first 64. -/
def LoadCtx.image (c : LoadCtx) (sec : Section) (p : Placed) : List Byte := c.shelfAt sec p (leAt p.ins 13 3 % 2 ^ 23) 320

/-- Bytes of the image that a TBL names. -/
def LoadCtx.imageBytes (c : LoadCtx) (sec : Section) (p : Placed) : Nat := if leAt (c.image sec p) 0 1 = 2 then 320 else 64

/-- Block size of the state that an optimizer names (Table 8-3). -/
def LoadCtx.stateOf (c : LoadCtx) (sec : Section) (p : Placed) : Nat :=
  stateBlock (vecOp p.ins) (match vecDeckle p.ins 4 with
    | some k => leAt (c.shelfAt sec p ((planDeckle c.pl sec k).sa + 28) 1) 0 1
    | none => 0)

/-- Block size of each state tensor of a section: those that an ADAM or SGD names as D1. -/
def LoadCtx.states (c : LoadCtx) (sec : Section) : Tab Nat :=
  (c.instrs sec).foldl (fun t p =>
    if iOp p.ins = 0x02 && vecState p.ins 1 then
      match vecDeckle p.ins 1 with
      | some k => Tab.put t (planDeckle c.pl sec k).tensor (c.stateOf sec p)
      | none => t
    else t) []

/-- The same for every section: section × 2^32 + TENSOR_ID. -/
def LoadCtx.allStates (c : LoadCtx) : Tab Nat :=
  c.sections.foldl (fun t x => (c.states x.2).foldl (fun t y => Tab.put t (x.1 * 2 ^ 32 + y.1) y.2) t) []

/-- A deckle as the checks see it: one of a state tensor in the layout of R325. -/
def LoadCtx.deckle (c : LoadCtx) (states : Tab Nat) (sec : Section) (i : Nat) : Deckle :=
  let dk := planDeckle c.pl sec i
  { dk with block := Tab.getD states dk.tensor 0 }

/-- The regions that an instruction touches. -/
def LoadCtx.regions (c : LoadCtx) (states : Tab Nat) (sec : Section) (p : Placed) : List Region :=
  instrRegions c.pl sec p.die p.q p.ins
    { kq8 := iOp p.ins == 0x03 && c.imageBytes sec p == 320, states := states,
      block := if iOp p.ins = 0x02 && vecState p.ins 1 then c.stateOf sec p else 0 }

/-! ## Checks 1 to 5 -/

/-- Does a table of `n` entries of `size` bytes at `off` lie in the image, on a multiple of 64? -/
def inImage (bytes off n size : Nat) : Bool := decide (off + n * size ≤ bytes) && off % 64 == 0

/-- Does a plan mark more than 4,096 tally points of one member, or one tensor with both kinds (R141)? -/
def tallyBad (pl : Mem) : Bool :=
  let ts := ((List.range (planTensors pl)).map (planTensor pl)).filter (fun t => t.tally)
  [0, 1, 2, 3].any (fun m => decide (4096 < (ts.filter (fun t => t.owner == m)).length))
    || ts.any (fun a => ts.any (fun b => a.id == b.id && bitN a.kind 0 != bitN b.kind 0))

/-- Check 1, IMAGE: header, offsets, counts and indexes. R141 gives its rejection no check; it stands here (log entry 18). -/
def check1 (c : LoadCtx) : Option Rej :=
  let pl := c.pl
  let n := c.bind.imageBytes
  let head := pl.readN 0 4 != 0x49504C46 || pl.readN 4 2 != 1 || pl.readN 6 2 != 256 || pl.readN 8 8 != n
    || decide (planPhases pl = 0) || decide (15 < planPhases pl) || decide (planMembers pl = 0)
    || decide (4 < planMembers pl) || decide (32 < planSections pl)
    || !inImage n (pl.readN 96 8) (planTensors pl) 32 || !inImage n (pl.readN 104 8) (planLayers pl) 16
    || !inImage n (pl.readN 112 8) (planSections pl) 96 || tallyBad pl
  if head then some headerRej else
  c.perSection (fun k sec =>
    if !inImage n sec.deckleOff sec.deckles 64 || !inImage n sec.bufferOff sec.buffers 32
        || !inImage n sec.mapOff sec.maps 32 || !inImage n sec.schedOff 6208 8 || !inImage n sec.instrOff sec.instrs 32
        || !inImage n sec.ownOff sec.intervals 16 then [headerRej]
    else
      c.badDeckles k sec (fun i =>
        let dk := planDeckle pl sec i
        decide (sec.buffers ≤ dk.buf) || (planTensorIdx pl dk.tensor).isNone)
      ++ (List.range sec.maps).flatMap (fun i =>
        failIf (planTensorIdx pl (pl.readN (sec.mapOff + 32 * i + 24) 4)).isNone (mapRej k i))
      ++ (List.range sec.intervals).flatMap (fun i =>
        let v := planInterval pl sec i
        failIf (decide (15 < v.phase)) (v.rej k i))
      ++ c.badInstrs k sec (fun p =>
        decide (sec.instrs ≤ p.idx)
          || (instrDeckles p.ins).any (fun x => decide (sec.deckles ≤ x.1))
          || (iOp p.ins == 0x04 && [12, 14, 16].any (fun o =>
              decide (sec.buffers ≤ leAt p.ins o 2) && !(o == 16 && leAt p.ins o 2 == 0xFFFF)))))

/-- Are the bytes [a, a + n) zero? -/
def zeroAt (bs : List Byte) (a n : Nat) : Bool := leAt bs a n == 0

/-- Reserved bits of an instruction of a queue (Tables 6-7 to 6-9, 8-1, 9-2); the unused operand bytes of a YIELD depend on the
queue. -/
def instrReserved (q : Nat) (i : PInstr) : Bool :=
  let head := leAt i 1 1 / 16 != 0 || leAt i 2 2 / 1024 != 0 || leAt i 4 2 / 4096 != 0 || leAt i 8 1 / 16 != 0
    || !zeroAt i 9 1
  let top2 := fun o => leAt i o 3 / 2 ^ 22 != 0
  let body :=
    if iOp i = 0x00 then !zeroAt i 12 20
    else if iOp i = 0x01 then top2 12 || top2 15 || top2 18 || top2 21 || leAt i 25 1 / 32 != 0
      || leAt i 28 1 / 16 != 0 || leAt i 29 1 / 16 != 0 || !zeroAt i 31 1
    else if iOp i = 0x02 then bitN (vecMode i) 7 || top2 14 || top2 17 || top2 20 || top2 23 || top2 26
      || leAt i 29 1 / 16 != 0 || leAt i 31 1 / 32 != 0
    else if iOp i = 0x03 then leAt i 12 1 / 8 != 0 || leAt i 13 3 / 2 ^ 23 != 0 || !zeroAt i 16 16
    else if iOp i = 0x04 then leAt i 26 1 / 2 != 0 || !zeroAt i 27 5
    else if iOp i = 0x08 then top2 12 || top2 15 || !zeroAt i 19 13
    else if iOp i = 0x09 then !zeroAt i 14 18
    else if iOp i = 0x0A then leAt i 14 1 / 2 != 0 || !zeroAt i 18 14
      || (if q < 96 then !zeroAt i 16 2 else !zeroAt i 15 1)
    else false
  head || body

/-- Check 2, RESERVED: no reserved field of any table is set (R12). -/
def check2 (c : LoadCtx) : Option Rej :=
  let pl := c.pl
  let h := pl.read 0 256
  if !zeroAt h 86 2 || !zeroAt h 92 4 || !zeroAt h 124 4 || !zeroAt h 160 96 || leAt h 51 1 / 64 != 0
      || decide (2 ≤ bitsN (leAt h 51 1) 5 4)
      || (List.range 8).any (fun k => decide (planBuckets pl ≤ k) && planBucketSize pl k != 0)
      || (List.range (planTensors pl)).any (fun k =>
          let o := pl.readN 96 8 + 32 * k
          pl.readN (o + 6) 1 / 16 != 0 || pl.readN (o + 7) 1 / 32 != 0 || pl.readN (o + 11) 21 != 0)
      || (List.range (planLayers pl)).any (fun k =>
          let o := pl.readN 104 8 + 16 * k
          pl.readN (o + 2) 1 / 16 != 0 || pl.readN (o + 5) 11 != 0) then some headerRej
  else c.perSection (fun k sec =>
    let so := pl.readN 112 8 + 96 * k
    if pl.readN (so + 2) 2 != 0 || pl.readN (so + 24) 8 != 0 || pl.readN (so + 80) 16 != 0 then [headerRej]
    else
      c.badDeckles k sec (fun i =>
        let b := pl.read (sec.deckleOff + 64 * i) 64
        bitN (leAt b 10 1) 7 || leAt b 11 1 / 8 != 0 || leAt b 12 4 / 2 ^ 23 != 0 || leAt b 16 4 / 2 ^ 23 != 0
          || leAt b 52 1 / 4 != 0 || !zeroAt b 56 8)
      ++ (List.range sec.buffers).flatMap (fun i =>
        let o := sec.bufferOff + 32 * i
        failIf (decide (3 < pl.readN o 1) || pl.readN (o + 4) 4 != 0 || pl.readN (o + 24) 8 != 0)
          ((planBuffer pl sec i).rej k 3 i))
      ++ (List.range sec.maps).flatMap (fun i =>
        let o := sec.mapOff + 32 * i
        failIf (bitsN (pl.readN (o + 5) 1) 3 2 != 0 || pl.readN (o + 10) 2 != 0 || pl.readN (o + 28) 4 != 0) (mapRej k i))
      ++ (List.range sec.intervals).flatMap (fun i =>
        failIf (pl.readN (sec.ownOff + 16 * i + 6) 2 != 0) ((planInterval pl sec i).rej k i))
      ++ c.badInstrs k sec (fun p => instrReserved p.q p.ins))

/-- Check 3, BUCKETS (R199, R221). -/
def check3 (c : LoadCtx) : Option Rej :=
  let pl := c.pl
  let nb := planBuckets pl
  let sizes := (List.range nb).map (fun k => planBucketSize pl k)
  let reps := (List.range 4).filter (fun r => bitN (pl.readN 51 1) r)
  let want := (List.range (max nb 1)).flatMap (fun b => reps.map (fun r => (b, r + 1)))
  let have_ := c.sections.map (fun x => (x.2.bucket, x.2.replicas))
  if decide (8 < nb) || sizes.contains 0 || !rising sizes || reps.isEmpty
    || want.any (fun w => (have_.filter (fun h => h == w)).length != 1) || decide (have_.length ≠ want.length)
    || (bitsN (pl.readN 51 1) 5 4 == 0 && reps != [3]) then some headerRej
  else none

/-- Check 4, FORMAT (R97): a tensor entry, reported by its index in the tensor table, or a deckle. -/
def check4 (c : LoadCtx) : Option Rej :=
  match (List.range (planTensors c.pl)).find? (fun k => decide (10 < (planTensor c.pl k).format)) with
  | some k => some { kind := 1, item := k }
  | none => c.perSection (fun k sec => c.badDeckles k sec (fun i =>
      decide (10 < (planDeckle c.pl sec i).format) || (planDeckle c.pl sec i).role == 7))

/-- Conversion control of an instruction, where it has one. -/
def instrConv (i : PInstr) : Option Nat :=
  if iOp i = 0x01 then some (mmaConv i) else if iOp i = 0x02 then some (leAt i 29 1) else none

/-- Check 5, CONVERSION (R124, R128). -/
def check5 (c : LoadCtx) : Option Rej :=
  c.perInstr (fun _ p => match instrConv p.ins with
    | some v => bitsN v 3 2 == 3 || bitsN v 1 0 == 3
    | none => false)

/-! ## Checks 6 to 12 -/

/-- Do levels rise strictly in code order? -/
def ascending : List Int → Bool
  | a :: b :: l => decide (a < b) && ascending (b :: l)
  | _ => true

/-- Is an image rejected (Table 3-5, R105)? -/
def imageBad (img : List Byte) : Bool :=
  let n := if leAt img 0 1 = 2 then 256 else 16
  let size := if leAt img 0 1 = 2 then 320 else 64
  !(leAt img 0 1 == 1 || leAt img 0 1 == 2) || decide (1 < leAt img 1 1) || !zeroAt img 4 12
    || !zeroAt img (16 + n) (size - 16 - n)
    || (leAt img 1 1 == 1 && !ascending ((List.range n).map (fun k => signed8 (leAt img (16 + k) 1))))

/-- The last table-load of a slot before an instruction in its queue and phase. -/
def LoadCtx.loadOf (c : LoadCtx) (sec : Section) (p : Placed) (slot : Nat) : Option Placed :=
  ((c.queueInstrs sec p.phase p.die p.q).filter (fun t =>
    decide (t.pos < p.pos) && iOp t.ins == 0x03 && leAt t.ins 12 1 % 8 == slot)).getLast?

/-- Check 6, CODEBOOK (R105). -/
def check6 (c : LoadCtx) : Option Rej :=
  c.perSection (fun k sec => (c.instrs sec).flatMap (fun p =>
    failIf (iOp p.ins == 0x03 && imageBad (c.image sec p)) { p.rej k with kind := 6 }
    ++ failIf ((instrDeckles p.ins).any (fun x =>
        let dk := planDeckle c.pl sec x.1
        (dk.format == 4 || dk.format == 5) && (match c.loadOf sec p dk.cb with
          | none => true
          | some t =>
            let img := c.image sec t
            (dk.format == 5 && leAt img 0 1 == 1) || (x.2 && leAt img 1 1 == 0)))) (p.rej k)))

/-- Does [lo, lo + n) leave the job's larder window on die d? `lo` is a die-local offset. -/
def Job.leavesLarder (j : Job) (d lo n : Nat) : Bool :=
  let b := j.ldrBase.getD d 0
  decide (lo < b) || decide (b + j.ldrBytes.getD d 0 < lo + n)
/-- Does [a, a + n) leave the job's attic window? -/
def Job.leavesAttic (j : Job) (a n : Nat) : Bool := decide (a < j.atcBase) || decide (j.atcBase + j.atcBytes < a + n)

/-- Does a buffer exceed its tier, or leave the job's window? -/
def bufferBad (c : LoadCtx) (b : Buffer) : Bool :=
  b.size == 0 ||
  (if b.tier = 0 then decide (5242880 < b.base + b.size)
   else if b.tier = 1 then decide (67108864 < b.base + b.size)
   else if b.tier = 2 then
     let d := c.map.getD b.die b.die
     let lo := c.bind.ldrBase.getD d 0 % 2 ^ 35 + b.base
     decide (32000000000 < lo + b.size) || c.job.leavesLarder d lo b.size
   else
     let lo := c.bind.atcBase + b.base
     decide (c.st.fld 0 ATC_CAP_BYTES 0 + c.st.fld 0 ATC_CAP_BYTES 1 < b.size) || c.job.leavesAttic lo b.size)

/-- Check 7, BUFFER_SIZE. -/
def check7 (c : LoadCtx) : Option Rej :=
  match allDies.find? (fun d =>
      let a := c.bind.area.getD d 0
      a != 0 && c.job.leavesLarder d (a % 2 ^ 35) (c.pl.readN (128 + 8 * d) 8)) with
  | some d => some { headerRej with die := d }
  | none => c.perSection (fun k sec => c.badBuffers k sec (bufferBad c))

/-- Check 8, ALIGNMENT. -/
def check8 (c : LoadCtx) : Option Rej :=
  c.perSection (fun k sec =>
    c.badBuffers k sec (fun b =>
      let g := if b.tier ≤ 1 then 64 else 128
      b.base % g != 0 || b.size % g != 0)
    ++ c.badDeckles k sec (fun i =>
      let dk := planDeckle c.pl sec i
      dk.sa % 64 != 0
        || (dk.pitch % 64 != 0
            && !(dk.role == 1 && dk.pitch == dk.rowBytes && (dk.rowBytes == 16 || dk.rowBytes == 32)))
        || (fmtBits dk.format == 4 && dk.orgC % 2 != 0)))

/-- Deckles of an array instruction whose shape breaks Table 5-2: rows and columns that follow another operand's extent, and the
limits of the mode. -/
def LoadCtx.mmaShapes (c : LoadCtx) (sec : Section) (i : PInstr) : List Nat :=
  let quad := mmaQuadMode i
  let lim := if quad then (if mmaMode i = 2 then 16 else 64) else (if mmaMode i = 2 then 32 else 128)
  (mmaStreams i).flatMap (fun st =>
    let dk := planDeckle c.pl sec
    let a := dk (mmaAct i st)
    let w := dk (mmaWgt i st)
    let o := dk (mmaOut i st)
    let aux := fun (n want : Nat) => match mmaAuxIdx i n st with
      | some x => if (dk x).shapeC = want then [] else [x]
      | none => []
    (if quad && decide (32 < a.shapeR) then [mmaAct i st] else [])
      ++ (if w.shapeR != a.shapeC || decide (lim < w.shapeC) then [mmaWgt i st] else [])
      ++ (if o.shapeR != a.shapeR || o.shapeC != w.shapeC then [mmaOut i st] else [])
      ++ aux 0 w.shapeC ++ aux 1 w.shapeC ++ aux 2 w.shapeC ++ aux 3 a.shapeR)

/-- Deckles of a VEC whose shape breaks Table 8-2 (M rows and N columns are D0's) or the state layouts of R325. The statistics
of NORM_BWD and NORM_PGRAD have one column or two (R311). -/
def LoadCtx.vecShapes (c : LoadCtx) (sec : Section) (i : PInstr) : List Nat :=
  let v := vecOp i
  let dk := fun n => (vecDeckle i n).map (planDeckle c.pl sec)
  let m := ((dk 0).map Deckle.shapeR).getD 0
  let n := ((dk 0).map Deckle.shapeC).getD 0
  let bad := fun (op : Nat) (ok : Deckle → Bool) => match vecDeckle i op with
    | some x => if ok (planDeckle c.pl sec x) then [] else [x]
    | none => []
  let is := fun (r cs : Nat) (k : Deckle) => k.shapeR == r && k.shapeC == cs
  let stats := fun (k : Deckle) => k.shapeR == m && (k.shapeC == 1 || k.shapeC == 2)
  let one := match dk 2 with | some k => k.shapeC == 1 | none => false
  if [0x10, 0x11, 0x12, 0x13, 0x14, 0x1E].contains v then bad 3 (is m 1)
  else if v = 0x18 then bad 1 (is 2 n) ++ bad 2 (is m 2)
  else if v = 0x19 then bad 1 (is 1 n) ++ bad 2 (is m 1)
  else if v = 0x1A then bad 2 stats
  else if v = 0x1B then bad 2 stats ++ bad 3 (fun k => is 2 n k || (one && is 1 n k))
  else if v = 0x20 || v = 0x21 then
    bad 1 (fun k => k.orgC % 64 == 0 && k.shapeC % 64 == 0 && k.padC % 64 == 0 && k.format == 10)
  else if v = 0x24 then bad 2 (is m 1)
  else if v = 0x25 then bad 1 (is m 1)
  else []

/-- Check 9, EXTENTS: the deckle by itself, and with the instruction that names it. -/
def check9 (c : LoadCtx) : Option Rej :=
  c.perSection (fun k sec =>
    let states := c.states sec
    c.badDeckles k sec (fun i =>
      let dk := c.deckle states sec i
      decide (dk.padR < dk.logR) || decide (dk.padC < dk.logC) || decide (dk.padR < dk.orgR + dk.shapeR)
        || decide (dk.padC < dk.orgC + dk.shapeC) || decide (dk.pitch < dk.rowBytes)
        || dk.shapeR == 0 || dk.shapeC == 0 || decide (65536 < dk.shapeC)
        || (dk.role == 0 && (decide (64 < dk.shapeR) || decide (dk.shapeC < dk.logC) || dk.orgC != 0))
        || (dk.role == 1 && decide (128 < dk.shapeC))
        || ((dk.role == 3 || dk.role == 4) && dk.shapeR != 1) || (dk.role == 6 && decide (65536 < dk.shapeR)))
    ++ (c.instrs sec).flatMap (fun p =>
      (if iOp p.ins = 0x01 then c.mmaShapes sec p.ins else if iOp p.ins = 0x02 then c.vecShapes sec p.ins else []).map
        (p.deckleRej k)))

/-- Shelf banks that [sa, sa + n) touches, as a mask. -/
def banksOf (sa n : Nat) : Nat :=
  ((List.range 8).filter (fun k => decide (sa < (k + 1) * 655360) && decide (k * 655360 < sa + n))).foldl
    (fun m k => m + 2 ^ k) 0

/-- Check 10, BOUNDS. -/
def check10 (c : LoadCtx) : Option Rej :=
  c.perSection (fun k sec =>
    let states := c.states sec
    c.badDeckles k sec (fun i =>
      let dk := c.deckle states sec i
      let b := planBuffer c.pl sec dk.buf
      let r := dk.region
      if b.tier = 0 then decide (r.1 < b.base) || decide (b.base + b.size < r.1 + r.2) || banksOf r.1 r.2 != dk.banks
      else decide (b.size < r.1 + r.2) || dk.banks != 0)
    ++ (c.instrs sec).flatMap (fun p =>
      if iOp p.ins = 0x03 then
        let sa := leAt p.ins 13 3 % 2 ^ 23
        let n := c.imageBytes sec p
        failIf (!((List.range sec.buffers).any (fun i =>
          let b := planBuffer c.pl sec i
          b.tier == 0 && b.die == p.die && b.core == p.q && decide (b.base ≤ sa)
            && decide (sa + n ≤ b.base + b.size)))) (p.rej k)
      else if iOp p.ins = 0x01 || iOp p.ins = 0x02 then
        (instrDeckles p.ins).flatMap (fun x =>
          let b := planBuffer c.pl sec (planDeckle c.pl sec x.1).buf
          failIf (!(b.tier == 0 && b.die == p.die && b.core == p.q)) (p.deckleRej k x.1))
      else []))

/-- Check 11, RAGGED (Table 5-2). -/
def check11 (c : LoadCtx) : Option Rej :=
  c.perSection (fun k sec => c.badDeckles k sec (fun i =>
    let dk := planDeckle c.pl sec i
    (dk.ragR && !(dk.role ≤ 2 || dk.role == 6)) || (dk.ragC && !(dk.role ≤ 3 || dk.role == 6))
      || (!dk.ragR && dk.selR != 0) || (!dk.ragC && dk.selC != 0)))

/-- Do two deckles agree along one of their dimensions each (true: rows)? -/
def dimAgree (a : Deckle) (ra : Bool) (b : Deckle) (rb : Bool) : Bool :=
  let f := fun (k : Deckle) (r : Bool) =>
    if r then (k.orgR, k.shapeR, k.logR, k.ragR, k.selR) else (k.orgC, k.shapeC, k.logC, k.ragC, k.selC)
  f a ra == f b rb

/-- Check 12, AGREEMENT. -/
def check12 (c : LoadCtx) : Option Rej :=
  let sig := fun (k : Deckle) => (k.format, k.logR, k.logC, k.padR, k.padC, k.rag, k.selR, k.selC)
  c.perSection (fun k sec =>
    c.badDeckles k sec (fun i =>
      let dk := planDeckle c.pl sec i
      match (List.range sec.deckles).find? (fun i => (planDeckle c.pl sec i).tensor == dk.tensor) with
      | some i => sig (planDeckle c.pl sec i) != sig dk
      | none => false)
    ++ (c.instrs sec).flatMap (fun p =>
      if iOp p.ins ≠ 0x01 then [] else
      (mmaStreams p.ins).flatMap (fun st =>
        let a := planDeckle c.pl sec (mmaAct p.ins st)
        let w := planDeckle c.pl sec (mmaWgt p.ins st)
        let o := planDeckle c.pl sec (mmaOut p.ins st)
        failIf (!(dimAgree a false w true) || !(dimAgree a true o true) || !(dimAgree w false o false))
          (p.deckleRej k (mmaAct p.ins st)))))

/-! ## Checks 13 to 20 -/

/-- Slices of an operand format in 8×8 mode (Table 2-5): float formats of 16 bits take two, FP32 three. -/
def fmtSlices (f : Nat) : Nat := if f = 8 || f = 9 then 2 else if f = 10 then 3 else 1

/-- Does an operand combination obey Table 2-2 in a mode? -/
def modeOk (mode act wgt : Nat) : Bool :=
  if mode = 0 then decide (act ≤ 1) && decide (wgt ≤ 1)
  else if mode = 1 then decide (act ≤ 3) && decide (wgt ≤ 1)
  else if mode = 2 then decide (act ≤ 10) && decide (wgt ≤ 10)
  else false

/-- Chunk K (Table 2-1): 32 in each of the three modes, 16 in quadrant mode. -/
def chunkK (quad : Bool) : Nat := if quad then 16 else 32

/-- Check 13, MODE (R50, R57, R63, R74). -/
def check13 (c : LoadCtx) : Option Rej :=
  c.perInstr (fun sec p =>
    if iOp p.ins ≠ 0x01 then false else
    let i := p.ins
    let quad := mmaQuadMode i
    let sk := mmaSk i
    decide (sk < (if quad then 16 else 32)) || decide (4096 < sk) || sk % chunkK quad != 0
      || mmaArrays i == 0 || (quad != (mmaQuads i != 0))
      || (mmaStreams i).any (fun st =>
          let a := planDeckle c.pl sec (mmaAct i st)
          let w := planDeckle c.pl sec (mmaWgt i st)
          !modeOk (mmaMode i) a.format w.format
            || decide ((if quad then 32 else 64) < a.shapeR)
            || mmaPasses i == 0
            || decide (min 3 (fmtSlices a.format + fmtSlices w.format - 1) < mmaPasses i)))

/-- May a weight format and mode carry a zero point other than 0 (Table 3-7)? -/
def zptAllowed (mode fmt : Nat) : Bool := fmt == 1 || (mode == 2 && (fmt == 0 || fmt == 3))

/-- Auxiliary deckles of one kind of array instructions that fail `f`, given the stream's weights. -/
def LoadCtx.badAux (c : LoadCtx) (k : Nat) (sec : Section) (kind : Nat) (f : PInstr → Deckle → Deckle → Bool) : List Rej :=
  (c.instrs sec).flatMap (fun p => if iOp p.ins ≠ 0x01 then [] else
    (mmaStreams p.ins).flatMap (fun st => match mmaAuxIdx p.ins kind st with
      | none => []
      | some z => failIf (f p.ins (planDeckle c.pl sec (mmaWgt p.ins st)) (planDeckle c.pl sec z)) (p.deckleRej k z)))

/-- Check 14, ZERO_POINT (R114). -/
def check14 (c : LoadCtx) : Option Rej :=
  c.perSection (fun k sec => c.badAux k sec 1 (fun i w z =>
    decide (3 < w.format) || !zptAllowed (mmaMode i) w.format || z.format != (if w.format % 2 = 0 then 2 else 3)))

/-- Check 15, GROUP_SCALE (R115). -/
def check15 (c : LoadCtx) : Option Rej :=
  c.perSection (fun k sec => c.badAux k sec 2 (fun i w g =>
    let sk := mmaSk i
    decide (6 ≤ w.format) || !([32, 64, 128].contains sk) || sk % chunkK (mmaQuadMode i) != 0
      || g.shapeR != ceilDiv w.shapeR sk))

/-- Check 16, COUNTS. -/
def check16 (c : LoadCtx) : Option Rej :=
  c.perSection (fun k sec =>
    if 4194304 < sec.deckles then [{ sect := some k, kind := 2, item := 0 }] else
    (List.range 16).flatMap (fun ph => allDies.flatMap (fun d => (List.range 96).flatMap (fun q =>
      failIf (decide (65536 < (planSched c.pl sec d q ph).2))
        { sect := some k, phase := ph, die := d, core := q, kind := 2, item := (planSched c.pl sec d q ph).1 }))))

/-- A mapping record (Table 5-5). -/
structure MapRec where
  opId    : Nat
  order   : Nat
  gm      : Nat
  gn      : Nat
  axis    : Nat
  mask    : Nat
  tm      : Nat
  tn      : Nat
  mTiles  : Nat
  nTiles  : Nat
  probs   : Nat
  tensor  : Nat

/-- Mapping record k of a section. -/
def planMap (pl : Mem) (sec : Section) (k : Nat) : MapRec :=
  let o := sec.mapOff + 32 * k
  let ds := pl.readN (o + 5) 1
  ⟨pl.readN o 2, pl.readN (o + 2) 1, pl.readN (o + 3) 1, pl.readN (o + 4) 1, ds % 4, ds / 16, pl.readN (o + 6) 2,
   pl.readN (o + 8) 2, pl.readN (o + 12) 4, pl.readN (o + 16) 4, pl.readN (o + 20) 4, pl.readN (o + 24) 4⟩

/-- Where R204 places output tile (p, i, j): the dies, the logical core and, in CYCLIC order, the array. -/
def placeTile (m : MapRec) (p i j : Nat) : List Nat × Nat × Nat :=
  let dies := maskBits 4 m.mask
  let nd := dies.length
  let per := ceilDiv (if m.axis = 1 then m.mTiles else m.nTiles) (max nd 1)
  let q := if m.axis = 1 then i / max per 1 else if m.axis = 2 then j / max per 1 else 0
  let i' := if m.axis = 1 then i - q * per else i
  let j' := if m.axis = 2 then j - q * per else j
  let ds := if m.axis = 1 || m.axis = 2 then (dies.drop q).take 1 else dies
  (ds, (i' % max m.gm 1 * m.gn + j' % max m.gn 1 + p) % max (m.gm * m.gn) 1, i' / max m.gm 1 % 4)

/-- An output stream: its instruction, its array and quadrant, its deckle. -/
abbrev OutStream := Placed × (Nat × Nat) × Deckle

/-- Output streams of a section that write a tensor. -/
def outStreams (c : LoadCtx) (sec : Section) (t : Nat) : List OutStream :=
  (c.instrs sec).flatMap (fun p => if iOp p.ins ≠ 0x01 then [] else
    (mmaStreams p.ins).filterMap (fun st =>
      let o := planDeckle c.pl sec (mmaOut p.ins st)
      if o.tensor = t then some (p, st, o) else none))

/-- The array operations of a section (R203): an operation is what one phase computes of one output tensor (log entry 18). Each
with its output streams, by tensor and then phase. -/
def LoadCtx.arrayOps (c : LoadCtx) (sec : Section) (t : Nat) : List (List OutStream) :=
  ((List.range 16).map (fun ph => (outStreams c sec t).filter (fun x => x.1.phase == ph))).filter (fun l => !l.isEmpty)

/-- Mapping records of a tensor, in table order. -/
def LoadCtx.recordsOf (c : LoadCtx) (sec : Section) (t : Nat) : List Nat :=
  (List.range sec.maps).filter (fun i => (planMap c.pl sec i).tensor == t)

/-- The operation that a mapping record stands for: the n-th record of a tensor is that of its n-th operation. -/
def LoadCtx.opOf (c : LoadCtx) (sec : Section) (i : Nat) : Option (List OutStream) :=
  let t := (planMap c.pl sec i).tensor
  (c.arrayOps sec t)[(c.recordsOf sec t).findIdx (fun x => x == i)]?

/-- Check 17, MAPPING: each record by itself and the places of its operation's tiles; an operation without a record fails at
its first output, a record without an operation by itself (R203). -/
def check17 (c : LoadCtx) : Option Rej :=
  c.perSection (fun k sec =>
    (List.range sec.maps).flatMap (fun i =>
      let m := planMap c.pl sec i
      let log := match (List.range sec.deckles).find? (fun x => (planDeckle c.pl sec x).tensor == m.tensor) with
        | some x => ((planDeckle c.pl sec x).logR, (planDeckle c.pl sec x).logC)
        | none => (0, 0)
      if decide (1 < m.order) || m.axis == 3 || m.gm == 0 || m.gn == 0 || decide (96 < m.gm * m.gn) || m.mask == 0
          || m.tm == 0 || m.tn == 0 || m.mTiles != ceilDiv log.1 m.tm || m.nTiles != ceilDiv log.2 m.tn then [mapRej k i]
      else
        let member := match planTensorIdx c.pl m.tensor with
          | some x => (planTensor c.pl x).owner
          | none => 0
        match c.opOf sec i with
        | none => [mapRej k i]
        | some outs => outs.flatMap (fun x =>
          let o := x.2.2
          let pl := placeTile m o.problem (o.orgR / m.tm) (o.orgC / m.tn)
          failIf (o.orgR % m.tm != 0 || o.orgC % m.tn != 0 || o.shapeR != m.tm || o.shapeC != m.tn
              || decide (m.probs ≤ o.problem) || !pl.1.contains x.1.die || x.1.q != pl.2.1
              || x.2.1.1 != (if m.order = 0 then pl.2.2 else member))
            (x.1.deckleRej k (mmaOut x.1.ins x.2.1))))
    ++ ((List.range (planTensors c.pl)).map (fun x => (planTensor c.pl x).id)).flatMap (fun t =>
      ((c.arrayOps sec t).drop (c.recordsOf sec t).length).flatMap (fun outs => match outs with
        | x :: _ => [x.1.deckleRej k (mmaOut x.1.ins x.2.1)]
        | [] => [])))

/-- Check 18, TILE_COVERAGE: every output tile once on each die that runs it; instructions gated to different variants
do not repeat one another. -/
def check18 (c : LoadCtx) : Option Rej :=
  c.perSection (fun k sec => (List.range sec.maps).flatMap (fun i =>
    let m := planMap c.pl sec i
    let outs := (c.opOf sec i).getD []
    let bad := (List.range m.probs).any (fun p => (List.range m.mTiles).any (fun a => (List.range m.nTiles).any (fun b =>
      (placeTile m p a b).1.any (fun d =>
        let here := outs.filter (fun x => x.1.die == d && x.2.2.problem == p && x.2.2.orgR == a * m.tm
          && x.2.2.orgC == b * m.tn)
        let masks := here.map (fun x => if iFlag x.1.ins 2 then iVgMask x.1.ins else 15)
        here.isEmpty || [1, 2, 4, 8].any (fun v => decide (1 < (masks.filter (fun q => (q &&& v) != 0)).length))))))
    let pad := outs.any (fun x => decide (x.2.2.padR < m.mTiles * m.tm) || decide (x.2.2.padC < m.nTiles * m.tn))
    failIf (bad || pad) (mapRej k i)))

/-- Check 19, OVERLAP: no two operands of one instruction overlap in what one of them writes; a read-write operand is one region
(R307). -/
def check19 (c : LoadCtx) : Option Rej :=
  c.perSection (fun k sec =>
    let states := c.states sec
    c.badInstrs k sec (fun p =>
      let rs := (c.regions states sec p).zipIdx
      rs.any (fun a => rs.any (fun b => decide (a.2 < b.2) && a.1.conflicts b.1))))

/-- Owner code of the unit that executes an instruction (R212). -/
def instrOwner (op : Nat) : Nat := if op = 0x02 then 3 else if op = 0x08 || op = 0x04 then 2 else 1

/-- Banks of plan dies that a region touches: 0 to 7 shelf banks of its core, 8 to 23 store-room banks. -/
def Region.banks (r : Region) : List Nat :=
  if r.tier = 0 then maskBits 8 (banksOf r.start r.len)
  else if r.tier = 1 then
    ((List.range 16).filter (fun b => decide (r.start < (b + 1) * 4194304) && decide (b * 4194304 < r.start + r.len))).map (· + 8)
  else []

/-- Does an interval hold from the issue of an instruction to its completion (R212, log entry 18)? In the interval's own queue
an instruction stands at its position. One of another queue issues only when the interval's queue has reached START, and holds
that queue back, until it completes, from reaching END. -/
def LoadCtx.spans (c : LoadCtx) (sec : Section) (v : Interval) (p : Placed) : Bool :=
  let q := if v.bank < 8 then v.core else 96
  if p.die = v.die && p.q == q then decide (v.start ≤ p.pos) && decide (p.pos < v.stop)
  else
    let late := c.unissued sec p.phase (fun x => x.same p)
    let here := late.filter (fun x => x.die == v.die && x.q == q)
    (v.start == 0 || (c.unissued sec p.phase (fun x => x.die == v.die && x.q == q && x.pos == v.start - 1)).any (fun x => x.same p))
      && decide ((match here with
        | x :: _ => x.pos
        | [] => (planSched c.pl sec v.die q p.phase).2) < v.stop)

/-- Check 20, OWNERSHIP (R212): an interval by itself, or the first interval of a bank that an instruction touches without one that
serves it. -/
def check20 (c : LoadCtx) : Option Rej :=
  c.perSection (fun k sec =>
    let states := c.states sec
    let ivs := (List.range sec.intervals).map (fun i => (i, planInterval c.pl sec i))
    ivs.flatMap (fun x =>
      failIf (decide (3 < x.2.owner) || decide (x.2.stop < x.2.start) || decide (23 < x.2.bank)
        || ivs.any (fun y => decide (y.1 < x.1) && y.2.die == x.2.die && y.2.bank == x.2.bank && y.2.core == x.2.core
            && y.2.phase == x.2.phase && decide (y.2.start < x.2.stop) && decide (x.2.start < y.2.stop))) (x.2.rej k x.1))
    ++ (c.instrs sec).flatMap (fun p => (c.regions states sec p).flatMap (fun r => r.banks.flatMap (fun b =>
      let here := ivs.filter (fun y => y.2.die == r.die && y.2.bank == b && y.2.phase == p.phase
        && (y.2.core == r.core || decide (8 ≤ b)))
      failIf (!(here.any (fun y => y.2.owner == instrOwner (iOp p.ins) && c.spans sec y.2 p)))
        { p.rej k with kind := 5, item := (here.head?.map Prod.fst).getD 0 }))))

/-! ## Checks 21 to 25 -/

/-- Is a VEC refused by R306 or R319? -/
def vecBad (c : LoadCtx) (sec : Section) (i : PInstr) : Bool :=
  match vopShape (vecOp i) with
  | none => true
  | some cols =>
    let present := leAt i 31 1 % 32
    let want := (List.range 5).foldl (fun m k => if cols.getD k 0 = 0 then m else m + 2 ^ k) 0
    let draws := (vecOp i == 0x28 || vecOp i == 0x29) || bitsN (leAt i 29 1) 3 2 == 2
    let elementwise := [0x01, 0x02, 0x03, 0x04, 0x05, 0x08, 0x09, 0x0A, 0x0B, 0x0C, 0x28, 0x29].contains (vecOp i)
    decide (2 ≤ vecMode i % 4) || bitsN (vecMode i) 3 2 == 3 || (vecOp i != 0x15 && bitsN (vecMode i) 3 2 != 0)
      || !(present == want || ((vecOp i == 0x20 || vecOp i == 0x21) && present + 8 == want))
      || (draws && leAt i 30 1 == 0)
      || (vecMode i % 4 == 1 && !(elementwise && (instrDeckles i).all (fun x =>
            [8, 9].contains (planDeckle c.pl sec x.1).format)))
      || (vecOp i == 0x15 && !bitN (vecMode i) 5)

/-- Check 21, PLACEMENT. Each die queue that a section runs begins its phase 0 with a PWR (R231). -/
def check21 (c : LoadCtx) : Option Rej :=
  c.perSection (fun k sec =>
    c.badInstrs k sec (fun p =>
      let op := iOp p.ins
      let core := decide (p.q < 96)
      let known := [0x00, 0x01, 0x02, 0x03, 0x04, 0x08, 0x09, 0x0A].contains op
      let place := if core then [0x00, 0x01, 0x02, 0x03, 0x0A].contains op else [0x00, 0x04, 0x08, 0x09, 0x0A].contains op
      let layer := (List.range (planLayers c.pl)).find? (fun k => (planLayer c.pl k).id == iVgLayer p.ins)
      !known || !place || (iFlag p.ins 3 && p.phase != 0)
        || (p.phase == 0 && !(iFlag p.ins 3 || [0x00, 0x09, 0x0A].contains op))
        || (iFlag p.ins 3 && !iFlag p.ins 2)
        || (iFlag p.ins 2 && (match layer with
            | none => true
            | some k => (iVgMask p.ins &&& (15 - (planLayer c.pl k).present % 16)) != 0))
        || (op == 0x09 && decide (1500 < leAt p.ins 12 2))
        || (iFlag p.ins 0 && iWaitCount p.ins == 0)
        || (op == 0x01 && bitsN (mmaConv p.ins) 3 2 == 2 && mmaRstream p.ins == 0)
        || (op == 0x02 && vecBad c sec p.ins))
    ++ (List.range sec.replicas).flatMap (fun d =>
      failIf (match c.queueInstrs sec 0 d 96 with
        | p :: _ => iOp p.ins != 0x09
        | [] => true) { sect := some k, die := d, kind := 2, item := (planSched c.pl sec d 96 0).1 })
    ++ (List.range 16).flatMap (fun ph =>
      match (c.queues sec ph).flatten.filter (fun p => iOp p.ins == 0x02 && vecOp p.ins == 0x15) with
      | [] => []
      | a :: t => t.flatMap (fun p => failIf (bitsN (vecMode p.ins) 3 2 != bitsN (vecMode a.ins) 3 2) (p.rej k))))

/-- Check 22, DEPENDENCY: the next instruction of a queue that is left unfinished. -/
def check22 (c : LoadCtx) : Option Rej :=
  c.perSection (fun k sec => (List.range 16).flatMap (fun ph => match c.unissued sec ph (fun _ => false) with
    | p :: _ => [p.rej k]
    | [] => []))

/-- Hops from one die to another, clockwise. -/
def hopsCw (a b : Nat) : Nat := (b + 4 - a) % 4

/-- Check 23, TRANSFER. In a FIXED plan a couch path is at most two hops the way that PATH names. -/
def check23 (c : LoadCtx) : Option Rej :=
  c.perSection (fun k sec =>
    let states := c.states sec
    c.badInstrs k sec (fun p =>
      if iOp p.ins ≠ 0x08 then false else
      let a := c.deckle states sec (iDeckle p.ins 12)
      let b := c.deckle states sec (iDeckle p.ins 15)
      let ba := planBuffer c.pl sec a.buf
      let bb := planBuffer c.pl sec b.buf
      let path := leAt p.ins 18 1
      a.shapeR != b.shapeR || a.rowBytes != b.rowBytes || (ba.tier != 3 && ba.die != p.die) || decide (3 < path)
        || (path == 0 && ((bb.tier != 3 && bb.die != p.die) || ba.tier == 3 || bb.tier == 3))
        || ((path == 1 || path == 2) && !planReplica c.pl && ba.tier != 3 && bb.tier != 3
            && decide (2 < (if path = 1 then hopsCw ba.die bb.die else hopsCw bb.die ba.die)))))

/-- The YIELDs of a queue: (YIELD_ID, STEP_END). -/
def yieldsOf (q : List Placed) : List (Nat × Bool) :=
  q.filterMap (fun p => if iOp p.ins = 0x0A then some (leAt p.ins 12 2, bitN (leAt p.ins 14 1) 0) else none)

/-- Check 24, YIELD (R243): queues with instructions agree in their YIELDs; STEP_END stands on the last YIELD of phase
PHASES and on no other; every live bank has an interval that spans the YIELD. -/
def check24 (c : LoadCtx) : Option Rej :=
  c.perSection (fun k sec => (List.range 16).flatMap (fun ph =>
    let qs := c.queues sec ph
    match qs with
    | [] => []
    | q0 :: _ =>
      let ys := yieldsOf q0
      let endOk := if ph = planPhases c.pl then
          (ys.getLast?.map Prod.snd == some true) && (ys.dropLast.all (fun y => !y.2))
        else ys.all (fun y => !y.2)
      qs.flatMap (fun q =>
        failIf (!endOk || yieldsOf q != ys) ((q.head?.map (fun p => p.rej k)).getD headerRej)
        ++ q.flatMap (fun p =>
          if iOp p.ins ≠ 0x0A then [] else
          let live := if p.q < 96 then maskBits 8 (leAt p.ins 15 1) else (maskBits 16 (leAt p.ins 16 2)).map (· + 8)
          failIf (live.any (fun b => !((List.range sec.intervals).any (fun i =>
            let v := planInterval c.pl sec i
            v.die == p.die && v.bank == b && (decide (8 ≤ b) || v.core == p.q) && v.phase == ph
              && decide (v.start ≤ p.pos) && decide (p.pos < v.stop))))) (p.rej k)))))

/-- Check 25 (R366). -/
def check25 (c : LoadCtx) : Option Rej :=
  c.perSection (fun k sec =>
    let reds := (c.instrs sec).filter (fun p => iOp p.ins == 0x04)
    let key := fun (p : Placed) => (leAt p.ins 18 2, leAt p.ins 20 2, leAt p.ins 22 4, leAt p.ins 26 1 % 2)
    (List.range 16).flatMap (fun ph =>
      let used := (List.range sec.replicas).map (fun d => reds.filter (fun p => p.phase == ph && p.die == d))
      match used with
      | [] => []
      | l0 :: _ => used.flatMap (fun l =>
          failIf (l.map key != l0.map key)
            (((l ++ l0).head?.map (fun p => p.rej k)).getD headerRej)))
    ++ reds.flatMap (fun p =>
      let id := leAt p.ins 18 2
      let ch := leAt p.ins 20 2
      let len := leAt p.ins 22 4
      let buf := fun o => planBuffer c.pl sec (leAt p.ins o 2)
      let comp := bitN (leAt p.ins 26 1) 0
      failIf (id == 0xFFFF
        || decide (1 < (reds.filter (fun q => q.die == p.die && leAt q.ins 18 2 == id)).length)
        || decide (ch < 256) || decide (16384 < ch) || decide (len ≤ (ch - 1) * 2048) || decide (ch * 2048 < len)
        || (buf 12).tier != 1 || (buf 14).tier != 1
        || decide ((buf 12).size < ch * (if comp then 8192 else 4160))
        || decide ((buf 14).size < ch * 4160 + (if comp then 4 * ch * 320 else 0))
        || (!comp && leAt p.ins 16 2 != 0xFFFF)
        || (comp && (leAt p.ins 16 2 == 0xFFFF || (buf 16).tier != 2 || decide ((buf 16).size < ch * 8192))))
        (p.rej k)))

/-- The checks in order, each with its status. -/
def loaderChecks : List (Nat × (LoadCtx → Option Rej)) :=
  [(0x1040, check1), (0x1041, check2), (0x1042, check3), (0x1043, check4), (0x1044, check5), (0x1045, check6),
   (0x1046, check7), (0x1047, check8), (0x1048, check9), (0x1049, check10), (0x104A, check11), (0x104B, check12),
   (0x104C, check13), (0x104D, check14), (0x104E, check15), (0x104F, check16), (0x1050, check17), (0x1051, check18),
   (0x1052, check19), (0x1053, check20), (0x1054, check21), (0x1055, check22), (0x1056, check23), (0x1057, check24),
   (0x105A, check25)]

/-- The first check that fails, with the item (R210). -/
def runChecks (c : LoadCtx) : Option (Nat × Rej) :=
  firstSome (fun x => (x.2 c).map (fun r => (x.1, r))) loaderChecks

/-- HUB_LDR_REJ for a rejection (Table 5-10). -/
def rejWord (pl : Mem) (j st : Nat) (r : Rej) : Nat :=
  let b := match r.sect with | some k => (planSection pl k).bucket % 8 | none => 0
  st + j * 2 ^ 16 + b * 2 ^ 22 + r.phase % 16 * 2 ^ 25 + r.die % 4 * 2 ^ 29 + r.core % 128 * 2 ^ 31
    + r.kind * 2 ^ 38 + r.item % 2 ^ 22 * 2 ^ 41 + 2 ^ 63

/-- Record a rejection: the registers while VALID is 0, the counter, and a PLAN_REJECT event (R209, R214). -/
def State.recordRej (s : State) (j seq : Nat) (pl : Mem) (st : Nat) (r : Rej) : State :=
  let w := rejWord pl j st r
  let s := if s.bit 0 HUB_LDR_REJ_VALID then s else
    let s := s.setReg 0x508 (BitVec.ofNat 64 w)
    match r.sect with
    | some k => s.setReg 0x528 (BitVec.ofNat 64 (k % 32 + (planSection pl k).bucket % 8 * 32
        + (planSection pl k).replicas % 8 * 256))
    | none => s.setReg 0x528 0
  (s.bump 0 HUB_LDR_CNT_REJECTED_V).event j { type := 7, seq := some seq, a := w }

/-- Copy the tables of a checked image to each die's plan area (R217): the queues fetch from the copy that the binding
keeps; the layout of a plan area is not given, so its larder bytes, and whether poison of the image reaches it, are free values
(log entry 13). -/
def State.copyPlan (s : State) (j : Nat) (b : Binding) (pl : Mem) (states : Tab Nat) : State :=
  let bad := s.larder.anyPoison b.imageLa b.imageBytes && s.free.toNat % 2 == 1
  let s := s.drawn.forAll allDies (fun s d =>
    let n := pl.readN (128 + 8 * d) 8
    if b.area.getD d 0 = 0 || n = 0 then s
    else (s.larderWrite (b.area.getD d 0) (freeBytes s.fresh n) bad).drawnN n)
  s.modJob j (fun x => { x with binding := some { b with loaded := true, plan := pl, states := states } })

/-- The plan loader on job j (R208): nothing to do where the image has passed; else the checks. Answers the status of a
rejection. -/
def State.loadPlan (s : State) (j seq : Nat) : State × Option Nat :=
  match (s.job j).binding with
  | none => (s, some 0x1009)
  | some b =>
    if b.loaded then (s, none) else
    let s := (s.setFld 0 HUB_LDR_STAT_JOB j).setFld 0 HUB_LDR_STAT_SECTION 0
    let pl : Mem := { cells := Mem.window s.larder.cells b.imageLa b.imageBytes 0 }
    let ctx : LoadCtx := ⟨pl, s.job j, b, maskBits 4 (s.fld 0 HUB_FLT_JOB_SET j), s⟩
    match runChecks ctx with
    | some (st, r) =>
      let s := s.setFld 0 HUB_LDR_STAT_SECTION (r.sect.getD 0)
      (s.recordRej j seq pl st r, some st)
    | none => ((s.copyPlan j b pl ctx.allStates).bump 0 HUB_LDR_CNT_PASSED_V, none)

end Sys2Proof.Machine
end

