-- ==== Sys2Proof/Machine/Cellar.lean ====
section
/-!
DEFINITION. Cellar snapshots and restore (R442 to R470): captures at their points, sealing, retention, listing, deletion,
restores with their checks, rollback restores and recovery.
-/
namespace Sys2Proof.Machine

/-! ## Plan identity and slots -/

/-- PLAN_DIGEST of a slot's binding, if it has one. -/
def State.planId (s : State) (j : Nat) : Option (List Byte) := (s.job j).binding.map (fun b => planDigest (s.planOf b))

/-- Bytes of a region (R442). -/
def regionBytes : Nat := 2097152

/-- Data slots that the cellar's manifests and stored regions occupy. -/
def Cellar.taken (c : Cellar) : List Nat := c.store.map (fun r => r.slot) ++ c.snaps.flatMap (fun x => x.slots)

/-- How many data slots are in use. -/
def Cellar.used (c : Cellar) : Nat := c.taken.length

/-- The lowest `n` free data slots (R442: slots 0 to 1,023 are the system area; R465: only free slots are written. Which of them
is open: log entry 26, DESIGN CHOICE). -/
def Cellar.freeSlots (c : Cellar) (n : Nat) : List Nat :=
  (((List.range (c.used + n)).map (fun k => 1024 + k)).filter (fun k => !c.taken.contains k)).take n

/-! ## Encryption (R443) -/

/-- The first sector of a slot: 512 sectors of 4 KiB each. -/
def slotSector (slot : Nat) : Nat := slot * 512

/-- Bytes as the cellar holds them from the first sector of a slot on, padded to whole sectors; or read back. -/
def State.sealAt (s : State) (slot : Nat) (bs : List Byte) : List Byte :=
  xtsSectors false (s.sec.ckCellar.getD []) (slotSector slot) (padTo (alignUp bs.length 4096) bs)
/-- Sectors of a slot, decrypted. -/
def State.openAt (s : State) (slot : Nat) (bs : List Byte) : List Byte :=
  xtsSectors true (s.sec.ckCellar.getD []) (slotSector slot) bs

/-- The bytes of a manifest that lies in several slots: 2 MiB in each. -/
def State.sealIn (s : State) (slots : List Nat) (bs : List Byte) : List Byte :=
  let ps := chunksOf regionBytes bs
  (slots.zip ps).flatMap (fun x => s.sealAt x.1 x.2)
/-- A manifest read back. -/
def State.openIn (s : State) (slots : List Nat) (bs : List Byte) : List Byte :=
  let ps := chunksOf regionBytes bs
  (slots.zip ps).flatMap (fun x => s.openAt x.1 x.2)

/-- Show the directory (Table 12-9). -/
def State.showCellar (s : State) : State :=
  ((s.setFld 0 CLR_USE_SLOTS s.cellar.used).setFld 0 CLR_USE_SNAPSHOTS s.cellar.snaps.length).showCellarBusy

/-- Change the cellar. -/
def State.modCellar (s : State) (f : Cellar → Cellar) : State := { s with cellar := f s.cellar }

/-- Stored regions that some committed manifest still references (R444), or that `held` keeps. -/
def Cellar.sweep (c : Cellar) (held : Stored → Bool) : Cellar :=
  { c with store := c.store.filter (fun r =>
      held r || c.snaps.any (fun x => x.regions.any (fun e => !e.zero && e.slot == r.slot))) }

/-- Does a capture under way reference a stored region, its parent's or one that it found by its digest? -/
def State.captureHolds (s : State) (r : Stored) : Bool :=
  s.jobs.any (fun e => match e.2.capture with
    | some { snap := some x, .. } => x.regions.any (fun e =>
        !e.zero && (if e.slot = 0 then r.shared && r.digest == e.digest else e.slot == r.slot))
    | _ => false)

/-- Free the slots that nothing references. -/
def State.sweep (s : State) : State := s.modCellar (fun c => c.sweep s.captureHolds)

/-- Remove a snapshot from the directory and free its slots (R460). -/
def State.deleteSnap (s : State) (id : Nat) : State :=
  (s.modCellar (fun c => { c with snaps := c.snaps.filter (fun x => x.id != id) })).sweep

/-- A committed snapshot. -/
def Cellar.snap (c : Cellar) (id : Nat) : Option Snap := c.snaps.find? (fun x => x.id == id)

/-- FLAGS bits of Table 12-3. -/
def Snap.agreement (x : Snap) : Bool := bitN x.flags 3
/-- INCONSISTENT. -/
def Snap.inconsistent (x : Snap) : Bool := bitN x.flags 4

/-- The two newest AGREEMENT snapshots of a slot and plan, newest first (R457). -/
def Cellar.agreements (c : Cellar) (slot : Nat) (plan : List Byte) : List Snap :=
  ((c.snaps.filter (fun x => x.slot == slot && x.plan == plan && x.agreement)).reverse).take 2

/-- Is a snapshot protected as AGREEMENT: one of the two newest, its slot still bound to its plan (R457)? -/
def State.agreementKept (s : State) (x : Snap) : Bool :=
  s.planId x.slot == some x.plan && (s.cellar.agreements x.slot x.plan).any (fun y => y.id == x.id)

/-- Is a snapshot protected (R457)? -/
def State.snapKept (s : State) (x : Snap) : Bool := x.pinned || s.agreementKept x

/-! ## What a capture reads (R445, R446) -/

/-- Ranges [lo, hi) with the excluded ranges cut out. -/
def cutSpans (lo hi : Nat) (cuts : List (Nat × Nat)) : List (Nat × Nat) :=
  cuts.foldl (fun spans c => spans.flatMap (fun x =>
    (if x.1 < min x.2 c.1 then [(x.1, min x.2 c.1)] else []) ++ (if max x.1 c.2 < x.2 then [(max x.1 c.2, x.2)] else [])))
    (if lo < hi then [(lo, hi)] else [])

/-- Regions that [lo, hi) touches, each with its captured ranges. -/
def spanRegions (lo hi : Nat) (cuts : List (Nat × Nat)) : List (Nat × List (Nat × Nat)) :=
  if hi ≤ lo then [] else
  (List.range ((hi - 1) / regionBytes + 1 - lo / regionBytes)).map (fun i =>
    let a := (lo / regionBytes + i) * regionBytes
    (a, cutSpans (max lo a) (min hi (a + regionBytes)) cuts))

/-- EXCLUDE ranges and staging areas of a SNAP_TAKE block (Table 12-2). -/
def Cmd.snapCuts (c : Cmd) : List (Nat × Nat) :=
  ((List.range 8).map (fun k => (c.blk (80 + 16 * k) 8, c.blk (80 + 16 * k) 8 + c.blk (88 + 16 * k) 8)))
    ++ (if bitN (c.blk 8 1) 4 then (List.range 4).filterMap (fun d =>
      if c.blk (16 + 8 * d) 8 = 0 then none else some (c.blk (16 + 8 * d) 8, c.blk (16 + 8 * d) 8 + c.blk (48 + 8 * d) 8))
      else [])

/-- Everything that a capture of job j holds: (die, attic, address, ranges), ascending, the attic last (R455). -/
def State.snapItems (s : State) (j : Nat) (c : Cmd) : List (Nat × Bool × Nat × List (Nat × Nat)) :=
  let x := s.job j
  ((maskBits 4 (s.jobSet j)).flatMap (fun d =>
    let lo := d * 2 ^ 35 + x.ldrBase.getD d 0
    (spanRegions lo (lo + x.ldrBytes.getD d 0) c.snapCuts).map (fun r => (d, false, r.1, r.2))))
  ++ (if bitN (c.blk 8 1) 1 then
      (spanRegions x.atcBase (x.atcBase + x.atcBytes) []).map (fun r => (0, true, r.1, r.2)) else [])

/-- A region as captured: bytes outside its ranges are zero (R446). -/
def State.grab (s : State) (attic : Bool) (addr : Nat) (spans : List (Nat × Nat)) : Mem :=
  let m := if attic then s.attic else s.larder
  spans.foldl (fun r x => r.copy m (x.1 - addr) x.1 (x.2 - x.1)) {}

/-- Sectors that a region keeps once its trailing zero sectors are removed (R444). -/
def Mem.sectors (m : Mem) : Nat := match m.cells.getLast? with
  | some c => c.1 / 4096 + 1
  | none => 0

/-! ## SNAP_TAKE -/

/-- End a SNAP_TAKE: its capture is gone, the command completes. -/
def State.endTake (s : State) (j seq st : Nat) : State :=
  let s := (s.modJob j (fun x => { x with capture := none })).sweep
  let s := ((s.setFld 0 CLR_JOB_TAKING 0 j).setFld 0 CLR_FLIGHT_MIB 0).showCellar
  (s.outcome j seq st).finish j seq

/-- The status of a SNAP_TAKE block that cannot be taken (R12, Table 12-2, R468). -/
def State.takeCheck (s : State) (j : Nat) (c : Cmd) : Option Nat :=
  let bad := bitsN (c.blk 8 1) 7 5 != 0 || decide (1 < c.blk 9 1) || c.blk 10 6 != 0 || c.blk 208 48 != 0
  let stage := bitN (c.blk 8 1) 4
  let x := s.job j
  let stageBad := stage && (List.range 4).any (fun d =>
    let a := c.blk (16 + 8 * d) 8
    let n := c.blk (48 + 8 * d) 8
    a != 0 && (a % regionBytes != 0 || n % regionBytes != 0 || a / 2 ^ 35 != d || x.leavesLarder d (a % 2 ^ 35) n))
  if bad then some 0x1002
  else if !s.bit 0 CLR_STAT_READY then some 0x106A
  else if (s.planId j).isNone then some 0x1061
  else if stageBad || (List.range 8).any (fun k => c.blk (80 + 16 * k) 8 % 128 != 0 || c.blk (88 + 16 * k) 8 % 128 != 0) then
    some 0x1005
  else none

/-- The command directly before a SEQ in a list, and whether every earlier command of the two has completed. -/
def directlyBefore (seq : Nat) : List Cmd → Option Cmd
  | a :: b :: rest => if b.seq = seq then some a else directlyBefore seq (b :: rest)
  | _ => none

/-- Start a SNAP_TAKE: its point is waited for. -/
def State.takeStart (s : State) (j : Nat) (c : Cmd) (waits : Bool) : State :=
  match s.takeCheck j c with
  | some st => s.refuse j c.seq st
  | none =>
    let s := s.setFld 0 CLR_JOB_TAKING 1 j
    s.modJob j (fun x => { x with capture := some { seq := c.seq, entry := c.blk 9 1 == 1, waits := waits } })

/-- Has the run that job j takes part in reached its boundary with the watermark and the steward done, its completion not posted
(R245, R450)? -/
def State.atBoundary (s : State) (j : Nat) : Bool :=
  match s.runOf j with
  | some (lead, r) => r.ended && !s.wmPending lead r && r.stewDone && !r.posted
  | none => false

/-- Did the boundary of job j's run roll back or find the job held? -/
def State.rolledBack (s : State) (j : Nat) : Bool := match s.runOf j with
  | some (_, r) => r.rolled
  | none => false

/-- SNAP_TAKE (0x3000): starts under R377, or at the boundary of the RUN directly before it (R450). -/
def execSnapTake (j : Slot) (s : State) : Host.Outcome State Fault Refusal :=
  .next (match s.waitingCmd j (fun c => c.op == 0x3000) with
    | none => s
    | some c =>
      let early : Bool := match directlyBefore c.seq (s.qp j).cmds with
        | some p => p.op == 0x2002 && p.started && s.atBoundary j && !s.rolledBack j && c.blk 9 1 == 0 && s.dep c == .met
            && ((s.qp j).cmds.head?.map Cmd.seq) == some p.seq && !s.qpStopped j && !s.bit 0 KGR_QSTAT_RESETTING j
        | none => false
      if early then
        let s := (s.modCmd j c.seq (fun c => { c with started := true })).takeStart j c true
        s.params j
      else s.start j (fun c => c.op == 0x3000) (fun s c => s.takeStart j c false))

/-- Is the command directly after the SNAP_TAKE a RUN that has not completed? None while nothing has been fetched after it
(R450). -/
def State.nextIsRun (s : State) (j seq : Nat) : Option Bool :=
  let next := (seq + 1) % 2 ^ 32
  match (((s.qp j).cmds.dropWhile (fun c => c.seq != seq)).drop 1).head? with
  | some c => some (c.op == 0x2002 && c.seq == next)
  | none => if s.fld 0 KGR_SEQ_NEXT_V j = next then none else some false

/-- Slots that a capture may need are freed of the job's oldest unprotected AUTO snapshots (R458); answers how many were
deleted. -/
def pruneLoop : Nat → State → Nat → List Byte → Nat → Nat → State × Nat
  | 0, s, _, _, _, n => (s, n)
  | k + 1, s, j, plan, need, n =>
    if need ≤ s.fld 0 CLR_CAP_DATA_SLOTS - s.cellar.used && decide (s.cellar.snaps.length < 4096) then (s, n)
    else match s.cellar.snaps.find? (fun x => x.slot == j && x.plan == plan && x.auto && !s.snapKept x) with
      | none => (s, n)
      | some x => pruneLoop k (s.deleteSnap x.id) j plan need (n + 1)

/-- Number of bytes of a manifest before its signature, with a state record of `n` bytes and `r` region entries (R455). -/
def manifestBody (n r : Nat) : Nat := 512 + alignUp n 64 + alignUp (48 * r) 64

/-- Slots that captures under way will write. -/
def State.slotsHeld (s : State) : Nat :=
  s.jobs.foldl (fun n e => match e.2.capture with
    | some c => n + c.fresh.length + c.torn.length + (match c.snap with
      | some x => ceilDiv x.size regionBytes
      | none => 0)
    | none => n) 0

/-- The freeze of job j's capture begins (R451, R452): the regions are read and hashed, those not yet stored are set aside, the
positions are recorded (R448). -/
def State.freeze (s : State) (j : Nat) (cap : Capture) (c : Cmd) (plan : List Byte) : State :=
  let job := s.job j
  let incr := bitN (c.blk 8 1) 0
  let parent := if incr then (s.cellar.snap (c.blk 0 8)).filter (fun x => x.slot == j && x.plan == plan) else none
  let items := s.snapItems j c
  let kept := fun (it : Nat × Bool × Nat × List (Nat × Nat)) =>
    if it.2.1 then none else parent.bind (fun p =>
      if s.regionEpoch (it.2.2.1 / regionBytes) < p.epoch then
        p.regions.find? (fun e => !e.attic && e.die == it.1 && e.addr == it.2.2.1) else none)
  let n := s.free.toNat % 1048576
  let record := freeBytes (s.fresh + 1) n
  let s := s.drawnN (n + 1)
  let size := manifestBody n items.length + alignUp 3309 64
  let reads := (List.range items.length).filter (fun k => match items[k]? with
    | some it => (kept it).isNone
    | none => false)
  let need := s.slotsHeld + reads.length + ceilDiv size regionBytes
  let (s, pruned) := pruneLoop s.cellar.snaps.length s j plan need 0
  let s := (s.bump 0 CLR_CNT_PRUNED_V pruned).showCellar
  if s.fld 0 CLR_CAP_DATA_SLOTS - s.cellar.used < need || decide (4096 ≤ s.cellar.snaps.length) then
    s.endTake j cap.seq 0x1063
  else
    let epoch := s.cellar.epoch + 1
    let id := s.cellar.nextId
    let s := s.modCellar (fun x => { x with epoch := epoch, nextId := id + 1 })
    let s := (s.setFld 0 CLR_EPOCH_V epoch).setFld 0 CLR_NEXT_ID_V (id + 1)
    let zeroDigest := shake256 (zeros regionBytes) 32
    let (regs, fresh, dedup) := items.foldl (fun (acc : List SnapRegion × List (List Byte × Mem) × Nat) it =>
      match kept it with
      | some e => (acc.1 ++ [e], acc.2.1, acc.2.2)
      | none =>
        let m := s.grab it.2.1 it.2.2.1 it.2.2.2
        let zero := m.cells.isEmpty
        let dg := if zero then zeroDigest else shake256 (m.read 0 regionBytes) 32
        let e : SnapRegion := { die := it.1, attic := it.2.1, addr := it.2.2.1, zero := zero, sectors := m.sectors, digest := dg,
                                spans := it.2.2.2, poison := m.poison }
        if zero then (acc.1 ++ [e], acc.2.1, acc.2.2)
        else if s.cellar.store.any (fun r => r.shared && r.digest == dg) || acc.2.1.any (fun r => r.1 == dg) then
          (acc.1 ++ [e], acc.2.1, acc.2.2 + 1)
        else (acc.1 ++ [e], acc.2.1 ++ [(dg, { m with poison := [] })], acc.2.2)) ([], [], 0)
    let cons := s.bit 0 CLR_JOB_CONSISTENT j
    let rv := s.bit 0 CLR_JOB_RSTEP_VALID j
    let rstep := s.fld 0 HUB_JOB_STREAM_RSTEP_V j
    let dp := if !cons then 2 ^ 64 - 1 else if cap.entry then job.step - 1 else job.step
    let dmb := if dp = 0 || !cons then 0 else Tab.getD job.mbs (dp - 1) 0
    let run := (s.runOf j).map Prod.snd
    let agr := !cap.entry && (match run with
      | some r => job.agreed == some r.step
      | none => false)
    let notes := (if incr && parent.isNone then [0x0130] else []) ++ (if pruned = 0 then [] else [0x0133])
      ++ (if cons then [] else [0x0134])
    let flags := b2n parent.isSome + 2 * b2n (bitN (c.blk 8 1) 1) + 4 * b2n cap.entry + 8 * b2n agr + 16 * b2n (!cons)
    let reps := match s.runOf j with
      | some (lead, r) => match (s.job lead).binding with
        | some b => (planSection b.plan r.sect).replicas
        | none => popcountN 4 (s.jobSet j)
      | none => popcountN 4 (s.jobSet j)
    let snap : Snap :=
      { id := id, slot := j, parent := (parent.map Snap.id).getD 0, ts := s.ts, epoch := epoch, flags := flags, plan := plan,
        dataPos := dp, dataMb := dmb, streamPos := if rv then (rstep + 1) % 2 ^ 64 else 0,
        streamMb := s.fld 0 HUB_JOB_STREAM_MB_V j, ostep := s.fld 0 HUB_JOB_STREAM_OSTEP_V j,
        rkey := s.fld 0 HUB_JOB_STREAM_RKEY_V j, set := s.jobSet j, replicas := reps, wmStep := job.agreed, regions := regs,
        stored := 0, size := size, record := record,
        job := ⟨job.policy, job.ls, job.clean, job.layers, job.tensors, job.merged, job.compress⟩,
        auto := bitN (c.blk 8 1) 2, pinned := bitN (c.blk 8 1) 3 }
    let bytes := fresh.foldl (fun n r => n + r.2.sectors * 4096) 0
    let s := (s.bump 0 CLR_CNT_DEDUP_V dedup).setFld 0 CLR_FLIGHT_MIB (min 512 (ceilDiv bytes 1048576))
    -- a staging area's contents are open from the start of the freeze (R451)
    let s := if !bitN (c.blk 8 1) 4 then s else s.forAll allDies (fun s d =>
      let a := c.blk (16 + 8 * d) 8
      if a = 0 then s else (s.scramble 2 a (c.blk (48 + 8 * d) 8) (some false)).touchEpoch a (c.blk (48 + 8 * d) 8))
    (s.modJob j (fun x => { x with
      capture := some { cap with snap := some snap, frozen := true, reads := reads, fresh := fresh, notes := notes } })).showCellarBusy

/-- Has a captured region been written since the freeze began (R453)? A larder region bears the capture's epoch; of the attic,
which keeps no epochs, the contents show it. -/
def State.tornNow (s : State) (x : Snap) (e : SnapRegion) : Bool :=
  if e.spans.isEmpty then false
  else if !e.attic then s.regionEpoch (e.addr / regionBytes) == x.epoch
  else
    let m := s.grab true e.addr e.spans
    shake256 (m.read 0 regionBytes) 32 != e.digest || m.poison != e.poison

/-- The freeze of job j's capture ends (R451): every region is referenced, written or staged. The copy of a region that was
written meanwhile is undefined, and its digest need not be its copy's (R453). -/
def State.thaw (s : State) (j : Nat) (cap : Capture) (x : Snap) : State :=
  let bad := cap.reads.filter (fun k => (x.regions[k]?).any (s.tornNow x))
  let torn := (List.range bad.length).map (fun i =>
    (bad.getD i 0, ({} : Mem).spell 0 regionBytes (Config.openCells (s.fresh + i))))
  let s := s.drawnN bad.length
  let regs := bad.foldl (fun (l : List SnapRegion) k => listMod l k (fun e => { e with zero := false, sectors := 512 })) x.regions
  let refs := ((List.range regs.length).filter (fun k => !bad.contains k)).filterMap (fun k => regs[k]?)
  let fresh := cap.fresh.filter (fun r => refs.any (fun e => e.digest == r.1))
  (s.modJob j (fun y => { y with
    capture := some { cap with snap := some { x with regions := regs }, frozen := false, fresh := fresh, torn := torn } })).showCellarBusy

/-- Has the capture's point been reached (R450)? -/
def State.atPoint (s : State) (j : Nat) (cap : Capture) : Bool :=
  match s.runOf j with
  | none => !cap.entry && !cap.waits
  | some (lead, r) =>
    if cap.entry then
      r.phase == 0 && !r.spilled && (match s.ringCtx lead 0 with
        | some c => c.live.all (fun q => decide ((c.sched q.1 q.2).2 ≤ (r.queue q.1 q.2).pos) && (r.queue q.1 q.2).fly.isEmpty
            && (r.queue q.1 q.2).yielded.isNone)
        | none => false)
    else cap.waits && s.atBoundary j

/-- SNAP_FREEZE: the capture at its point: its freeze begins, and at the next SNAP_FREEZE it ends (log entry 26). An ENTRY take
whose next command is no RUN captures nothing (R450). -/
def execSnapFreeze (j : Slot) (s : State) : Host.Outcome State Fault Refusal :=
  .next (match (s.job j).capture with
    | none => s
    | some cap =>
      match cap.snap with
      | some x => if cap.frozen then s.thaw j cap x else s
      | none =>
        if cap.entry && s.nextIsRun j cap.seq == some false then s.endTake j cap.seq 0x1069
        else match s.cmd j cap.seq, s.planId j with
          | some c, some plan => if s.atPoint j cap then s.freeze j cap c plan else s
          | _, _ => s)

/-! ## The manifest (R455, R456) -/

/-- A region entry (Table 12-4). -/
def SnapRegion.bytes (e : SnapRegion) : List Byte :=
  bytesLE 1 (if e.attic then 128 else e.die) ++ bytesLE 1 (b2n e.zero) ++ bytesLE 2 e.sectors ++ zeros 4 ++ bytesLE 8 e.addr
    ++ padTo 32 e.digest

/-- The manifest header (Table 12-3). -/
def Snap.header (x : Snap) : List Byte :=
  let n := x.record.length
  padTo 512 (bytesLE 4 0x46504E53 ++ bytesLE 2 1 ++ bytesLE 2 512 ++ bytesLE 8 x.id ++ bytesLE 8 x.parent ++ bytesLE 8 x.ts
    ++ bytesLE 8 x.epoch ++ padTo 32 x.plan ++ bytesLE 8 x.dataPos ++ bytesLE 4 x.dataMb ++ bytesLE 4 x.streamMb
    ++ bytesLE 8 x.streamPos ++ bytesLE 8 x.ostep ++ bytesLE 8 x.rkey ++ bytesLE 1 x.slot ++ bytesLE 1 x.flags ++ bytesLE 1 x.set
    ++ bytesLE 1 x.replicas ++ bytesLE 8 (x.wmStep.getD (2 ^ 64 - 1)) ++ bytesLE 4 x.regions.length ++ bytesLE 8 512 ++ bytesLE 8 n
    ++ bytesLE 8 (512 + alignUp n 64) ++ bytesLE 8 x.stored ++ bytesLE 8 (manifestBody n x.regions.length))

/-- The manifest's bytes before the signature, each part padded to 64 B. -/
def Snap.body (x : Snap) : List Byte :=
  x.header ++ padTo (alignUp x.record.length 64) x.record
    ++ padTo (alignUp (48 * x.regions.length) 64) (x.regions.flatMap SnapRegion.bytes)

/-- The signed manifest. -/
def Snap.manifest (x : Snap) (seed : List Byte) : List Byte := x.body ++ padTo (alignUp 3309 64) (signature seed x.body)

/-- Do manifest bytes keep Table 12-3 and bear a signature that is right (check 4 of Table 12-6)? -/
def manifestOk (seed bs : List Byte) : Bool :=
  let at_ := leAt bs 160 8
  leAt bs 0 4 == 0x46504E53 && leAt bs 4 2 == 1 && leAt bs 6 2 == 512
    && at_ == manifestBody (leAt bs 136 8) (leAt bs 124 4) && (bs.drop at_).take 3309 == signature seed (bs.take at_)

/-! ## The seal -/

/-- Put a region into the cellar, encrypted in a free slot (R443, R465). -/
def State.storeRegion (s : State) (digest : List Byte) (shared : Bool) (m : Mem) (sectors : Nat) : State :=
  let slot := (s.cellar.freeSlots 1).headD 0
  let sealed := s.sealAt slot (m.read 0 (sectors * 4096))
  s.modCellar (fun c => { c with store := c.store ++ [⟨slot, digest, shared, sealed⟩] })

/-- The slot of a region of a capture: that of its torn copy, else where the directory finds its digest (R444). -/
def State.slotOf (s : State) (torn : List (Nat × Nat)) (k : Nat) (e : SnapRegion) : Nat :=
  if e.slot != 0 then e.slot else if e.zero then 0 else
  match torn.find? (fun t => t.1 == k) with
  | some t => t.2
  | none => ((s.cellar.store.find? (fun r => r.shared && r.digest == e.digest)).map (fun r => r.slot)).getD 0

/-- A snapshot with each region's slot and the bytes that its regions occupy, counted once each. -/
def Snap.placed (x : Snap) (slot : Nat → SnapRegion → Nat) : Snap :=
  let regs := (List.range x.regions.length).filterMap (fun k => (x.regions[k]?).map (fun e => { e with slot := slot k e }))
  let once := regs.foldl (fun (l : List SnapRegion) e => if e.zero || l.any (fun y => y.slot == e.slot) then l else l ++ [e]) []
  { x with regions := regs, stored := once.foldl (fun n e => n + e.sectors * 4096) 0 }

/-- SNAP_SEAL: the staged regions drain, the manifest is signed and written, the commit record follows (R451); a die of the
set that left service meanwhile fails the capture (R454). -/
def execSnapSeal (j : Slot) (s : State) : Host.Outcome State Fault Refusal :=
  .next (match (s.job j).capture with
    | some { seq := seq, snap := some x, frozen := false, fresh := fresh, torn := torn, notes := notes, lost := lost, .. } =>
      if lost then s.endTake j seq 0x2040 else
      let new := fresh.filter (fun r => !s.cellar.store.any (fun y => y.shared && y.digest == r.1))
      let s := s.forAll new (fun s r => s.storeRegion r.1 true r.2 r.2.sectors)
      let own := torn.map (fun t => (t.1, t.2, ((x.regions[t.1]?).map (fun e => e.digest)).getD []))
      let (s, at_) := own.foldl (fun (acc : State × List (Nat × Nat)) t =>
        let slot := (acc.1.cellar.freeSlots 1).headD 0
        (acc.1.storeRegion t.2.2 false t.2.1 512, acc.2 ++ [(t.1, slot)])) (s, [])
      let x := x.placed (s.slotOf at_)
      let bs := x.manifest s.dikSeed
      let slots := s.cellar.freeSlots (ceilDiv bs.length regionBytes)
      let x := { x with slots := slots, sealed := s.sealIn slots bs }
      let s := s.modCellar (fun c => { c with snaps := c.snaps ++ [x] })
      let s := s.bump 0 CLR_CNT_TAKEN_V
      let s := s.bump 0 CLR_CNT_WR_BYTES_V
        (new.foldl (fun n r => n + r.2.sectors * 4096) 0 + torn.length * regionBytes + x.sealed.length)
      let s := (s.bump 0 SEC_CNT_SIGNS_V).setFld 0 CLR_JOB_LAST_V x.id j
      let s := s.modCmd j seq (fun c => { c with result := x.id, parts := x.set + 16, outcomes := c.outcomes ++ notes })
      s.endTake j seq 0
    | _ => s)

/-! ## Listing and deletion -/

/-- SNAP_LIST entry (Table 12-5). -/
def State.snapEntry (s : State) (x : Snap) : List Byte :=
  bytesLE 8 x.id ++ bytesLE 8 x.ts ++ bytesLE 8 x.dataPos ++ bytesLE 8 x.stored ++ padTo 8 x.plan ++ bytesLE 1 x.slot
    ++ bytesLE 1 x.flags ++ bytesLE 1 (b2n x.pinned + 2 * b2n x.auto + 4 * b2n (s.snapKept x)) ++ bytesLE 1 x.set ++ zeros 20

/-- SNAP_LIST (0x3002). -/
def execSnapList (j : Slot) (s : State) : Host.Outcome State Fault Refusal :=
  .next (s.start j (fun c => c.op == 0x3002) (fun s c =>
    let n := c.opnd 40 4
    if !s.bit 0 CLR_STAT_READY then s.refuse j c.seq 0x106A
    else if n = 0 || n % 64 != 0 then s.refuse j c.seq 0x1005
    else
      let all := bitN (c.opnd 44 1) 0
      let plan := s.planId j
      let found := s.cellar.snaps.filter (fun x => all || plan == some x.plan)
      let s := s.hostWrite (c.opnd 32 8) ((found.take (n / 64)).flatMap s.snapEntry)
      (s.modCmd j c.seq (fun c => { c with parts := 16, result := found.length })).finish j c.seq))

/-- Prepare of SNAP_DELETE on the hub (R457, R460). -/
def State.deleteCheck (s : State) (c : Cmd) : Option Nat :=
  if !s.bit 0 CLR_STAT_READY then some 0x106A else
  match s.cellar.snap (c.opnd 32 8) with
  | none => some 0x1060
  | some x => if s.agreementKept x || (x.pinned && !bitN (c.opnd 40 1) 0) then some 0x1067 else none

/-- SNAP_DELETE (0x3003): two-phase with the hub as its only part. -/
def execSnapDelete (j : Slot) (s : State) : Host.Outcome State Fault Refusal :=
  .next (s.start j (fun c => c.op == 0x3003) (fun s c => s.beginTwo j c.seq 16))

/-! ## Restore (R461 to R464) -/

/-- Region entries that each target die takes, with the distance they move; a die outside SET takes those of the lowest die
of SET (R462). Attic entries come last. -/
def Snap.dest (x : Snap) (target : List Nat) (attic : Bool) : List (SnapRegion × Nat × Nat) :=
  (target.flatMap (fun d =>
    let src := if bitN x.set d then d else (maskBits 4 x.set).headD 0
    (x.regions.filter (fun e => !e.attic && e.die == src)).map (fun e => (e, src, d))))
  ++ (if attic then (x.regions.filter (fun e => e.attic)).map (fun e => (e, 0, 0)) else [])

/-- Where a captured range goes. -/
def movedTo (e : SnapRegion) (src d a : Nat) : Nat := if e.attic then a else a - src * 2 ^ 35 + d * 2 ^ 35

/-- Checks 1 to 8 of Table 12-6; `own` false leaves out check 2 (the restore is a rollback). -/
def State.restoreCheck (s : State) (j : Nat) (x : Option Snap) (target : List Nat) (attic own : Bool) : Option Nat :=
  let job := s.job j
  let busy := (match job.run with
    | some r => !r.posted
    | none => false) || job.capture.isSome
  if !s.bit 0 CLR_STAT_READY then some 0x106A
  else if own && busy then some 0x1069
  else match x with
    | none => some 0x1060
    | some x =>
      if !manifestOk s.dikSeed (s.openIn x.slots x.sealed) then some 0x1064 else
      match job.binding with
      | none => some 0x1061
      | some b =>
        let pl := s.planOf b
        if planDigest pl ≠ x.plan then some 0x1061
        else if x.inconsistent || (x.streamPos != x.dataPos && x.streamPos != x.dataPos + 1) then some 0x1062
        else if target.isEmpty || !(List.range (planSections pl)).any (fun k => (planSection pl k).replicas == target.length)
            || (!planReplica pl && maskOf target != x.set) then some 0x1066
        else if (x.dest target attic).any (fun e => e.1.spans.any (fun sp =>
            let lo := movedTo e.1 e.2.1 e.2.2 sp.1
            if e.1.attic then job.leavesAttic lo (sp.2 - sp.1)
            else job.leavesLarder e.2.2 (lo % 2 ^ 35) (sp.2 - sp.1))) then some 0x1068
        else none

/-- Put a range of a stored region into the tier, with the poison it was captured with. -/
def State.putSpan (s : State) (e : SnapRegion) (m : Mem) (src d : Nat) (sp : Nat × Nat) : State :=
  let a := movedTo e src d sp.1
  let n := sp.2 - sp.1
  let tier := if e.attic then 3 else 2
  let t := ({ m with poison := e.poison } : Mem)
  let s := s.setTierMem tier ((s.tierMem tier).paste t a (sp.1 - e.addr) n)
  if e.attic then s else s.touchEpoch a n

/-- A stored region as it is read back: decrypted, its trimmed sectors zero. -/
def State.readRegion (s : State) (e : SnapRegion) : Mem :=
  if e.zero then {} else
  match s.cellar.store.find? (fun r => r.slot == e.slot) with
  | some r => ({} : Mem).write 0 (s.openAt r.slot r.sealed)
  | none => {}

/-- Write a snapshot's regions to the target dies, noting the ranges written; error memories of dies outside SET become
zero (R462). Answers a status where a region read back disagrees with its digest (check 9). -/
def State.restoreWrite (s : State) (j : Nat) (x : Snap) (target : List Nat) (attic : Bool) : State × Option Nat :=
  let ds := x.dest target attic
  let once := ds.foldl (fun (l : List SnapRegion) e => if e.1.zero || l.any (fun y => y.slot == e.1.slot) then l else l ++ [e.1]) []
  let gone := once.any (fun e => shake256 ((s.readRegion e).read 0 regionBytes) 32 != e.digest)
  let s := (s.bump 0 SEC_CNT_VERIFIES_V).bump 0 CLR_CNT_RD_BYTES_V (once.foldl (fun n e => n + e.sectors * 4096) 0)
  let s := s.forAll ds (fun s e =>
    let m := s.readRegion e.1
    s.forAll e.1.spans (fun s sp => (s.putSpan e.1 m e.2.1 e.2.2 sp).modJob j (fun y => { y with
      restoring := y.restoring ++ [(if e.1.attic then 3 else 2, movedTo e.1 e.2.1 e.2.2 sp.1, sp.2 - sp.1)] })))
  if gone then (s.bump 0 CLR_CNT_DIGEST_ERR_V, some 0x1065) else
  match (s.job j).binding with
  | none => (s, none)
  | some b =>
    let pl := s.planOf b
    let secs := ((List.range (planSections pl)).map (planSection pl)).filter (fun k => k.replicas == target.length)
    let errs := secs.flatMap (fun sec => (List.range sec.instrs).filterMap (fun i =>
      let ins := planInstr pl sec i
      if iOp ins = 0x04 && leAt ins 16 2 != 0xFFFF then some (planBuffer pl sec (leAt ins 16 2)) else none))
    let outs := target.filter (fun d => !bitN x.set d)
    (s.forAll outs (fun s d => s.forAll errs (fun s bf =>
      let a := b.ldrBase.getD d 0 + bf.base
      s.modLarder a bf.size (fun m => m.scrub a bf.size))), none)

/-- The commit of a restore (R463): the module-held state of the job. Answers its notes. -/
def State.restoreCommit (s : State) (j : Nat) (x : Snap) (target : List Nat) : State × List Nat :=
  let rew := x.streamPos != x.dataPos
  let rstep := if rew then x.dataPos - 1 else x.streamPos - 1
  let mb := if rew then x.dataMb else x.streamMb
  let valid := rew || decide (0 < x.dataPos)
  let s := s.modJob j (fun y => { y with
    step := x.dataPos, policy := x.job.policy, policyNew := none, policyRipe := false, ls := x.job.ls, clean := x.job.clean,
    layers := x.job.layers, tensors := x.job.tensors, merged := x.job.merged, compress := x.job.compress,
    firstStep := true, agreed := x.wmStep, restoring := [], mbs := if valid then [(rstep, mb)] else [],
    run := match y.run with
      | some r => if r.posted then none else some { r with tokens := [] }
      | none => none })
  let s := (s.setFld 0 HUB_JOB_STREAM_OSTEP_V x.ostep j).setFld 0 HUB_JOB_STREAM_RKEY_V x.rkey j
  let s := ((s.setFld 0 HUB_JOB_STREAM_RSTEP_V rstep j).setFld 0 HUB_JOB_STREAM_MB_V mb j).setFld 0 CLR_JOB_RSTEP_VALID
    (b2n valid) j
  -- the banks that the job holds take OWNER 0; their contents are open for it
  let s := s.forAll (List.range 3264) (fun s b =>
    if s.bit (bankAt b) BANK_OWN_JOB_VALID && s.fld (bankAt b) BANK_OWN_JOB == j then
      (s.setOwner b 0 none).scramble (if bankIsStore b then 1 else 0) (bankKey b) (bankBytes b) (some false)
    else s)
  let s := (s.setFld 0 CLR_JOB_CONSISTENT 1 j).setFld 0 CLR_JOB_RESTORING 0 j
  let s := (s.setFld 0 HUB_FLT_JOB_HOLD 0 j).setFld 0 HUB_FLT_JOB_HOLD_CAUSE 0 j
  let s := (s.putSet j (maskOf target) 7).bump 0 CLR_CNT_RESTORED_V
  (s.showCellarBusy, (if rew then [0x0131] else []) ++ (if maskOf target = x.set then [] else [0x0132]))

/-- The replica set that R428 forms now from the job's home set. -/
def State.homeGroup (s : State) (j : Nat) : List Nat :=
  match (s.job j).binding with
  | some b => s.largestGroup b.home
  | none => []

/-- SNAP_RESTORE (0x3001): two-phase over the dies of the target set and the hub. -/
def execSnapRestore (j : Slot) (s : State) : Host.Outcome State Fault Refusal :=
  .next (s.startOnDie j (fun c => c.op == 0x3001) (fun s c =>
    let s := (s.setFld 0 CLR_JOB_RESTORING 1 j).showCellarBusy
    s.beginTwo j c.seq (maskOf (s.homeGroup j) + 16)))

/-- The rollback restore of R433: the newest agreement snapshot, then the second newest. Answers the snapshot restored. -/
def State.rollbackRestore (s : State) (j : Nat) (target : List Nat) : List Snap → State × Option Snap
  | [] => (s, none)
  | x :: rest =>
    match s.restoreCheck j (some x) target false false with
    | some _ => s.rollbackRestore j target rest
    | none =>
      let (s, st) := s.restoreWrite j x target false
      match st with
      | some _ => (s.spoil j).rollbackRestore j target rest
      | none => ((s.restoreCommit j x target).1, some x)

/-! ## Recovery (R466, R467) -/

/-- Captures under way end without a commit record; recovery will discard those that a freeze had begun. -/
def State.dropCaptures (s : State) : State :=
  let n := (s.jobs.filter (fun e => match e.2.capture with
    | some c => c.snap.isSome
    | none => false)).length
  let s := s.forAll (s.jobs.map Prod.fst) (fun s j =>
    (s.modJob j (fun x => { x with capture := none, restoring := [] })).setFld 0 CLR_JOB_TAKING 0 j)
  (s.modCellar (fun c => { c with lost := c.lost + n })).sweep

/-- CELLAR_RECOVERY: the journal has been replayed; the registers are loaded from the directory and READY is set. -/
def execCellarRecovery (s : State) : Host.Outcome State Fault Refusal :=
  .next (
    if !s.bit 0 CLR_STAT_RECOVERING || s.bit 0 CLR_STAT_LOCKED || !s.power.charged then s else
    let s := (s.setFld 0 CLR_STAT_RECOVERING 0).setFld 0 CLR_CAP_DATA_SLOTS (if Config.fourTiB then 2096128 else 1047552)
    let s := (s.setFld 0 CLR_EPOCH_V s.cellar.epoch).setFld 0 CLR_NEXT_ID_V s.cellar.nextId
    let s := if s.cellar.lost = 0 then s else
      (s.setFld 0 CLR_STAT_RECOVERY_DISCARD 1).bump 0 CLR_CNT_DISCARDED_V s.cellar.lost
    let s := if s.cellar.holdup then s.setFld 0 CLR_STAT_HOLDUP_SEEN 1 else s
    let s := s.modCellar (fun c => { c with lost := 0, holdup := false })
    s.showCellar.setFld 0 CLR_STAT_READY 1)

end Sys2Proof.Machine
end

