-- ==== Sys2Proof/Machine/RunStart.lean ====
section
/-!
DEFINITION. Starting a RUN (R386, R387, R436): the share group, the footprint, the start checks, and what the start of a step
latches and clears.
-/
namespace Sys2Proof.Machine

/-! ## The group -/

/-- A RUN's opcode. -/
def isRun (c : Cmd) : Bool := c.op == 0x2002
/-- LEAD. -/
def Cmd.leadSlot (c : Cmd) : Nat := c.opnd 44 1 % 64

/-- Condition 1 of R377 for a RUN: one that follows a started SNAP_TAKE with POINT = ENTRY may start as if ASYNC (R450). -/
def State.runOrder (s : State) (slot : Nat) (c : Cmd) : Bool :=
  let async := match directlyBefore c.seq (s.qp slot).cmds with
    | some p => p.op == 0x3000 && p.started && p.blk 9 1 == 1
    | none => false
  orderOk async c.seq (s.qp slot).cmds

/-- May the pair's commands start at all? -/
def State.pairRuns (s : State) (slot : Nat) : Bool := !s.qpStopped slot && !s.bit 0 KGR_QSTAT_RESETTING slot

/-- Does a RUN meet conditions 1 and 2 of R377? -/
def State.runMeets (s : State) (slot : Nat) (c : Cmd) : Bool := s.pairRuns slot && s.runOrder slot c && s.dep c == .met

/-- Member slots that a lead's RUN names, the lead first (Table 10-9). -/
def Cmd.runSlots (c : Cmd) (lead : Nat) : List Nat :=
  lead :: ([8, 9, 10].filter (fun o => bitN (c.blk o 1) 7)).map (fun o => c.blk o 1 % 64)

/-- Is a named slot repeated, the lead's own or bound to a plan (R387)? -/
def State.slotsBad (s : State) (slots : List Nat) : Bool :=
  (slots.drop 1).any (fun x => decide (1 < slots.count x) || (s.job x).binding.isSome)

/-- A member's waiting RUN that names the lead and meets conditions 1 and 2. -/
def State.memberRun (s : State) (lead slot : Nat) : Option Cmd :=
  (s.waitingCmd slot isRun).filter (fun c => c.leadSlot == lead && s.runMeets slot c)

/-- The group that a lead's RUN forms, once every named member's RUN is ready: slots with their RUNs. -/
def State.groupOf (s : State) (lead : Nat) : Option (List (Nat × Cmd)) :=
  match s.memberRun lead lead with
  | none => none
  | some c =>
    let g := (c.runSlots lead).map (fun x => (x, s.memberRun lead x))
    if g.all (fun x => x.2.isSome) then some (g.filterMap (fun x => x.2.map (fun c => (x.1, c)))) else none

/-! ## Bucket, section and footprint -/

/-- Bucket index of a RUN: that of the smallest bucket at or above the real size (R200). -/
def runBucket (pl : Mem) (c : Cmd) : Option Nat :=
  if planBuckets pl = 0 then some 0
  else if c.blk 0 4 = 0 then none
  else (List.range (planBuckets pl)).find? (fun k => decide (c.blk 0 4 ≤ planBucketSize pl k))

/-- Section for a bucket and a number of replicas (R237). -/
def sectionFor (pl : Mem) (bucket n : Nat) : Option Nat :=
  (List.range (planSections pl)).find? (fun k => (planSection pl k).bucket == bucket && (planSection pl k).replicas == n)

/-- Footprint of a section on physical dies: logical cores as die × 128 + L, store-room banks as die × 128 + 96 + b
(R244). -/
def footprint (pl : Mem) (sec : Section) (map : List Nat) : List Nat :=
  (List.range map.length).flatMap (fun pd =>
    ((List.range 96).filter (fun q => planUses pl sec pd q)).map (fun q => map.getD pd 0 * 128 + q))
  ++ (((List.range sec.intervals).map (planInterval pl sec)).filterMap (fun v =>
    if 8 ≤ v.bank then some (map.getD v.die 0 * 128 + 96 + (v.bank - 8)) else none)).eraseDups

/-- Footprint of a job's run, in progress or parked. -/
def State.runPrint (s : State) (lead : Nat) : List Nat :=
  match (s.job lead).run, (s.job lead).binding with
  | some r, some b => footprint b.plan (planSection b.plan r.sect) r.map
  | _, _ => []

/-- Do two footprints meet? -/
def printsMeet (a b : List Nat) : Bool := a.any (fun x => b.contains x)

/-- Is a footprint free: no other job that is not evicted holds any of it (R244, R245)? -/
def State.printFree (s : State) (lead : Nat) (fp : List Nat) : Bool :=
  s.jobs.all (fun e => e.1 == lead || (match e.2.run with
    | some r => r.spilled || !printsMeet fp (s.runPrint e.1)
    | none => true))

/-- Physical dies that a run uses, in the order of its plan dies (R236). -/
def State.runMap (s : State) (lead : Nat) : List Nat := maskBits 4 (s.jobSet lead)

/-- Footprint of the step that a ready RUN would run; empty where the plan gives none. -/
def State.nextPrint (s : State) (lead : Nat) (c : Cmd) : List Nat :=
  match (s.job lead).binding with
  | none => []
  | some b =>
    let pl := s.planOf b
    let map := s.runMap lead
    match (runBucket pl c).bind (fun k => sectionFor pl k map.length) with
    | some k => footprint pl (planSection pl k) map
    | none => []

/-- Lead slots whose work waits for a footprint, with it: a ready group, or an evicted job that is to resume (R244). -/
def State.waiters (s : State) : List (Nat × List Nat) :=
  (List.range 64).filterMap (fun k =>
    match (s.job k).run with
    | some r =>
      if r.spilled then
        if !r.posted || (s.groupOf k).isSome then some (k, s.runPrint k) else none
      else if r.posted then (s.groupOf k).bind (fun g => g.head?.map (fun x => (k, s.nextPrint k x.2)))
      else none
    | none => (s.groupOf k).bind (fun g => g.head?.map (fun x => (k, s.nextPrint k x.2))))

/-- Is the job the one that the hub picks for a footprint: no ready job whose own footprint is free and meets it comes before it in
round-robin order after the slot that started last (R246)? -/
def State.picked (s : State) (j : Nat) (fp : List Nat) : Bool :=
  let rank := fun (k : Nat) => (k + 63 - s.fld 0 HUB_SLICE_STAT_LAST_IN) % 64
  s.waiters.all (fun w => w.1 == j || decide (rank j < rank w.1) || !s.printFree w.1 w.2 || !printsMeet w.2 fp)

/-! ## Start checks (R387, R213) -/

/-- Complete the RUNs of a group with one status; nothing runs. -/
def State.refuseGroup (s : State) (g : List (Nat × Cmd)) (st : Nat) : State :=
  s.forAll g (fun s x => (s.modCmd x.1 x.2.seq (fun c => { c with started := true })).refuse x.1 x.2.seq st)

/-- Does a RUN block set a reserved field (Table 10-9)? -/
def Cmd.runReserved (c : Cmd) : Bool :=
  [8, 9, 10].any (fun o => bitN (c.blk o 1) 6) || c.blk 11 1 != 0 || c.blk 21 43 != 0

/-- Check 3: the tile status ring. -/
def State.tileCheck (s : State) (lead : Nat) (c : Cmd) : Option Nat :=
  let la := c.blk 12 8
  let lg := c.blk 20 1
  if la = 0 then none
  else if lg < 6 || 20 < lg then some 0x1021
  else if la % 128 != 0 || decide (2 ^ 37 ≤ la) || (s.job lead).leavesLarder (la / 2 ^ 35 % 4) (la % 2 ^ 35) (2 ^ lg * 32) then
    some 0x1005
  else none

/-- Is RTL e supplied? -/
def Cmd.rtlSet (c : Cmd) (e : Nat) : Bool := bitN (c.blk (64 + e / 8) 1) (e % 8)
/-- RTL e. -/
def Cmd.rtl (c : Cmd) (e : Nat) : Nat := c.blk (96 + 4 * e) 4

/-- Check 5 (Table 5-8): 0x1058, then 0x1059 over every section of the selected bucket. -/
def sizeCheck (pl : Mem) (c : Cmd) : Option Nat :=
  match runBucket pl c with
  | none => some 0x1058
  | some k =>
    let secs := ((List.range (planSections pl)).map (planSection pl)).filter (fun x => x.bucket == k)
    let bad := fun (sel log : Nat) => !c.rtlSet sel || decide (log < c.rtl sel)
    if secs.any (fun x => (List.range x.deckles).any (fun i =>
        let dk := planDeckle pl x i
        (dk.ragR && bad dk.selR dk.logR) || (dk.ragC && bad dk.selC dk.logC))) then some 0x1059
    else none

/-! ## The start of a step -/

/-- Cores of a footprint: (physical die, logical index). -/
def printCores (fp : List Nat) : List (Nat × Nat) := (fp.filter (fun x => decide (x % 128 < 96))).map (fun x => (x / 128, x % 128))

/-- What phase 0 clears in a core of the footprint, and the binding of its arrays to members (R232, R318, Table 8-5). -/
def State.enterCore (s : State) (d l : Nat) (members : List Nat) : State :=
  let p := s.phys d l
  let a := coreAt d p
  let s := ((s.setFld a VEC_STAT_GN_VALID 0).setFld a VEC_STAT_GN_NONFIN 0).setFld a VEC_STAT_GN_POISON 0
  let s := (s.setFld a VEC_STAT_UPD_SKIPPED 0).setFld a VEC_SSQ_LOCAL_V 0
  let s := s.modCore d p (fun c => { c with nonfin := false, gnPoison := false })
  s.forAll [0, 1, 2, 3] (fun s n =>
    (s.setFld (arrAt d p n) ARR_STAT_JOB (members.getD (if n < members.length then n else 0) 0)).setFld (arrAt d p n)
      ARR_STAT_JOB_VALID 1)

/-- What the start of a step shows in HUB_JOB_STREAM of a group's slot: RSTEP and its own MB; RKEY and OSTEP stand in the lead's
slot alone (R314). -/
def State.streamStart (s : State) (lead slot step mb : Nat) : State :=
  let s := (s.setFld 0 HUB_JOB_STREAM_RSTEP_V step slot).setFld 0 HUB_JOB_STREAM_MB_V mb slot
  if slot = lead then s else (s.setFld 0 HUB_JOB_STREAM_RKEY_V 0 slot).setFld 0 HUB_JOB_STREAM_OSTEP_V 0 slot

/-- Start the step of a group whose checks have passed. -/
def State.startRun (s : State) (lead : Nat) (g : List (Nat × Cmd)) (c : Cmd) (sect : Nat) : State :=
  let job := s.job lead
  let step := job.step
  let members := g.map Prod.fst
  let mb := fun (x : Nat × Cmd) => if x.1 = lead then c.blk 4 4 else x.2.opnd 48 4
  let pl := (job.binding.map (fun b => b.plan)).getD {}
  let map := s.runMap lead
  let run : Run :=
    { members := members, seqs := g.map (fun x => x.2.seq), mbs := g.map mb, sect := sect, map := map, n := map.length,
      set := s.jobSet lead, step := step,
      rtl := ((List.range 256).filter c.rtlSet).map (fun e => (e, c.rtl e)),
      tileLa := c.blk 12 8, tileLog := c.blk 20 1, startTs := s.ts, ls := members.map (fun m => (s.job m).lsNow) }
  let s := s.forAll g (fun s x => s.modCmd x.1 x.2.seq (fun y => { y with started := true, result := step }))
  let s := s.modJob lead (fun x => { x with step := (step + 1) % 2 ^ 64, run := some run })
  let s := s.forAll g (fun s x =>
    let s := s.streamStart lead x.1 step (mb x)
    (s.setFld 0 CLR_JOB_RSTEP_VALID 1 x.1).modJob x.1 (fun y => { y with mbs := Tab.put y.mbs step (mb x) }))
  let s := (s.dropTallies lead).forAll (printCores (footprint pl (planSection pl sect) map)) (fun s x => s.enterCore x.1 x.2 members)
  let s := s.setFld 0 HUB_SLICE_STAT_LAST_IN lead
  (s.showAll lead).forAll members State.params

/-- The start checks on a group whose RUNs are ready and whose footprint is free, then the start. -/
def State.tryStart (s : State) (lead : Nat) (g : List (Nat × Cmd)) (c : Cmd) : State :=
  match (s.job lead).binding with
  | none => s.refuseGroup g 0x1009
  | some b =>
    if s.slotsBad (g.map Prod.fst) || (planMembers (s.planOf b) != g.length) then s.refuseGroup g 0x100B else
    match s.tileCheck lead c with
    | some st => s.refuseGroup g st
    | none =>
      let (s, bad) := s.loadPlan lead c.seq
      match bad with
      | some st => s.refuseGroup g st
      | none =>
        let pl := s.planOf b
        match sizeCheck pl c with
        | some st => (s.bump 0 HUB_LDR_CNT_RUNREJ_V).refuseGroup g st
        | none =>
          match (runBucket pl c).bind (fun k => sectionFor pl k (s.runMap lead).length) with
          | none => s.refuseGroup g 0x2052
          | some sect => s.startRun lead g c sect

/-- Has the job's own earlier run been evicted, so that it is to resume first (R245, R246)? -/
def State.mustResume (s : State) (lead : Nat) : Bool :=
  match (s.job lead).run with
  | some r => r.spilled
  | none => false

/-- The lead's RUN, ready itself. -/
def State.leadRun (s : State) (lead : Nat) (c : Cmd) : State :=
  let slots := c.runSlots lead
  let here := slots.eraseDups.filterMap (fun x => (s.memberRun lead x).map (fun c => (x, c)))
  if c.runReserved then s.refuseGroup here 0x1002
  else if (s.job lead).binding.isSome && s.slotsBad slots then s.refuseGroup here 0x100B
  else match s.groupOf lead with
    | none => s
    | some g =>
      if !s.printFree lead (s.nextPrint lead c) || s.mustResume lead || !s.picked lead (s.nextPrint lead c) then s
      else if s.pstate == 1 || s.pstate == 2 then { s with power := { s.power with waking := true } }
      else s.tryStart lead g c

/-- RUN (0x2002): a held job's RUN completes as soon as it is ready itself (R436); a group starts with its lead's RUN. -/
def execRun (j : Slot) (s : State) : Host.Outcome State Fault Refusal :=
  .next (match s.waitingCmd j isRun with
    | none => s
    | some c =>
      if !s.pairRuns j || !s.runOrder j c then s else
      match s.dep c with
      | .waits => s
      | .failed => s.refuse j c.seq 0x1006
      | .met =>
        let lead := c.leadSlot
        let open_ := fun (s : State) => s.modCmd j c.seq (fun c => { c with started := true })
        if s.bit 0 HUB_FLT_JOB_HOLD lead then
          ((open_ s).internal j c.seq (s.fld 0 HUB_FLT_JOB_HOLD_CAUSE lead)).refuse j c.seq 0x2001
        else if s.pstate == 3 then ((open_ s).internal j c.seq 0x0201).refuse j c.seq 0x2001
        else if lead = j.val then s.leadRun j c
        else match s.memberRun lead lead with
          | some l => if (l.runSlots lead).contains j.val then s else (open_ s).refuse j c.seq 0x100B
          | none => s)

end Sys2Proof.Machine
end

