-- ==== Sys2Proof/Machine/Boundary.lean ====
section
/-!
DEFINITION. Barriers, yield points, time-slicing and the step boundary (R228, R243 to R249, R319, R361 to R365, R432 to R436):
the watermark, rollback and the posting of a run's completions.
-/
namespace Sys2Proof.Machine

/-! ## The barrier (R228) and the gradient norm (R319) -/

/-- SCOPE of the SUMSQs of the present phase, if it has any. -/
def Ctx.sumsqScope (c : Ctx) : Option Nat :=
  c.live.findSome? (fun q => if q.2 = 96 then none else
    (List.range (c.sched q.1 q.2).2).findSome? (fun k =>
      let i := c.ins q.1 q.2 k
      if iOp i == 0x02 && vecOp i == 0x15 then some (bitsN (vecMode i) 3 2) else none))

/-- FP64 sum, in order. -/
def sum64 (xs : List Nat) : Nat := xs.foldl f64.add 0

/-- Accumulator and marks of core L of die d. -/
def State.gnOf (s : State) (d l : Nat) : Nat × Bool × Bool :=
  let p := s.phys d l
  (s.fld (coreAt d p) VEC_SSQ_LOCAL_V, (s.core d p).nonfin, (s.core d p).gnPoison)

/-- Combine a scope: totals in order, marks ORed. -/
def gnSum (xs : List (Nat × Bool × Bool)) : Nat × Bool × Bool :=
  (sum64 (xs.map Prod.fst), xs.any (fun x => x.2.1), xs.any (fun x => x.2.2))

/-- Give a core the combined result. -/
def State.gnSet (s : State) (d l : Nat) (r : Nat × Bool × Bool) : State :=
  let a := coreAt d (s.phys d l)
  let s := (s.setFld a VEC_GNORM_V r.1).setFld a VEC_STAT_GN_VALID 1
  (s.setFld a VEC_STAT_GN_NONFIN (b2n r.2.1)).setFld a VEC_STAT_GN_POISON (b2n r.2.2)

/-- The combination at the barrier of a phase with a SUMSQ: each die sums its cores in ascending logical index, the hub the
die totals in ascending plan die. -/
def State.gnCombine (s : State) (c : Ctx) (scope : Nat) : State :=
  let cores := printCores (footprint c.pl c.sec c.run.map)
  let dies := c.run.map.filter (fun d => !bitN c.run.failed d)
  let mine := fun d => (cores.filter (fun x => x.1 == d)).map (fun x => (x, s.gnOf x.1 x.2))
  let dieSum := fun d => gnSum ((mine d).map Prod.snd)
  let all := gnSum (dies.map dieSum)
  s.forAll dies (fun t d => t.forAll (mine d) (fun t x =>
    t.gnSet x.1.1 x.1.2 (if scope = 0 then (sum64 [x.2.1], x.2.2) else if scope = 1 then dieSum d else all)))

/-- Has every queue on a working die completed the present phase? -/
def Ctx.phaseOver (c : Ctx) : Bool :=
  c.live.all (fun q => let qs := c.run.queue q.1 q.2
    decide ((c.sched q.1 q.2).2 ≤ qs.pos) && qs.fly.isEmpty && qs.yielded.isNone)

/-- Does an ENTRY capture of a member hold phase 1 of a run back: its freeze has not ended (R450)? -/
def State.entryWaits (s : State) (r : Run) : Bool :=
  r.phase == 0 && r.members.any (fun m => (s.job m).capture.any (fun cap => cap.entry && (cap.snap.isNone || cap.frozen)))

/-- PHASE_BARRIER: the next phase starts once every queue has completed this one; tokens return to zero. An ENTRY capture
holds phase 1 back until its freeze has ended (R450). -/
def execPhaseBarrier (j : Slot) (s : State) : Host.Outcome State Fault Refusal :=
  .next (match s.ringCtx j 0 with
    | none => s
    | some c =>
      let r := c.run
      if r.ended || r.stopping || r.spilled || r.evict || r.posted || s.entryWaits r || s.runFrozen r || !decide (r.phase < planPhases c.pl)
          || !c.phaseOver then s else
      let s := match c.sumsqScope with
        | some k => s.gnCombine c k
        | none => s
      (s.modRun j (fun r => { r with phase := r.phase + 1, queues := [], tokens := [], noted := [] })).showAll j)

/-! ## Yield points and time-slicing -/

/-- Does a job that waits conflict with job j's footprint? -/
def State.contested (s : State) (j : Nat) : Bool :=
  let fp := s.runPrint j
  s.waiters.any (fun w => w.1 != j && printsMeet w.2 fp)

/-- Would the hub evict job j now (R245)? -/
def State.mayEvict (s : State) (j : Nat) : Bool :=
  match (s.job j).run, (s.job j).binding with
  | some r, some b =>
    s.bit 0 HUB_SLICE_CTRL_EN && decide (r.startTs + 1000 * max 100 (s.fld 0 HUB_SLICE_CTRL_QUANTUM) ≤ s.ts)
      && (s.runPrint j).all (fun x => b.spill.getD (x / 128) 0 != 0) && s.contested j
  | _, _ => false

/-- YIELD_POINT: every queue has issued the YIELD; the hub decides. -/
def execYieldPoint (j : Slot) (s : State) : Host.Outcome State Fault Refusal :=
  .next (match s.ringCtx j 0 with
    | none => s
    | some c =>
      if c.run.ended || c.run.stopping || c.run.spilled || c.run.evict then s else
      match c.atYield with
      | some (_, false) =>
        if s.mayEvict j then s.modRun j (fun r => { r with evict := true }) else s.passYield j
      | _ => s)

/-- The YIELD that a queue of a run stands at. -/
def Ctx.yieldOf (c : Ctx) (pd q : Nat) : Option PInstr :=
  let qs := c.run.queue pd q
  if qs.pos = 0 then none
  else
    let i := c.ins pd q (qs.pos - 1)
    if iOp i = 0x0A then some i else none

/-- Banks of the run's footprint on a plan die: bank number, offset in the spill area, live or not (Table 6-11). -/
def State.sliceBanks (s : State) (c : Ctx) (pd : Nat) : List (Nat × Nat × Bool) :=
  let d := c.run.map.getD pd 0
  let ivs := ((List.range c.sec.intervals).map (planInterval c.pl c.sec)).filter (fun v => v.die == pd)
  let shelves := ((List.range 96).filter (fun l => planUses c.pl c.sec pd l)).flatMap (fun l =>
    let mask := match c.yieldOf pd l with
      | some i => leAt i 15 1
      | none => 0
    (List.range 8).map (fun k => (shelfBank d (s.phys d l) k, (l * 8 + k) * 655360, bitN mask k)))
  let mask := match c.yieldOf pd 96 with
    | some i => leAt i 16 2
    | none => 0
  shelves ++ ((List.range 16).filter (fun b => ivs.any (fun v => v.bank == 8 + b))).map (fun b =>
    (storeBank d b, 503316480 + b * 4194304, bitN mask b))

/-- Logical cores of the footprint on a plan die. -/
def Ctx.sliceCores (c : Ctx) (pd : Nat) : List Nat := (List.range 96).filter (fun l => planUses c.pl c.sec pd l)

/-- Plan dies of a run that still work. -/
def Ctx.workDies (c : Ctx) : List Nat :=
  (List.range c.run.map.length).filter (fun pd => !bitN c.run.failed (c.run.map.getD pd 4))

/-- Bytes that a spill or restore moves on a plan die. -/
def State.dieBytes (s : State) (c : Ctx) (pd : Nat) : Nat :=
  65536 + 524288 * (c.sliceCores pd).length
    + ((s.sliceBanks c pd).filter (fun b => b.2.2)).foldl (fun m b => m + bankBytes b.1) 0

/-- Bytes that a spill or restore moves. -/
def State.sliceBytes (s : State) (c : Ctx) : Nat := c.workDies.foldl (fun n pd => n + s.dieBytes c pd) 0

/-- Ranges of the spill area that a spill or restore touches on a plan die: first LA and bytes. -/
def State.sliceRanges (s : State) (c : Ctx) (pd : Nat) : List (Nat × Nat) :=
  let base := c.bind.spill.getD (c.run.map.getD pd 0) 0
  ((s.sliceBanks c pd).filter (fun b => b.2.2)).map (fun b => (base + b.2.1, bankBytes b.1))
    ++ (c.sliceCores pd).map (fun l => (base + 570425344 + l * 524288, 524288)) ++ [(base + 620756992, 65536)]

/-- Has every working die of a run a DMA engine free (R289)? -/
def State.enginesFree (s : State) (c : Ctx) : Bool := c.workDies.all (fun pd => (s.freeEngine (c.run.map.getD pd 0)).isSome)

/-- Poisoned granules of the spill area's ranges. -/
def State.slicePoison (s : State) (c : Ctx) (pd : Nat) : Nat :=
  (s.sliceRanges c pd).foldl (fun n r => n + s.larder.countPoison r.1 r.2) 0

/-- A spill, or a restore, of one die by a DMA engine of the die, SOURCE 2 (R289, Table 7-18). The poison that it moves is what
the area holds after a spill, before a restore. -/
def State.byEngine (s : State) (c : Ctx) (pd : Nat) (restore : Bool) (f : State → State) : State :=
  let d := c.run.map.getD pd 0
  let e := (s.freeEngine d).getD 0
  let n := s.dieBytes c pd
  let t := f (s.engineOn d e 2 c.lead)
  t.engineOff d e n (if restore then s.slicePoison c pd else t.slicePoison c pd)

/-- What eviction sets aside of a core. -/
def State.saveCore (s : State) (lead d l : Nat) : SavedCore :=
  let p := s.phys d l
  let a := coreAt d p
  let x := s.core d p
  { books := x.books, cbRegs := (List.range 8).map (fun k => (s.reg (CORE_CB_SLOT_TABLE_ID.at a k)).toNat),
    tallies := x.tallies.filter (fun t => t.1 / 65536 == lead), measure := x.measure.filter (fun p => p.key / 65536 == lead), nonfin := x.nonfin,
    gnPois := x.gnPoison, vecStat := bitsOf (s.reg (VEC_STAT_BUSY.at a 0)) 19 16, gnorm := s.fld a VEC_GNORM_V,
    clip := s.fld a VEC_CLIP_FACTOR, ssq := s.fld a VEC_SSQ_LOCAL_V }

/-- Put back what eviction set aside, with the binding of the arrays. -/
def State.loadCore (s : State) (lead d l : Nat) (members : List Nat) (v : SavedCore) : State :=
  let p := s.phys d l
  let a := coreAt d p
  let s := s.modCore d p (fun x => { x with
    books := v.books, measure := v.measure, nonfin := v.nonfin, gnPoison := v.gnPois,
    tallies := v.tallies.foldl (fun t e => Tab.put t e.1 e.2) (x.tallies.filter (fun t => t.1 / 65536 != lead)) })
  let s := s.forAll ((List.range 8).zip v.cbRegs) (fun s k =>
    s.setReg (CORE_CB_SLOT_TABLE_ID.at a k.1) (BitVec.ofNat 64 k.2))
  let s := s.setFld a CORE_CONV_STAT_SLOTS_VALID (v.books.foldl (fun m e => orBit m e.1) 0)
  let s := s.setReg (VEC_STAT_BUSY.at a 0) (withBits (s.reg (VEC_STAT_BUSY.at a 0)) 19 16 v.vecStat)
  let s := ((s.setFld a VEC_GNORM_V v.gnorm).setFld a VEC_CLIP_FACTOR v.clip).setFld a VEC_SSQ_LOCAL_V v.ssq
  s.forAll [0, 1, 2, 3] (fun s n =>
    (s.setFld (arrAt d p n) ARR_STAT_JOB (members.getD (if n < members.length then n else 0) 0)).setFld (arrAt d p n)
      ARR_STAT_JOB_VALID 1)

/-- Does a fill run or wait in one of the footprints (R249)? -/
def State.fillsIn (s : State) (fp : List Nat) : Bool :=
  allDies.any (fun d => (s.die d).fills.any (fun f => fp.contains (d * 128 + f.logical)))

/-- No job shows on a footprint's queues and arrays. -/
def State.hidePrint (s : State) (c : Ctx) : State :=
  s.forAll (List.range c.run.map.length) (fun s pd =>
    let d := c.run.map.getD pd 0
    let s := s.hideQueue d 0 96
    s.forAll (c.sliceCores pd) (fun s l =>
      (s.hideQueue d l l).forAll [0, 1, 2, 3] (fun s n => s.setFld (arrAt d (s.phys d l) n) ARR_STAT_JOB_VALID 0)))

/-- Move one die's items into its spill area (R247). -/
def State.spillDie (s : State) (c : Ctx) (pd : Nat) : State :=
  let d := c.run.map.getD pd 0
  let base := c.bind.spill.getD d 0
  let s := s.forAll (s.sliceBanks c pd) (fun s b =>
    let s := s.bankReady b.1
    let s := s.setOwner b.1 2 (some c.lead)
    let s := if !b.2.2 then s else
      s.modLarder (base + b.2.1) (bankBytes b.1) (fun m =>
        m.copy (if bankIsStore b.1 then s.store else s.shelf) (base + b.2.1) (bankKey b.1) (bankBytes b.1))
    s.setOwner b.1 0 none)
  let put := fun (s : State) (o n : Nat) =>
    ((s.modLarder (base + o) n (fun m => m.scrub (base + o) n)).scramble 2 (base + o) n none)
  let s := s.forAll (c.sliceCores pd) (fun s l =>
    let v := s.saveCore c.lead d l
    let s := put s (570425344 + l * 524288) 524288
    let s := s.modCore d (s.phys d l) (fun x => { x with
      tallies := x.tallies.filter (fun t => t.1 / 65536 != c.lead), measure := [] })
    s.modRun c.lead (fun r => { r with saved := Tab.put r.saved (pd * 96 + l) v }))
  put s 620756992 65536

/-- JOB_SPILL: a job that the hub decided to evict at its yield point, or one whose run has ended while a conflicting job is
ready, gives up its footprint (R245, R247); a fill in either footprint holds it back (R249). `errs` are the errors that the larder's
bursts meet. -/
def execJobSpill (j : Slot) (errs : List BurstErr) (s : State) : Host.Outcome State Fault Refusal :=
  .next (match s.ringCtx j 0 with
    | none => s
    | some c =>
      let go := c.run.evict || (c.run.posted && c.run.parked && !c.run.spilled && s.mayEvict j)
      let fp := s.runPrint j ++ (s.waiters.filter (fun w => w.1 != j.val)).flatMap Prod.snd
      if !go || s.fillsIn fp || s.pstate != 0 || !s.enginesFree c then s else
      let n := s.sliceBytes c
      let s := s.forAll c.workDies (fun s pd => (s.byEngine c pd false (fun s => s.spillDie c pd)).bursts [] (s.sliceRanges c pd) errs)
      let s := (s.bump 0 HUB_SLICE_CNT_HANDOVERS_V).bump 0 HUB_SLICE_CNT_BYTES_V n
      let s := (s.setFld 0 HUB_SLICE_STAT_LAST_OUT j).setFld 0 HUB_SLICE_STAT_BUSY 0
      (s.modRun j (fun r => { r with spilled := true, evict := false })).hidePrint c)

/-- Owner and boundary that a bank's timeline gives at the yield position of a run (R264): the queues stand behind their YIELDs. -/
def State.dueAtYield (s : State) (c : Ctx) (b : Nat) : Option (Nat × Nat) :=
  s.due { c.run with queues := c.run.queues.map (fun q => (q.1, { q.2 with pos := q.2.pos - 1 })) } c.pl b

/-- Bring one die's items back; banks that were not live hold open contents (R247). -/
def State.restoreDie (s : State) (c : Ctx) (pd : Nat) : State :=
  let d := c.run.map.getD pd 0
  let base := c.bind.spill.getD d 0
  let s := s.forAll (s.sliceBanks c pd) (fun s b =>
    let s := s.bankReady b.1
    let s := s.setOwner b.1 2 (some c.lead)
    let s := if b.2.2 then
        s.modBank b.1 (fun m => m.copy s.larder (bankKey b.1) (base + b.2.1) (bankBytes b.1))
      else s.scramble (if bankIsStore b.1 then 1 else 0) (bankKey b.1) (bankBytes b.1) (some false)
    match s.dueAtYield c b.1 with
    | none => s.setOwner b.1 0 none
    | some (top, code) => (s.setOwner b.1 code (if code = 0 then none else some c.lead)).setHanded c.lead (s.planBank c.run b.1) top)
  s.forAll (c.sliceCores pd) (fun s l => match Tab.find c.run.saved (pd * 96 + l) with
    | some v => s.loadCore c.lead d l c.run.members v
    | none => s)

/-- JOB_RESUME: an evicted job that the hub picks for its free footprint comes back and goes on from its yield point (R246, R247).
`errs` are the errors that the larder's bursts meet. -/
def execJobResume (j : Slot) (errs : List BurstErr) (s : State) : Host.Outcome State Fault Refusal :=
  .next (match s.ringCtx j 0 with
    | none => s
    | some c =>
      let fp := s.runPrint j
      if !c.run.spilled || !s.printFree j fp || !s.picked j fp || s.fillsIn fp || s.pstate != 0 || !s.enginesFree c then s
      else if c.run.posted && (s.groupOf j).isNone then s
      else
      let n := s.sliceBytes c
      let s := s.forAll c.workDies (fun s pd =>
        (s.bursts (s.sliceRanges c pd) [] errs).byEngine c pd true (fun s => s.restoreDie c pd))
      let s := (s.bump 0 HUB_SLICE_CNT_BYTES_V n).setFld 0 HUB_SLICE_STAT_LAST_IN j
      let s := s.modRun j (fun r => { r with spilled := false, saved := [], startTs := s.ts })
      if c.run.posted then s else s.passYield j)

/-! ## The watermark (R362 to R365) -/

/-- A parameter's share of the watermark stream: tensor, index, F, X, and whether a granule of it is poisoned. -/
structure WmParam where
  tensor : Nat
  index  : Nat
  f      : Nat
  x      : Nat
  poison : Bool

/-- Master weights that an optimizer instruction of a queue names as D1. -/
def State.wmOf (s : State) (c : Ctx) (i : PInstr) : List WmParam :=
  match vecDeckle i 1 with
  | none => []
  | some k =>
    let t := s.tile c k (s.regionFacts c i).block
    let m := s.tierMem t.place.tier
    let ox := (stateOffsets t.dk.block).2.2
    (t.dk.elems c.run.rtl).map (fun e =>
      let fa := t.base + t.dk.stateAt 0 4 e.1 e.2
      let xa := t.base + t.dk.stateAt ox 2 e.1 e.2
      ⟨t.dk.tensor, (t.dk.orgR + e.1) * t.dk.logC + t.dk.orgC + e.2, m.readN fa 4, m.readN xa 2, m.poisoned fa || m.poisoned xa⟩)

/-- Optimizer instructions of the section on a plan die. -/
def Ctx.optimizers (c : Ctx) (pd : Nat) : List PInstr :=
  (List.range 96).flatMap (fun q => (List.range 16).flatMap (fun ph =>
    let sc := planSched c.pl c.sec pd q ph
    ((List.range sc.2).map (fun k => planInstr c.pl c.sec (sc.1 + k))).filter (fun i =>
      iOp i == 0x02 && (vecOp i == 0x20 || vecOp i == 0x21))))

/-- Keep the first parameter of each (tensor, index) in a sorted list. -/
def wmDistinct (ps : List WmParam) : List WmParam :=
  ps.foldr (fun a acc => match acc with
    | b :: t => if a.tensor = b.tensor ∧ a.index = b.index then a :: t else a :: b :: t
    | [] => [a]) []

/-- The digest of a watermark stream: 64 KiB blocks over 16 stripes (R363). -/
def wmDigest (step : Nat) (bytes : List Byte) : List Byte :=
  let blocks := chunksOf 65536 bytes
  let stripe := fun k => shake256 (((List.range blocks.length).filter (fun b => b % 16 == k)).flatMap (fun b => blocks.getD b [])) 32
  shake256 (bytesLE 8 step ++ (List.range 16).flatMap stripe) 32

/-- A die's watermark: digest and POISONED. -/
def State.watermarkOf (s : State) (c : Ctx) : List Byte × Bool :=
  let ps := (c.optimizers c.pd).flatMap (s.wmOf c)
  let ps := wmDistinct (sortBy (fun p => p.tensor * 2 ^ 64 + p.index) ps)
  (wmDigest c.run.step (ps.flatMap (fun p => bytesLE 4 p.f ++ bytesLE 2 p.x)), ps.any (fun p => p.poison))

/-- Write 32 bytes into four 64-bit words. -/
def State.setDigest (s : State) (a : Nat) (f : Fld) (bs : List Byte) : State :=
  s.forAll (List.range 4) (fun s k => s.setFld a f (leAt bs (8 * k) 8) k)

/-- Show a die's watermark (Table 9-8). -/
def State.showWm (s : State) (d lead step : Nat) (w : List Byte × Bool) : State :=
  let a := dieAt d
  let s := s.setDigest a RING_WM_DGST_V w.1
  ((s.setFld a RING_WM_INFO_JOB lead).setFld a RING_WM_INFO_POISONED (b2n w.2)).setFld a RING_WM_INFO_STEP step

/-- The comparison of R365 over (die, digest) pairs: outcome and dies outside the majority. -/
def wmCompare (ps : List (Nat × List Byte)) : Nat × Nat :=
  let n := ps.length
  let votes := fun (d : List Byte) => (ps.filter (fun p => p.2 == d)).length
  if ps.all (fun p => votes p.2 == n) then (1, 0)
  else match ps.find? (fun p => decide (n < 2 * votes p.2)) with
    | some m => (2, maskOf ((ps.filter (fun p => p.2 != m.2)).map Prod.fst))
    | none => (3, 0)

/-- The job is held (R436). -/
def State.hold (s : State) (j cause : Nat) : State :=
  let s := (s.setFld 0 HUB_FLT_JOB_HOLD 1 j).setFld 0 HUB_FLT_JOB_HOLD_CAUSE cause j
  (s.bump 0 HUB_FLT_CNT_HOLDS_V).modRun j (fun r => { r with rolled := true })

/-- A rollback is needed: it begins, or the job is held (R433, R435, R436). `armed`: this UNRESOLVED is the second since an
agreement. -/
def State.needRollback (s : State) (j : Nat) (armed : Bool) : State :=
  let have_ := match s.planId j with
    | some p => !(s.cellar.agreements j p).isEmpty
    | none => false
  if !s.bit 0 HUB_FLT_JOB_AUTO_RB j then s.hold j 0x0104
  else if !have_ then s.hold j 0x0102
  else if armed then s.hold j 0x0101
  else s.setFld 0 HUB_FLT_JOB_ROLLING 1 j

/-- What an outcome of the watermark does. -/
def State.wmEffect (s : State) (j : Nat) (r : Run) (out disagree : Nat) (agree : Bool) : State :=
  if out = 1 then
    (if agree then s.modJob j (fun x => { x with agreed := some r.step }) else s).setFld 0 HUB_FLT_JOB_UNRES_ARMED 0 j
  else if out = 2 then
    let s := s.forAll (maskBits 4 disagree) (fun s d =>
      ((s.bumpSat 0 HUB_DIE_STATE_EXPELS 1 d).bump 0 HUB_FLT_CNT_EXPELLED_V).leaveService d 5 2)
    s.needRollback j false
  else
    let s := s.modRun j (fun r => r.allOut 0x2001)
    let s := s.forAll (r.members.zip r.seqs) (fun s x => s.internal x.1 x.2 0x0101)
    s.needRollback j (s.bit 0 HUB_FLT_JOB_UNRES_ARMED j)

/-- WATERMARK: every die of the set that works forms its watermark, the hub compares those that are not POISONED. -/
def execWatermark (j : Slot) (s : State) : Host.Outcome State Fault Refusal :=
  .next (match (s.job j).run with
    | none => s
    | some r =>
      if !r.ended || r.posted || !s.wmPending j r then s else
      let dies := (maskBits 4 (s.jobSet j)).filter (fun d => r.map.contains d && !bitN r.failed d)
      let marks := dies.filterMap (fun d => (s.ctx j d 96).map (fun c => (d, s.watermarkOf c)))
      let s := s.forAll marks (fun s m => s.showWm m.1 j r.step m.2)
      let good := (marks.filter (fun m => !m.2.2)).map (fun m => (m.1, m.2.1))
      let (out, dis) := wmCompare good
      let pois := maskOf ((marks.filter (fun m => m.2.2)).map Prod.fst)
      let word := out + dis * 4 + maskOf (good.map Prod.fst) * 64 + pois * 1024 + r.step % 2 ^ 48 * 65536
      let s := s.setReg (HUB_WM_STAT_OUTCOME.at 0 j) (BitVec.ofNat 64 word)
      let s := s.event j { type := 0x0E, seq := s.runSeq j j, step := some r.step, a := word }
      let s := s.modJob j (fun x => { x with wmDue := false, run := x.run.map (fun r => { r with wmDone := true }) })
      s.wmEffect j r out dis (pois == 0 && decide (2 ≤ good.length)))

/-! ## The steward (R153, R154) -/

/-- Fold every measurement pair of a run's cores: no array instruction is at work (R147, R312). -/
def State.foldAll (s : State) (lead : Nat) : State :=
  match (s.job lead).run, (s.job lead).binding with
  | some r, some b => s.forAll (printCores (footprint b.plan (planSection b.plan r.sect) r.map)) (fun s x =>
      if bitN r.failed x.1 then s else s.foldPairs x.1 (s.phys x.1 x.2) r.phase)
  | _, _ => s

/-- The steward's part of a step's end, once. -/
def State.stewardBoundary (s : State) (lead : Nat) : State := (s.foldAll lead).stewardAll lead

/-- STEWARD_RUN: the steward runs for every member of job j at its step boundary, in the order in which the boundaries arrived
(R154). -/
def execStewardRun (j : Slot) (s : State) : Host.Outcome State Fault Refusal :=
  .next (if (s.stewardDue.head?.map Prod.snd) = some j.val then s.stewardBoundary j else s)

/-! ## Rollback -/

/-- ROLLBACK: the restore that R433 asks for; it takes the place of the steward. -/
def execRollback (j : Slot) (s : State) : Host.Outcome State Fault Refusal :=
  .next (match (s.job j).run, s.planId j with
    | some r, some plan =>
      if !s.bit 0 HUB_FLT_JOB_ROLLING j || r.posted then s else
      let (s, done) := s.rollbackRestore j (maskBits 4 (s.jobSet j)) (s.cellar.agreements j plan)
      let s := (s.setFld 0 HUB_FLT_JOB_ROLLING 0 j).modRun j (fun r => { r with rolled := true, stewDone := true })
      let s := (s.dropTallies j).showSteward
      match done with
      | none => s.hold j 0x0103
      | some x =>
        let s := s.bump 0 HUB_FLT_CNT_ROLLBACKS_V
        let s := if s.fld 0 HUB_WM_STAT_OUTCOME j = 3 then s.setFld 0 HUB_FLT_JOB_UNRES_ARMED 1 j else s
        s.forAll (r.members.zip r.seqs) (fun s m =>
          s.event m.1 { type := 0x12, seq := some m.2, step := some r.step, a := x.id, b := x.dataPos - 1 })
    | _, _ => s)

/-! ## Digests and the posting (R245, R360, R361) -/

/-- A traffic digest over the chunks of a step, in order: four lanes (R360). -/
def trafficDigest (ws : List (List Byte)) : List Byte :=
  let lane := fun k => shake256 (((List.range ws.length).filter (fun i => i % 4 == k)).flatMap (fun i => ws.getD i [])) 32
  shake256 ((List.range 4).flatMap lane) 32

/-- Finalise the digests of a run's step and compare them (R361). -/
def State.finalDigests (s : State) (j : Nat) (r : Run) : State :=
  let ok := fun pd => !bitN r.failed (r.map.getD pd 4) && s.inService (r.map.getD pd 4)
  let pds := (List.range r.map.length).filter ok
  let tx := fun pd => trafficDigest (Tab.getD r.tx pd [])
  let rx := fun pd => trafficDigest (Tab.getD r.rx pd [])
  let bad := (pds.map (fun pd => (pd, (pd + 1) % r.n))).filter (fun p => p.1 != p.2 && ok p.2 && tx p.1 != rx p.2)
  let s := s.forAll pds (fun s pd =>
    let a := dieAt (r.map.getD pd 0)
    let s := (s.setDigest a RING_DGST_TX_V (tx pd)).setDigest a RING_DGST_RX_V (rx pd)
    ((s.setFld a RING_DGST_INFO_JOB j).setFld a RING_DGST_INFO_VALID 1).setFld a RING_DGST_INFO_STEP r.step)
  let s := s.forAll bad (fun s p =>
    let s := s.event j { type := 0x0D, seq := s.runSeq j j, step := some r.step, a := p.1, b := p.2 }
    (s.ringErr (r.map.getD p.1 0) RING_ERR_DIGEST p.2 j 0 0).ringErr (r.map.getD p.2 0) RING_ERR_DIGEST p.1 j 0 0)
  let byDie := fun (f : Nat → List Byte) => allDies.map (fun d => match pds.find? (fun pd => r.map.getD pd 4 == d) with
    | some pd => f pd
    | none => zeros 32)
  let rec_ : DigestRec := ⟨r.step, maskOf (pds.map (fun pd => r.map.getD pd 0)), maskOf (bad.map (fun p => r.map.getD p.1 0)),
    r.set, byDie tx, byDie rx⟩
  s.modJob j (fun x => { x with digests := (rec_ :: x.digests).take 16, wmDue := x.wmDue || !bad.isEmpty })

/-- Largest replica count of a plan. -/
def planMost (pl : Mem) : Nat := (maskBits 4 (pl.readN 51 1 % 16)).foldl (fun n k => max n (k + 1)) 0

/-- Outcomes of member m of a run at its posting (R390, R393, R321). -/
def Run.final (r : Run) (pl : Mem) (m : Nat) : List Nat :=
  (r.outcomes.filter (fun o => o.1 == m)).map Prod.snd
    ++ (if r.skipped.any (fun x => x.1 == m) then [0x0111] else [])
    ++ (if (planSection pl r.sect).replicas < planMost pl then [0x0112] else [])
    ++ (if r.map.all (fun d => bitN r.failed d) then [0x2054] else [])

/-- A SNAP_TAKE with POINT = BOUNDARY that starts at this RUN's boundary (R450): the command directly after it. -/
def State.boundaryTake (s : State) (j seq : Nat) : Option Cmd :=
  match (s.qp j).cmds with
  | a :: b :: _ =>
    if a.seq == seq && b.op == 0x3000 && !b.started && b.param.isSome && b.blk 9 1 == 0 && s.dep b == .met && s.pairRuns j then
      some b
    else none
  | _ => none

/-- STEP_BOUNDARY: once the watermark, the steward and any commanded capture have acted, the digests are finalised and every
member's completion is posted; the job keeps its footprint (R245). -/
def execStepBoundary (j : Slot) (s : State) : Host.Outcome State Fault Refusal :=
  .next (match (s.job j).run, (s.job j).binding, s.ringCtx j 0 with
    | some r, some b, some c =>
      let takes := (r.members.zip r.seqs).filterMap (fun x => (s.boundaryTake x.1 x.2).map (fun t => (x.1, t)))
      let done := r.members.all (fun m => (s.job m).capture.all (fun cap =>
        cap.entry || !cap.waits || (cap.snap.isSome && !cap.frozen)))
      if !r.ended || r.posted || s.wmPending j r || s.bit 0 HUB_FLT_JOB_ROLLING j || !r.stewDone || !done
          || (!takes.isEmpty && !r.rolled) then s else
      let s := s.finalDigests j r
      let s := s.forAll ((List.range r.members.length).zip (r.members.zip r.seqs)) (fun s x =>
        (s.modCmd x.2.1 x.2.2 (fun y => { y with
          parts := r.set - (r.set &&& r.failed), outcomes := y.outcomes ++ r.final b.plan x.1 })).postCmd x.2.1 x.2.2)
      let s := s.forAll r.members (fun s x => s.modJob x (fun x => { x with firstStep := r.rolled && x.firstStep }))
      let s := s.modRun j (fun r => { r with posted := true, parked := true })
      let s := (s.hidePrint c).forAll r.members State.params
      s.forAll takes (fun s t => (s.modCmd t.1 t.2.seq (fun y => { y with started := true })).refuse t.1 t.2.seq 0x1069)
    | _, _, _ => s)

end Sys2Proof.Machine
end

