-- ==== Sys2Proof/Machine/Faults.lean ====
section
/-!
DEFINITION. Faults of cores and dies (R410 to R424, R437, R276 to R278): a lost heartbeat, retirement, the fill of a spare,
the map switch, march tests and the die self-test.
-/
namespace Sys2Proof.Machine

/-! ## Fills (R414 to R420, R423) -/

/-- Is spare q of a die AVAILABLE? -/
def State.spareReady (s : State) (d q : Nat) : Bool :=
  s.bit (dieAt d) DIE_SPARE_Q_MAPPED q && s.fld (dieAt d) DIE_SPARE_Q_STATE q == 0

/-- Quadrant of a physical core (R17). -/
def quadOf (p : Nat) : Nat := p % 10 / 5 + p / 10 / 5 * 2

/-- The spare that R23 gives for a failed physical core: that of its quadrant, else of the lowest quadrant that has one. -/
def State.spareFor (s : State) (d p : Nat) : Option Nat :=
  if s.spareReady d (quadOf p) then some (quadOf p) else (List.range 4).find? (s.spareReady d)

/-- The spare register that holds a physical core, if any. -/
def State.spareSlot (s : State) (d p : Nat) : Option Nat :=
  (List.range 4).find? (fun q => s.bit (dieAt d) DIE_SPARE_Q_MAPPED q && s.fld (dieAt d) DIE_SPARE_Q_PHYS q == p)

/-- The fill registers of a die follow its fills (Table 11-12). -/
def State.showFill (s : State) (d : Nat) : State :=
  let fs := (s.die d).fills
  let a := dieAt d
  let s := match fs.head? with
    | some f =>
      let run := f.stage != 0 || f.restarts != 0
      let s := s.setFld a DIE_FILL_STAT_STATE (if f.stage = 0 then b2n run else f.stage)
      let s := s.setFld a DIE_FILL_STAT_LOGICAL (if run then f.logical else 0)
      let s := s.setFld a DIE_FILL_STAT_SOURCE (if run then f.source else 0)
      let s := s.setFld a DIE_FILL_STAT_TARGET (if f.stage = 0 then 0 else f.target)
      s.setFld a DIE_FILL_STAT_QUEUED (fs.length - b2n run)
    | none => s.setReg (DIE_FILL_STAT_STATE.at a 0) 0
  s.showSpares d

/-- A die with fewer AVAILABLE spares than fills that wait for one leaves service (R423). -/
def State.checkSpares (s : State) (d : Nat) : State :=
  let need := ((s.die d).fills.filter (fun f => f.stage == 0)).length
  let have_ := ((List.range 4).filter (s.spareReady d)).length
  if have_ < need then s.leaveService d 1 2 else s

/-- A fill becomes ready for logical place l (R414). -/
def State.queueFill (s : State) (d l p cause : Nat) : State :=
  if (s.die d).fills.any (fun f => f.logical == l) then s else
  (((s.trace 6 d l 0).modDie d (fun x => { x with fills := x.fills ++ [{ logical := l, source := p, cause := cause }] })).showFill d).checkSpares d

/-- Change the fill at work on a die. -/
def State.modFill (s : State) (d : Nat) (f : FillSt → FillSt) : State :=
  s.modDie d (fun x => { x with fills := match x.fills with | [] => [] | y :: t => f y :: t })

/-- Mark a physical core FAILED for a cause, for good where it is a spare (R19, R417). -/
def State.markCore (s : State) (d p cause : Nat) : State :=
  let a := coreAt d p
  let s := (s.setFld a CORE_HEALTH_STATE 3).setFld a CORE_HEALTH_CAUSE cause
  s.setFld 0 AGE_ISL_STATE (if cause = 2 || cause = 5 || 7 ≤ cause then 3 else 2) (d * 100 + p)

/-- A spare fails: it is never AVAILABLE again (R23, R278, R441). -/
def State.failSpare (s : State) (d q cause : Nat) : State :=
  let p := s.fld (dieAt d) DIE_SPARE_Q_PHYS q
  let s := (s.setFld (dieAt d) DIE_SPARE_Q_STATE 3 q).markCore d p cause
  { s with nvm := { s.nvm with failedCores := s.nvm.failedCores ++ [d * 100 + p] } }

/-- The spare under fill fails: the fill starts again on the next spare (R423). -/
def State.fillFails (s : State) (d cause : Nat) : State :=
  match (s.die d).fills.head? with
  | none => s
  | some f =>
    let s := match s.spareSlot d f.target with
      | some q => s.failSpare d q cause
      | none => s
    let s := s.bump (dieAt d) DIE_FILL_CNT_RESTART_V
    let s := s.modFill d (fun x => { x with stage := 0, target := 127, poisoned := 0, restarts := x.restarts + 1 })
    (s.showFill d).checkSpares d

/-- Banks of a physical core. -/
def coreBanks (d p : Nat) : List Nat := (List.range 8).map (shelfBank d p)

/-- The first fill of a die starts: FILLING, the spare's STATE, the owners of the failed core's banks noted (R24, R417). -/
def State.startFill (s : State) (d : Nat) : State :=
  match (s.die d).fills.head? with
  | none => s
  | some f =>
    if f.stage != 0 then s else
    match s.spareFor d f.source with
    | none => s.leaveService d 1 2
    | some q =>
      let a := dieAt d
      let p := s.fld a DIE_SPARE_Q_PHYS q
      let s := (s.setFld a DIE_CORE_MAP_FILLING 1 f.logical).setFld a DIE_SPARE_Q_STATE 1 q
      let own := (coreBanks d f.source).map (fun b => (s.fld (bankAt b) BANK_OWN_OWNER,
        if s.bit (bankAt b) BANK_OWN_JOB_VALID then some (s.fld (bankAt b) BANK_OWN_JOB) else none))
      let b := coreAt d f.source
      let s := if s.fld b CORE_HEALTH_STATE = 2 then s.setFld b CORE_HEALTH_STATE 0 else s
      let s := s.modFill d (fun x => { x with
        target := p, stage := 1, owners := if x.restarts = 0 then own else x.owners,
        began := if x.restarts = 0 then s.ts else x.began })
      s.showFill d

/-- Do accesses of other owners hold the failed core's banks (R416)? -/
def State.fillWaits (s : State) (d p : Nat) : Bool := (coreBanks d p).any (fun b => s.bit (bankAt b) BANK_OWN_PENDING)

/-- Copy the failed core's banks to the spare's: the first `n` granules with their poison, the rest poisoned (R417,
R418); banks that sleep wake for it (R272). -/
def State.fillBanks (s : State) (d src dst n : Nat) : State :=
  let s := s.forAll (coreBanks d src) (fun s b => (s.setOwner b 4 none).bankReady b)
  let s := s.forAll (coreBanks d dst) (fun s b => (s.bankWake b).setOwner b 4 none)
  let k := shelfKey d dst 0
  let s := { s with shelf := s.shelf.copy s.shelf k (shelfKey d src 0) (n * 64) }
  if 81920 ≤ n then s else s.scramble 0 (k + n * 64) ((81920 - n) * 64) (some true)

/-- Copy the state of the failed core: codebook slots, tally partials, the beater items of R333, the array job bindings
(R417). An injection armed on the spare's arrays is discarded (R96 names only session end, resets and the next checked row:
log entry 43, DESIGN CHOICE). -/
def State.fillState (s : State) (d src dst : Nat) : State :=
  let x := s.core d src
  let a := coreAt d src
  let b := coreAt d dst
  let s := s.setCore d dst { books := x.books, tallies := x.tallies, measure := x.measure, nonfin := x.nonfin,
                             gnPoison := x.gnPoison }
  let s := s.forAll (List.range 8) (fun s k =>
    s.setReg (CORE_CB_SLOT_TABLE_ID.at b k) (s.reg (CORE_CB_SLOT_TABLE_ID.at a k)))
  let s := s.setFld b CORE_CONV_STAT_SLOTS_VALID (s.fld a CORE_CONV_STAT_SLOTS_VALID)
  let v := VEC_STAT_BUSY.at b 0
  let s := s.setReg v (withBits (s.reg v) 19 16 (bitsOf (s.reg (VEC_STAT_BUSY.at a 0)) 19 16))
  let s := s.setFld b VEC_GNORM_V (s.fld a VEC_GNORM_V)
  let s := s.setFld b VEC_CLIP_FACTOR (s.fld a VEC_CLIP_FACTOR)
  let s := s.setFld b VEC_SSQ_LOCAL_V (s.fld a VEC_SSQ_LOCAL_V)
  let s := s.forAll (List.range 4) (fun s n =>
    (s.setFld (arrAt d dst n) ARR_STAT_JOB (s.fld (arrAt d src n) ARR_STAT_JOB)).setFld (arrAt d dst n) ARR_STAT_JOB_VALID
      (s.fld (arrAt d src n) ARR_STAT_JOB_VALID))
  s.forAll [SEQ_STAT_STATE, SEQ_PC_INDEX, SEQ_WAIT_TOKEN] (fun s f => s.setReg (f.at b 0) (s.reg (f.at a 0)))

/-- Copy everything; `n` granules of the banks could be read. -/
def State.fillCopy (s : State) (d n : Nat) : State :=
  match (s.die d).fills.head? with
  | none => s
  | some f =>
    let s := (s.fillBanks d f.source f.target n).fillState d f.source f.target
    let p := s.shelf.countPoison (shelfKey d f.target 0) 5242880
    let s := s.bump (dieAt d) DIE_FILL_CNT_POISONED_V p
    (s.modFill d (fun x => { x with stage := 2, poisoned := p })).showFill d

/-- Does the fill at work on a die stand at a stage? -/
def State.fillAt (s : State) (d stage : Nat) : Bool := (s.die d).fills.head?.any (fun f => f.stage == stage)

/-- Start the first fill if it has not started; answers whether its copy may go on now. -/
def State.fillGo (s : State) (d : Nat) : State × Bool :=
  let s := s.startFill d
  (s, s.fillAt d 1 && (s.die d).fills.head?.any (fun f => !s.fillWaits d f.source))

/-- CORE_FILL: the first fill of the die starts, waits for the accesses of other owners, copies, and runs the known-answer
check, whose result is `katOk`. -/
def execCoreFill (d : Die) (katOk : Bool) (s : State) : Host.Outcome State Fault Refusal :=
  .next (
    if s.dieState d != 0 then s else
    let (s, go) := s.fillGo d
    let s := if go then s.fillCopy d 81920 else s
    if !s.fillAt d 2 then s
    else if katOk then (s.modFill d (fun x => { x with stage := 3 })).showFill d
    else s.fillFails d 7)

/-- FILL_READ_TIMEOUT: the failed core's banks stop giving read data; how many granules were copied before is open. Data present
at the evaluation edge wins and is counted late (R408). -/
def execFillReadTimeout (d : Die) (arrived : Bool) (s : State) : Host.Outcome State Fault Refusal :=
  .next (
    if s.dieState d != 0 then s else
    let (s, go) := s.fillGo d
    if arrived then (if go then s.bump 0 HUB_FLT_CNT_LATE_V else s) else
    if go then s.drawn.fillCopy d (s.free.toNat % 81920) else s)

/-! ## The map switch (R24, R417, R421, R422) -/

/-- Logical place l of die d passes to the spare of quadrant register q. -/
def State.mapTo (s : State) (d l q cause : Nat) : State :=
  let a := dieAt d
  let old := s.phys d l
  let p := s.fld a DIE_SPARE_Q_PHYS q
  let s := (s.setFld a DIE_CORE_MAP_PHYS p l).setFld a DIE_CORE_MAP_QUAD (quadOf p) l
  let s := (s.setFld a DIE_CORE_MAP_FILLING 0 l).setFld a DIE_CORE_MAP_REPLACED 1 l
  let s := s.setFld a DIE_SPARE_Q_STATE 2 q
  let s := match s.spareSlot d old with
    | some o => (s.setFld a DIE_SPARE_Q_STATE 3 o).modNvm (fun n => { n with failedCores := n.failedCores ++ [d * 100 + old] })
    | none => s
  let s := s.markCore d old cause
  let s := (s.setFld (coreAt d p) CORE_HEALTH_STATE 0).setFld (coreAt d p) CORE_HEALTH_CAUSE 0
  let s := s.setFld 0 AGE_ISL_STATE 0 (d * 100 + p)
  s.modNvm (fun n => { n with replaced := Tab.put n.replaced (d * 96 + l) p })

/-- Jobs that a logical place serves: the members of each job whose run, in progress or last, has instructions for it
(R422). -/
def State.servedBy (s : State) (d l : Nat) : List Nat :=
  (s.jobs.flatMap (fun e => match e.2.binding, e.2.run with
    | some b, some r =>
      if r.map.contains d && planUses b.plan (planSection b.plan r.sect) (r.map.findIdx (fun x => x == d)) l then r.members
      else []
    | _, _ => [])).eraseDups

/-- An instruction in flight of the replaced core holds the banks that accept its accesses now. -/
def State.holdAgain (s : State) (c : Ctx) (q : Nat) (f : Fly) : State :=
  let bs := s.accepting c q (c.ins c.pd q f.idx)
  (s.modFly c.lead c.pd q f.idx (fun f => { f with banks := bs })).showPending bs

/-- MMAs of the failed core are issued again on the replacement, from their start (Table 11-4). -/
def State.reissue (s : State) (d l : Nat) (fs : List MmaFly) : State :=
  s.forAll fs (fun s f => match s.ctx f.lead d l with
    | none => s
    | some c => (s.holdAgain c l { idx := f.idx, op := 0x01 }).openMma c f.idx (c.ins c.pd l f.idx))

/-- A VEC of the failed core that had written (Table 11-4): one with a read-write deckle or atomics is completed without
execution, the granules of its read-write, D3 and atomic-target regions poisoned, its pairs dropped; any other is issued again,
which gives what it gave (log entry 11). -/
def State.redoVec (s : State) (c : Ctx) (l : Nat) (f : Fly) : State :=
  let i := c.ins c.pd l f.idx
  let vop := vecOp i
  if !(vecState i 1 || 0x30 ≤ vop) then s.holdAgain c l f else
  let ts := ([1, 3].filter (fun k => vopWrites vop k)).filterMap (fun k => (vecDeckle i k).map (fun x => s.tile c x
    (if k = 1 then (s.regionFacts c i).block else c.stateOf x)))
  let s := s.forAll ts (fun s t => s.changeBut t.place.tier [t.place] [] (fun m => m.setPoison t.place.key t.place.len true))
  let s := s.modCore c.die c.phys (fun x => { x with measure := x.measure.filter (fun y =>
    !(y.order == c.orderOf f.idx && y.key / 65536 == c.lead)) })
  s.retire c.lead c.die l f.idx

/-- VECs in flight of the failed core (Table 11-4). -/
def State.redoVecs (s : State) (d l : Nat) : State :=
  s.forAll s.jobs (fun s e => match s.ctx e.1 d l with
    | none => s
    | some c => s.forAll ((c.run.queue c.pd l).fly.filter (fun f => f.op == 0x02)) (fun s f => s.redoVec c l f))

/-- Ranges that were judged on the banks of one core, on those of another. -/
def moveRanges (src dst : Nat) (rs : List (Nat × Nat)) : List (Nat × Nat) :=
  rs.map (fun r => if src ≤ r.1 ∧ r.1 < src + 5242880 then (r.1 - src + dst, r.2) else r)

/-- What transfers in flight were denied on the replaced core's banks stands on those of the replacement. -/
def State.moveDenials (s : State) (d src dst : Nat) : State :=
  let mv := moveRanges (shelfKey d src 0) (shelfKey d dst 0)
  s.forAll (s.jobs.map Prod.fst) (fun s lead => s.modRun lead (fun r => { r with
    queues := r.queues.map (fun q => (q.1, { q.2 with fly := q.2.fly.map (fun f =>
      { f with noRd := mv f.noRd, noWr := mv f.noWr }) })) }))

/-- The banks of a core out of service: OWNER 0 and OFF (R271, R417). -/
def State.banksOff (s : State) (d p : Nat) : State :=
  let s := s.modDie d (fun x => { x with backs := x.backs.filter (fun w => !(coreBanks d p).contains w.bank) })
  s.forAll (coreBanks d p) (fun s b =>
    (({ s with bankTrans := Tab.erase s.bankTrans b } : State).setOwner b 0 none).bankSleep b 2)

/-- FILL_MAP_SWITCH: the checked fill takes effect. -/
def execFillMapSwitch (d : Die) (s : State) : Host.Outcome State Fault Refusal :=
  .next (match (s.die d).fills with
    | [] => s
    | f :: rest =>
      if f.stage != 3 || s.dieState d != 0 then s else
      match s.spareSlot d f.target with
      | none => s
      | some q =>
        let a := dieAt d
        let mmas := (s.core d f.source).mmas
        let s := s.mapTo d f.logical q f.cause
        let s := s.modCore d f.source (fun x => { x with mmas := [] })
        let s := s.forAll ((coreBanks d f.target).zip f.owners) (fun s b => s.setOwner b.1 b.2.1 b.2.2)
        let s := (s.banksOff d f.source).moveDenials d f.source f.target
        let us := (s.ts - f.began) / 1000
        let log := (if f.restarts = 0 then 1 else 2) + f.cause * 4 + f.logical * 2 ^ 6 + f.source * 2 ^ 13 + f.target * 2 ^ 20
          + min f.poisoned (2 ^ 20 - 1) * 2 ^ 27 + min us (2 ^ 17 - 1) * 2 ^ 47
        let s := s.setReg (DIE_FILL_LOG_OUTCOME.at a 0) (BitVec.ofNat 64 log)
        let s := (s.bump a DIE_FILL_CNT_DONE_V).bump 0 HUB_FLT_CNT_FILLS_V
        let s := (s.modDie d (fun x => { x with fills := rest })).showFill d
        let s := (s.reissue d f.logical mmas).redoVecs d f.logical
        s.forAll (s.servedBy d f.logical) (fun s j => match s.runOf j with
          | some (lead, r) => (s.event j { type := 0x10, die := some d.val, seq := s.runSeq lead j, step := some r.step,
                                           a := f.logical, b := f.source, c := f.target }).showQueue lead d f.logical
          | none => s.event j { type := 0x10, die := some d.val, a := f.logical, b := f.source, c := f.target }))

/-! ## Failure and retirement (R410 to R412, R416) -/

/-- Cancel the accesses that a failed core has pending in its banks; PENDING then shows those of other owners (R416). -/
def State.cancelPending (s : State) (d l p : Nat) : State :=
  let s := s.forAll s.jobs (fun s e => match s.ctx e.1 d l with
    | none => s
    | some c =>
      let q := c.run.queue c.pd l
      s.setQueue e.1 c.pd l { q with fly := q.fly.map (fun f => { f with banks := [] }) })
  s.showPending (coreBanks d p)

/-- Is the heartbeat of a physical core watched: a core in service that is not retired or failed and awaits no fill, or the spare
under fill (R410, R423)? -/
def State.watched (s : State) (d p : Nat) : Bool :=
  s.inService d && (s.pstate == 0 || s.pstate == 1)
    && ((s.die d).fills.head?.any (fun f => f.stage != 0 && f.target == p)
      || (match s.logicalOf d p with
        | none => false
        | some l => !(s.fld (coreAt d p) CORE_HEALTH_STATE == 1 || s.fld (coreAt d p) CORE_HEALTH_STATE == 3)
            && !(s.die d).fills.any (fun f => f.logical == l)))

/-- HEARTBEAT_TIMEOUT: a watched core does not toggle within 100 µs, unless its toggle is present at the evaluation edge
(`arrived`), which is counted late (R408). -/
def execHeartbeatTimeout (d : Die) (p : Phys) (arrived : Bool) (s : State) : Host.Outcome State Fault Refusal :=
  .next (
    if !s.watched d p then s
    else if arrived then s.bump 0 HUB_FLT_CNT_LATE_V else
    let a := coreAt d p
    if (s.die d).fills.head?.any (fun f => f.stage != 0 && f.target == p.val) then
      (s.setFld a CORE_HEALTH_HB_LOST 1).fillFails d 2
    else match s.logicalOf d p with
      | none => s
      | some l =>
        let s := (s.setFld a CORE_HEALTH_HB_LOST 1).setFld a CORE_HEALTH_CAUSE 2
        ((s.bump 0 HUB_FLT_CNT_FAILED_V).cancelPending d l p).queueFill d l p 2)

/-- Does a core meet a condition of R411, by the cause that CORE_HEALTH gives it? -/
def State.retireDue (s : State) (d p cause : Nat) : Bool :=
  let arr := s.fld 0 HUB_FLT_CTRL_ARR_LIMIT
  let chk := s.fld 0 HUB_FLT_CTRL_CHK_LIMIT
  if cause = 1 then (s.core d p).retiring
  else if cause = 3 then arr != 0 && (List.range 4).any (fun n => decide (arr ≤ s.fld (arrAt d p n) ARR_STAT_ARR_VERDICTS))
  else if cause = 4 then chk != 0 && (List.range 4).any (fun n => decide (chk ≤ s.fld (arrAt d p n) ARR_STAT_CHK_VERDICTS))
  else if cause = 5 then (coreBanks d p).any (fun b => s.bit (bankAt b) BANK_STAT_FAILED)
  else if cause = 6 then decide (s.fld 0 AGE_ISL_F_MAX (d * 100 + p) < 1200)
  else false

/-- Has a logical core an instruction that is issued and not complete? -/
def State.coreBusy (s : State) (d l : Nat) : Bool :=
  s.jobs.any (fun e => match e.2.run with
    | none => false
    | some r => r.map.contains d && !(r.queue (r.map.findIdx (fun x => x == d)) l).fly.isEmpty)

/-- CORE_RETIRE: the core stops issuing; once every instruction that it issued is complete, its fill is ready (R412). A core
that fails the die self-test is replaced through a map change alone (R437). -/
def execCoreRetire (d : Die) (p : Phys) (cause : Nat) (s : State) : Host.Outcome State Fault Refusal :=
  .next (match s.logicalOf d p with
    | none => s
    | some l =>
      let a := coreAt d p
      if cause == 8 then
        if !(s.die d).testing then s else
        match s.spareFor d p with
        | none => s
        | some q =>
          let s := s.mapTo d l q 8
          ((s.forAll (coreBanks d (s.phys d l)) State.bankWake).banksOff d p).showSpares d
      else if !s.inService d then s
      else
        let st := s.fld a CORE_HEALTH_STATE
        let s := if st == 0 && !(s.die d).fills.any (fun f => f.logical == l) && s.retireDue d p cause then
            let s := (s.setFld a CORE_HEALTH_STATE 2).setFld a CORE_HEALTH_CAUSE cause
            let s := if cause == 6 then { s with nvm := { s.nvm with retiredAge := s.nvm.retiredAge + 1 } } else s
            s.bump 0 HUB_FLT_CNT_RETIRED_V
          else s
        if s.fld a CORE_HEALTH_STATE == 2 && !s.coreBusy d l then
          s.queueFill d l p (s.fld a CORE_HEALTH_CAUSE)
        else s)

/-! ## March tests (R276 to R278) -/

/-- Bank number of a bank code (Table 10-3): L × 8 + k, or 1,024 + b. -/
def State.bankOfCode (s : State) (d code : Nat) : Option Nat :=
  if code < 768 then some (shelfBank d (s.phys d (code / 8)) (code % 8))
  else if 1024 ≤ code ∧ code < 1040 then some (storeBank d (code - 1024)) else none

/-- Is MARCH_PRESERVING `c` one that its die's engine can take up now: fewer than 16 banks are under test (R274)? -/
def State.marchFree (s : State) (c : Cmd) : Bool := decide ((s.die (c.opnd 32 1)).marches.length < 16)

/-- DIE_MARCH_STAT as the PRESERVING marches of a die leave it: the lowest bank under test (Table 7-17). -/
def State.showMarch (s : State) (d : Nat) : State :=
  match minBy (fun (x : Nat) => x) ((s.die d).marches.map (fun m => m.bank % 816)) with
  | none => s.setReg (DIE_MARCH_STAT_MODE.at (dieAt d) 0) 0
  | some k => (s.setFld (dieAt d) DIE_MARCH_STAT_MODE 2).setFld (dieAt d) DIE_MARCH_STAT_BANK k

/-- MARCH_PRESERVING: refused on a bank that is owned; else the engine owns the bank until MARCH_DONE. -/
def execMarchPreserving (j : Slot) (s : State) : Host.Outcome State Fault Refusal :=
  .next (s.startOnDie j (fun c => c.op == 0x6000 && s.marchFree c) (fun s c =>
    let d := c.opnd 32 1
    if 3 < d || 1 < c.opnd 36 1 || !s.inService d then s.refuse j c.seq 0x1021 else
    match s.bankOfCode d (c.opnd 34 2) with
    | none => s.refuse j c.seq 0x1021
    | some b =>
      if s.fld (bankAt b) BANK_OWN_OWNER != 0 then s.refuse j c.seq 0x1020 else
      let s := (s.setOwner b 5 none).bankReady b
      (s.modDie d (fun x => { x with marches := x.marches ++ [⟨b, j.val, c.seq⟩] })).showMarch d))

/-- A bank is marked FAILED (R278): a store-room bank takes its die out of service, a bank of a spare fails the spare; a core
in service retires (CORE_RETIRE with cause 5). -/
def State.failBank (s : State) (b : Nat) : State :=
  if s.bit (bankAt b) BANK_STAT_FAILED then s else
  let d := bankDie b
  let s := (s.setFld (bankAt b) BANK_STAT_FAILED 1).bump (dieAt d) DIE_MARCH_CNT_FAILED_V
  let s := { s with nvm := { s.nvm with failedBanks := s.nvm.failedBanks ++ [b] } }
  if bankIsStore b then s.leaveService d 2 2 else
  let p := b % 816 / 8
  match s.spareSlot d p with
  | none => s
  | some q =>
    if s.fld (dieAt d) DIE_SPARE_Q_STATE q = 0 then ((s.failSpare d q 5).showSpares d).checkSpares d
    else if s.fld (dieAt d) DIE_SPARE_Q_STATE q = 1 then s.fillFails d 5
    else s

/-- Rows of a bank: 640 in a shelf bank, 4,096 in a store-room bank. -/
def bankRowCount (b : Nat) : Nat := bankBytes b / 1024

/-- The repair records of a bank, oldest first. -/
def State.repairsOf (s : State) (b : Nat) : List Repair := s.nvm.repairs.filter (fun r => r.bank == b)

/-- Rows of the bank that a report finds failing, each once, in the order found. -/
def failingRows (m : MarchReport) : List Nat := (m.rows.filter (fun r => decide (r < bankRowCount m.bank))).eraseDups

/-- Spare rows that a report leaves usable: those that passed their own test and take no row's place yet (R277). -/
def State.usable (s : State) (m : MarchReport) : List Nat :=
  (List.range 16).filter (fun q => !bitN m.spares q && !(s.repairsOf m.bank).any (fun r => r.spare == q))

/-- The repairs that a report brings: each failing row takes the lowest usable spare row that is left. -/
def State.repairsBy (s : State) (m : MarchReport) : List Repair :=
  ((failingRows m).zip (s.usable m)).map (fun x => ⟨m.bank, x.1, x.2⟩)

/-- BANK_REPAIR as the repair records of a bank leave it. -/
def State.showRepairs (s : State) (b : Nat) : State :=
  match (s.repairsOf b).getLast? with
  | none => s
  | some r => (s.setFld (bankAt b) BANK_REPAIR_USED (s.repairsOf b).length).setFld (bankAt b) BANK_REPAIR_LAST_ROW r.row

/-- What a march found in a bank: rows are repaired (R277), and the bank is marked FAILED when rows are left over (R278). -/
def State.marchFound (s : State) (m : MarchReport) : State :=
  let rs := s.repairsBy m
  let over_ := decide ((s.usable m).length < (failingRows m).length)
  let s := s.modNvm (fun n => { n with repairs := n.repairs ++ rs })
  let s := (s.bump (dieAt (bankDie m.bank)) DIE_MARCH_CNT_REPAIRS_V rs.length).showRepairs m.bank
  if over_ then s.failBank m.bank else s

/-- MARCH_DONE: the march of a bank ends, that of a MARCH_PRESERVING, or one of the die self-test or of stage 3. -/
def execMarchDone (d : Die) (rep : MarchReport) (s : State) : Host.Outcome State Fault Refusal :=
  .next (
    if bankDie rep.bank != d.val then s else
    match (s.die d).marches.find? (fun m => m.bank == rep.bank) with
    | some m =>
      let n := (s.repairsBy rep).length
      let s := (s.modDie d (fun x => { x with marches := x.marches.filter (fun y => y.bank != m.bank) })).showMarch d
      let s := if s.fld (bankAt m.bank) BANK_OWN_OWNER = 5 then s.setOwner m.bank 0 none else s
      let s := s.marchFound rep
      match (s.qp m.slot).cmds.find? (fun c => c.started && c.op == 0x6000 && c.seq == m.seq) with
      | none => s
      | some c => (s.modCmd m.slot c.seq (fun c => { c with result := n, parts := 16 })).finish m.slot c.seq
    | none => if (s.die d).testing || s.fld 0 HUB_BRINGUP_CURRENT == 3 then s.marchFound rep else s)

/-! ## Self-test (R437) -/

/-- Every bank of a die reads as zero, its poison clear, with OWNER 0 (R275, R296). -/
def State.clearBanks (s : State) (d : Nat) : State :=
  let s := { s with shelf := s.shelf.scrub (shelfKey d 0 0) (100 * 5242880), store := s.store.scrub (storeKey d 0) (2 ^ 26) }
  let s := ({ s with bankTrans := s.bankTrans.filter (fun e => bankDie e.1 != d) }).modDie d (fun x => { x with backs := [] })
  s.forAll (List.range 816) (fun s k =>
    s.setReg (BANK_OWN_OWNER.at (bankAt (d * 816 + k)) 0) (regReset (BANK_OWN_OWNER.at (bankAt (d * 816 + k)) 0)))

/-- Banks of cores in service and of the store room serve; those of the others are off (R273, Table 11-3). -/
def State.powerBanks (s : State) (d : Nat) : State :=
  s.forAll (List.range 816) (fun s k =>
    let b := d * 816 + k
    let on := decide (800 ≤ k) || (s.logicalOf d (k / 8)).isSome
    let s := (s.setFld (bankAt b) BANK_STAT_READY (b2n on)).setFld (bankAt b) BANK_STAT_PWR (if on then 0 else 2)
    s.setFld (bankAt b) BANK_CTRL_PWR_REQ (if on then 0 else 2))

/-- Decisions that a part has not applied are applied when it returns (R398); the hub holds every binding and window, so
nothing else of the part follows. -/
def State.applyDeferred (s : State) (d : Nat) : State :=
  { s with nvm := { s.nvm with deferred := s.nvm.deferred.filter (fun x => x.die != d) } }

/-- DIE_SELF_TEST: a diagnosing die, or one at the end of its per-die reset, begins the self-test. -/
def execDieSelfTest (d : Die) (s : State) : Host.Outcome State Fault Refusal :=
  .next (
    let st := s.dieState d
    if !(st == 2 || st == 5) || (s.die d).testing || !(s.die d).marches.isEmpty || !s.power.main then s else
    let s := if st == 5 then
        (s.setFld 0 HUB_DIE_STATE_STATE 2 d).applyDeferred d
      else s
    let s := (s.clearBanks d).powerBanks d
    let s := (s.setFld (dieAt d) DIE_MARCH_STAT_MODE 1).setFld (dieAt d) DIE_MARCH_STAT_BANK 0
    s.modDie d (fun x => { x with testing := true }))

/-- DIE_SELF_TEST_DONE. -/
def execDieSelfTestDone (d : Die) (ok : Bool) (s : State) : Host.Outcome State Fault Refusal :=
  .next (
    if !(s.die d).testing then s else
    let s := s.modDie d (fun x => { x with testing := false })
    let s := s.setReg (DIE_MARCH_STAT_MODE.at (dieAt d) 0) 0
    let s := { s with power := { s.power with dieReset := clearBit s.power.dieReset d } }
    s.setFld 0 HUB_DIE_STATE_STATE (if ok then 3 else 4) d)

end Sys2Proof.Machine
end

