-- ==== Sys2Proof/Machine/Session.lean ====
section
/-!
DEFINITION. What resets, power and debug share of the security block (R511 to R533): measurements, keys, the nonce, and the
end of a session.
-/
namespace Sys2Proof.Machine

/-- Change the security block. -/
def State.modSec (s : State) (f : Sec → Sec) : State := { s with sec := f s.sec }

/-- The 64 B of measurement register i. -/
def State.measured (s : State) (i : Nat) : List Byte :=
  (List.range 8).flatMap (fun k => bytesLE 8 (s.fld 0 SEC_MEAS_V (8 * i + k)))

/-- Extend measurement register i with a record (R517). -/
def State.measureExtend (s : State) (i : Nat) (rec_ : List Byte) : State :=
  let m := shake256 (s.measured i ++ rec_) 64
  s.forAll (List.range 8) (fun s k => s.setFld 0 SEC_MEAS_V (leAt m (8 * k) 8) (8 * i + k))

/-- A security event extends M3 (Table 14-2): 1 CLAIM, 2 session start, 3 D2 entry, 4 keys zeroised, 5 session end,
6 RETURN. -/
def State.secEvent (s : State) (code level : Nat) : State :=
  s.measureExtend 3 (bytesLE 1 code ++ bytesLE 1 level ++ zeros 6)

/-- SEC_STAT.STATE (Table 14-3). -/
def State.secState (s : State) : Nat := s.fld 0 SEC_STAT_STATE

/-- The nonce becomes invalid (R525). -/
def State.dropNonce (s : State) : State :=
  s.forAll (List.range 4) (fun s k => s.setFld 0 SEC_NONCE_V 0 k) |>.setFld 0 SEC_STAT_NONCE_VALID 0

/-- A new nonce is drawn from the generator (R525). -/
def State.newNonce (s : State) : State :=
  let s := s.forAll (List.range 4) (fun s k => (s.setFld 0 SEC_NONCE_V s.free.toNat k).drawn)
  s.setFld 0 SEC_STAT_NONCE_VALID 1

/-- A core halts or resumes (R523, R528); SEQ_STAT shows HALTED (6), or IDLE where no job's queue stands on the core. -/
def State.setHalt (s : State) (d p : Nat) (on : Bool) : State :=
  if (s.core d p).halted == on then s else
  (s.modCore d p (fun x => { x with halted := on })).setFld (coreAt d p) SEQ_STAT_STATE (if on then 6 else 0)

/-- Show every job's queues. -/
def State.showJobs (s : State) : State :=
  s.forAll (s.jobs.map Prod.fst) (fun s j => match (s.job j).run with
    | some r => if r.posted || r.spilled then s else s.showAll j
    | none => s)

/-- A session ends (R528). -/
def State.endSession (s : State) : State :=
  let lv := s.level
  if lv = 0 then s else
  let s := s.forAll (s.cores.map Prod.fst) (fun s k =>
    (s.setHalt (k / 100) (k % 100) false).modCore (k / 100) (k % 100) (fun x => { x with armed := [] }))
  let six := (List.range 3264).filter (fun b => s.fld (bankAt b) BANK_OWN_OWNER == 6)
  let s := s.forAll six (fun s b => s.setOwner b 0 none)
  let s := s.secEvent 5 lv
  let s := (s.setFld 0 SEC_STAT_LEVEL 0).setFld 0 SEC_STAT_SESSION_PATH 0
  let s := if s.secState = 2 then s.setFld 0 SEC_STAT_STATE 1 else s
  (s.secAlert 1).showJobs

/-- CLR_STAT.LOCKED follows CK; the locked cellar is not READY (R514). -/
def State.showLock (s : State) : State :=
  if s.sec.ck.isSome then s.setFld 0 CLR_STAT_LOCKED 0
  else ((s.setFld 0 CLR_STAT_LOCKED 1).setFld 0 CLR_STAT_READY 0).setFld 0 CLR_STAT_RECOVERING 0

/-- CK and every job key are zeroised (R520, R527). -/
def State.zeroise (s : State) : State :=
  let s := s.modSec (fun x => { x with ck := none, ckCellar := none })
  let s := s.forAll (s.jobs.map Prod.fst) (fun s j => s.modJob j (fun x => { x with jobKey := none }))
  s.showLock

/-- The owner's keys are formed from DRS and the owner seed, or are absent; CK is copied into the cellar controller while the
hub's main domain is powered (Table 14-1, R513). -/
def State.formOwner (s : State) (field : Bool) : State :=
  let ors := if field then s.sec.drs.map (fun d => shake256 (d ++ s.nvm.ownerSeed ++ ascii "F9-ORS") 32) else none
  let ck := ors.map (fun o => shake256 (o ++ ascii "F9-CLR") 64)
  s.modSec (fun x => { x with ors := ors, ck := ck, ckCellar := if s.power.main then ck else none })

/-- Stage 1 forms the keys and loads the registers that fuses hold (R511 to R513, R519, R520, R542). RETURN's seed lock is
completed before anything else. -/
def State.formKeys (s : State) : State :=
  let n := s.nvm
  let s := { s with nvm := { n with seedLock := n.seedLock || n.returned } }
  let field := n.claimed && !n.returned && !n.seedLock
  let drs := shake256 (Config.fuseSecret ++ Config.pufResponse) 32
  let dik := shake256 (drs ++ ascii "F9-DIK") 32
  let s := s.modSec (fun x => { x with drs := some drs, dik := some dik }) |>.formOwner field
  let s := s.setFld 0 SEC_STAT_STATE (if n.returned then 3 else if n.claimed then 1 else 0)
  let s := (s.setFld 0 SEC_STAT_CLAIM_SPOILED (b2n n.spoiled)).setFld 0 SEC_STAT_SVN_MIN n.svnMin
  s.forAll (List.range 4) (fun s k => s.setFld 0 SEC_DEVICE_ID_V (leAt (shake256 (Config.publicKey dik) 32) (8 * k) 8) k)

/-- A binding is discarded with its job key, its plan and everything the steward and the ring keep for it (R385, R489). The
windows and the policy stay where `keep` says so. -/
def Job.unbound (x : Job) (keep : Bool) : Job :=
  { ldrBase := if keep then x.ldrBase else [0, 0, 0, 0], ldrBytes := if keep then x.ldrBytes else [0, 0, 0, 0],
    atcBase := if keep then x.atcBase else 0, atcBytes := if keep then x.atcBytes else 0,
    policy := if keep then x.policy else none, policyNew := if keep then x.policyNew else none,
    binds := x.binds, capture := x.capture }

/-- Every binding, window, policy and steward state goes (R489, R520). -/
def State.discardJobs (s : State) : State :=
  s.forAll (s.jobs.map Prod.fst) (fun s j =>
    let s := s.modJob j (fun x => x.unbound false)
    let s := (s.setFld 0 HUB_FLT_JOB_SET 0 j).setFld 0 HUB_FLT_JOB_HOME 0 j
    s.setFld 0 CLR_JOB_RSTEP_VALID 0 j)

end Sys2Proof.Machine
end

