-- ==== Sys2Proof/Machine/Reset.lean ====
section
/-!
DEFINITION. What the resets and the entry to P3 act on (R482, R489, R510, R513, R566 and the chapters' own rules): PERST# and a
cold power cycle, FLR, a per-die reset, P3; and the removal of power.
-/
namespace Sys2Proof.Machine

/-! ## Register groups -/

/-- The sideband registers of Table 15-11. -/
def isSideband (a : Nat) : Bool := within 0x1800 0x1900 a
/-- Offset in the window of die d, if the address lies there. -/
def dieOff (d a : Nat) : Option Nat := if within (dieAt d) (dieAt (d + 1)) a then some (a - dieAt d) else none
/-- Offset in a core's block, of an offset in a die's window. -/
def coreOff (o : Nat) : Option Nat := if within 0x100000 0x1C8000 o then some ((o - 0x100000) % 0x2000) else none
/-- Offset in a bank's block, of an offset in a die's window. -/
def bankOff (o : Nat) : Option Nat :=
  if within 0x80000 0x81000 o then some (o % 0x100)
  else match coreOff o with
    | some c => if within 0x1000 0x1800 c then some (c % 0x100) else none
    | none => none
/-- Does an optional offset satisfy a test? -/
def at_ (o : Option Nat) (p : Nat → Bool) : Bool := match o with
  | some x => p x
  | none => false

/-- Registers that show the work of jobs on a die: queue states, codebook slots, transfers, array bindings. -/
def workReg (o : Nat) : Bool :=
  within 0x300 0x310 o || (within 0x2200 0x2300 o && o % 0x20 == 0)
    || at_ (coreOff o) (fun c => within 0x100 0x140 c || within 0x400 0x418 c)

/-- BANK_OWN, BANK_STAT and BANK_CTRL (R299). -/
def bankStateReg (o : Nat) : Bool := at_ (bankOff o) (fun b => decide (b < 0x18))

/-- Registers of Tables 8-5 to 8-7 (R333). -/
def beaterReg (o : Nat) : Bool := at_ (coreOff o) (within 0x800 0xC00)
/-- Registers of Tables 9-5 to 9-8 (R368). -/
def ringReg (o : Nat) : Bool := within 0x40100 0x41000 o

/-- Registers of a die that a per-die reset returns to their reset values (R215, R253, R299, R333, R368, R441, R413). -/
def dieResetReg (o : Nat) : Bool :=
  workReg o || bankStateReg o || beaterReg o || ringReg o || within 0x310 0x328 o || within 0x2000 0x2100 o
    || at_ (coreOff o) (fun c => within 0x200 0x300 c || within 0x300 0x304 c || within 0x420 0x450 c
      || (within 0xC00 0x1000 c && c % 0x100 == 0))

/-- Registers that FLR returns to their reset values (R299, R333, R368, R406, R441, R470, R567). -/
def flrReg (a : Nat) : Bool :=
  within 0x100000 0x200000 a || within 0x200 0x210 a || within 0x400 0x408 a || within 0x800 0x1400 a
    || within 0x1500 0x1700 a || within 0x421000 0x422000 a || a == 0x300040
    || [0, 1, 2, 3].any (fun d => at_ (dieOff d a) (fun o => workReg o || bankStateReg o || beaterReg o || ringReg o))

/-- Registers of a die that entry to P3 keeps: the host-written RING_CTRL, and nothing else (R566). -/
def p3Keeps (o : Nat) : Bool := o == 0x40108

/-- Registers that entry to P3 returns to their reset values (R333, R566). -/
def p3Reg (a : Nat) : Bool :=
  within 0x800 0x1000 a || (within 0x1000 0x1400 a && a % 0x10 == 8)
    || [0, 1, 2, 3].any (fun d => at_ (dieOff d a) (fun o => !p3Keeps o))

/-! ## Common pieces -/

/-- Row repairs and FAILED marks, as hub NVM records them, show in the registers of a die's banks (R277, R299, R441). -/
def State.reapply (s : State) (d : Nat) : State :=
  let s := s.forAll (((s.nvm.repairs.map (fun r => r.bank)).filter (fun b => bankDie b == d)).eraseDups) State.showRepairs
  s.forAll (s.nvm.failedBanks.filter (fun b => bankDie b == d)) (fun s b => s.setFld (bankAt b) BANK_STAT_FAILED 1)

/-- No array works for a job; suspect marks and verdict counts stay (R413). -/
def State.idleArrays (s : State) : State :=
  s.forAll ((s.regs.map Prod.fst).filter (fun a => [0, 1, 2, 3].any (fun d => at_ (dieOff d a) (fun o =>
      at_ (coreOff o) (fun c => within 0xC00 0x1000 c && c % 0x100 == 0))))) (fun s a =>
    s.setReg a (withBits (withBits (s.reg a) 30 24 0) 3 3 0))

/-- Zero a die's banks with their poison (R296); nothing pends in them, and no march runs. -/
def State.zeroBanks (s : State) (d : Nat) : State :=
  let s := { s with shelf := s.shelf.scrub (shelfKey d 0 0) (100 * 5242880), store := s.store.scrub (storeKey d 0) (2 ^ 26) }
  let s := ({ s with bankTrans := s.bankTrans.filter (fun e => bankDie e.1 != d) }).modDie d (fun x => { x with backs := [], marches := [] })
  s.setReg (DIE_MARCH_STAT_MODE.at (dieAt d) 0) 0

/-- Cores of a die hold nothing of any job. -/
def State.clearCores (s : State) (d : Nat) : State := { s with cores := s.cores.filter (fun e => e.1 / 100 != d) }

/-- The contents of every bank and larder are lost with their power. -/
def State.loseMemory (s : State) : State := s.forAll allDies State.scrambleDie

/-- Hub draw in W in a power state (Table 13-3); at most 25 W in P3 and P4. -/
def State.hubWatts (s : State) (p : Nat) : Nat := if p ≤ 2 then 70 else s.free.toNat % 26

/-- PWR_STAT.INPUT_W: what the hub and the dies draw. -/
def State.showInput (s : State) (p : Nat) : State :=
  let w := s.hubWatts p + allDies.foldl (fun n d => n + s.fld 0 PWR_DIE_DRAW d) 0
  (if p ≤ 2 then s else s.drawn).setFld 0 PWR_STAT_INPUT_W w

/-! ## PERST#, cold power cycle, removal of power -/

/-- PERST# and a cold power cycle (Table 13-2): every register of BAR0 but the sideband ones, every job, queue pair and key. -/
def State.hardReset (s : State) : State :=
  let s := s.dropCaptures
  let s := s.resetRegs (fun a => !isSideband a)
  { s with
    ts := 0, latch := none, qps := [], prepared := [], jobs := [], dies := [], cores := [], links := [], attics := [],
    bankTrans := [], sec := {}, mbox := { s.mbox with queue := [] },
    pins := { s.pins with xPerst := true },
    nvm := { s.nvm with deferred := [] },
    power := { s.power with zeroing := 0, dieReset := 0, ramps := [], p2owners := [], waking := false, atticOut := 0,
                            wakeBanks := none, leaving := none, ballastRem := 0, rest := [] } }

/-- PERST# and a cold power cycle, alerts released with their bits. -/
def State.fullReset (s : State) : State := s.hardReset.syncAlert

/-- Power leaves everything but the auxiliary domain: P4 (R474). -/
def State.toP4 (s : State) : State :=
  let s := s.fullReset.loseMemory
  { s with power := { s.power with main := false, cold := true, plans := [], osc := [] } }

/-- A power loss (R473): the cellar completes its operations on hold-up, the rest is lost. -/
def State.loseInput (s : State) (dv : Nat) : State :=
  let busy := s.fld 0 CLR_FLIGHT_MIB != 0
  let s := s.toP4
  { s with
    mbox := {}, msix := s.msix,
    pins := { s.pins with wake := false, thermtrip := false },
    power := { s.power with inputDv := dv, inRange := false, charged := false, aux := false },
    nvm := { s.nvm with powerLoss := true },
    cellar := { s.cellar with holdup := s.cellar.holdup || busy } }

/-! ## FLR -/

/-- FLR, but for the zeroing of the larder and its end (R483, R513, R528, R542). R43 names nothing that empties the BAR0 latch:
this does, as PERST# and a cold power cycle do, while a per-die reset and P3 keep it (log entry 6, DESIGN CHOICE). -/
def State.flrReset (s : State) : State :=
  let s := s.endSession.dropNonce.setFld 0 SEC_TRACE_CTRL_EN 0
  let s := s.modSec (fun x => { x with d2wait := match x.d2wait with
    | some (.keager _) => none
    | w => w })
  let s := s.dropCaptures
  let s := s.discardJobs
  let s := (s.resetRegs flrReg).idleArrays
  let s := { s with
    latch := none, qps := [], prepared := [], jobs := [], attics := [],
    power := { s.power with p2owners := [], waking := false, ramps := [] },
    nvm := { s.nvm with deferred := [] } }
  let s := s.forAll allDies (fun s d =>
    (((s.zeroBanks d).clearCores d).reapply d).modDie d (fun x => { x with
      fills := x.fills.map (fun f => { f with owners := f.owners.map (fun _ => (0, none)) }) }))
  s.setFld 0 PWR_STAT_RAMPING 0

/-! ## Per-die reset -/

/-- A per-die reset's act on the die (R139, R296, R368, R441, R510, R542): its banks and larder are zeroed, its registers
return, its codebook slots empty; links keep running. -/
def State.dieResetState (s : State) (d : Nat) : State :=
  let s := s.dropNonce.resetRegs (fun a => at_ (dieOff d a) dieResetReg)
  let s := ((s.zeroBanks d).clearCores d).zeroLarder d
  let s := s.modDie d (fun x => { x with fills := [], gaps := false, testing := false, cool := true, work := 0 })
  let s := s.forAll (List.range 4) (fun s q =>
    if s.fld (dieAt d) DIE_SPARE_Q_STATE q = 1 then s.setFld (dieAt d) DIE_SPARE_Q_STATE 0 q else s)
  s.reapply d

/-! ## P3 -/

/-- Entry to P3 (R489, R513, R528, R566). -/
def State.enterP3 (s : State) : State :=
  let s := s.endSession
  let s := s.discardJobs
  let s := s.resetRegs p3Reg
  let s := { s with dies := [], cores := [], links := [], attics := [], bankTrans := [] }
  let s := s.modSec (fun x => { x with ckCellar := none })
  let s := s.loseMemory
  let s := s.forAll [0, 1] (fun s x =>
    if s.bit 0 ATC_STAT_UP x then (s.setFld 0 ATC_STAT_UP 0 x).setFld 0 ATC_STAT_DOWN_SEEN 1 x else s)
  { s with power := { s.power with main := false, p2owners := [], ramps := [], waking := false, zeroing := 0 },
           pins := { s.pins with xPerst := true } }

end Sys2Proof.Machine
end

