-- ==== Sys2Proof/Machine/Tick.lean ====
section
/-!
DEFINITION. What the passing of a nanosecond does: the timestamp counts while the hub's auxiliary domain is powered (R7),
AGE_POWERED_S counts seconds (Table 13-10), each pair whose completion queue is full counts (Table 10-14), and how long each die
has run no job, and the module has had no work, is kept (R486, R496). Every other effect of time is a command of its own.
-/
namespace Sys2Proof.Machine

/-! ## Work on the dies -/

/-- Does a run in progress, not evicted, use die d? -/
def State.runsOn (s : State) (d : Nat) : Bool :=
  s.jobs.any (fun e => match e.2.run with
    | some r => !r.posted && !r.spilled && r.map.contains d
    | none => false)
/-- Is a run in progress, or a capture or a command that needs a die under way? -/
def State.atWork (s : State) : Bool :=
  s.jobs.any (fun e => match e.2.run with
    | some r => !r.posted
    | none => false)
  || s.qps.any (fun e => e.2.cmds.any (fun c => c.started && !c.done && (c.op == 0x1000 || c.op == 0x1001 || c.op == 0x6000)))
  || s.jobs.any (fun e => e.2.capture.isSome)
/-- When die k last ran a job; for 4, when the module was last at work or not in P0. -/
def State.restTs (s : State) (k : Nat) : Nat := Tab.getD s.power.rest k 0
/-- Note which dies run a job now, and whether the module is at work or not in P0. -/
def State.noteRest (s : State) : State :=
  let ks := allDies.filter s.runsOn ++ (if s.pstate != 0 || s.atWork then [4] else [])
  { s with power := { s.power with rest := ks.foldl (fun t k => Tab.put t k s.ts) s.power.rest } }

/-- One nanosecond on an empty command queue (log entry 1). -/
def State.tick (s : State) : State :=
  if !s.power.aux then s else
  let ts := (s.ts + 1) % 2 ^ 64
  let s := { s with ts := ts }.noteRest
  let s := if ts % 1000000000 = 0 then s.bump 0 AGE_POWERED_S_V else s
  s.forAll s.qps (fun s q => if q.2.held.isEmpty then s else s.bump 0 KGR_CNT_CQ_WAIT_V 1 q.1)

end Sys2Proof.Machine
end

