-- ==== Sys2Proof/Machine/Governor.lean ====
section
/-!
DEFINITION. The governor (R241, R487 to R508): levels and ramps, power states, the cap, ballast, thermal limits and the operating
points of the core islands.
-/
namespace Sys2Proof.Machine

/-! ## Operating points (R495, R499, R504, R505) -/

/-- Index of an island's register. -/
def islOf (d p : Nat) : Nat := d * 100 + p

/-- F_MAX of an island, in MHz. -/
def State.fMax (s : State) (d p : Nat) : Nat := s.fld 0 AGE_ISL_F_MAX (islOf d p)

/-- The lesser of a frequency and a limit. -/
def limitBy (f : Nat) (l : Option Nat) : Nat := match l with
  | some x => min f x
  | none => f

/-- The frequency that an island runs at (R495): the lowest of F_MAX, 1,750 MHz (F_MAX under BOOST), its thermal limit, the
limit of R495 and the drop of R505, and never below 1,200 MHz (R27). -/
def State.freqNow (s : State) (d p : Nat) : Nat :=
  let x := s.core d p
  let base := if s.bit 0 PWR_CTRL_BOOST then s.fMax d p else min 1750 (s.fMax d p)
  max 1200 (limitBy (limitBy (limitBy base x.thermal) x.powerCap) x.slackCap)

/-- V(f) of an island: from its operating plan; at 1,750 MHz the V175 that the ledger keeps; else open (log entry 2). -/
def State.voltAt (s : State) (d p f : Nat) : State × Nat :=
  match Tab.find s.power.plans (islOf d p) with
  | some vs => (s, vs.getD ((f - 1200) / 25) 0)
  | none => if f = 1750 then (s, s.fld 0 AGE_ISL_V175 (islOf d p)) else (s.drawn, s.free.toNat % 1024)

/-- Show an island's present frequency and voltage. -/
def State.showIsland (s : State) (d p : Nat) : State :=
  let f := s.freqNow d p
  if s.fld 0 AGE_ISL_F_NOW (islOf d p) = f then s else
  let (s, v) := s.voltAt d p f
  (s.setFld 0 AGE_ISL_F_NOW f (islOf d p)).setFld 0 AGE_ISL_V_NOW v (islOf d p)

/-- Physical cores in service on a die. -/
def State.coresIn (s : State) (d : Nat) : List Nat :=
  ((List.range 96).filter (fun l => s.bit (dieAt d) DIE_CORE_MAP_MAPPED l)).map (s.phys d)

/-- Set a limit of an island. -/
def State.modIsland (s : State) (d p : Nat) (f : Core → Core) : State := (s.modCore d p f).showIsland d p

/-! ## Levels (R492, R494) -/

/-- A die's P1 share in W (Table 13-3). -/
def p1Share : Nat := 60
/-- Level L_d. -/
def State.levelW (s : State) (d : Nat) : Nat := s.fld 0 PWR_DIE_LEVEL d
/-- Sum of the levels. -/
def State.sumW (s : State) : Nat := allDies.foldl (fun n d => n + s.levelW d) 0
/-- Does the cap limit the levels? -/
def State.capLimits (s : State) : Bool := decide (s.fld 0 PWR_CAP_CAP_W < 150 + s.sumW)
/-- Effective level E_d. -/
def State.effW (s : State) (d : Nat) : Nat :=
  if s.capLimits then s.levelW d * (s.fld 0 PWR_CAP_CAP_W - 150) / s.sumW else s.levelW d
/-- Present draw of a die. -/
def State.drawW (s : State) (d : Nat) : Nat := s.fld 0 PWR_DIE_DRAW d

/-- Set a PWR_ALERT bit when its condition starts to hold (R502): `was` and `now` are the condition before and now. -/
def State.alertOn (s : State) (b : Nat) (was now : Bool) : State := if now && !was then s.pwrAlert b else s

/-- E_d of every die, and what shows the cap's limit. -/
def State.showLevels (s : State) : State :=
  let was := s.bit 0 PWR_STAT_CAP_LIMITED
  let s := s.setFld 0 PWR_STAT_CAP_LIMITED (b2n s.capLimits)
  let s := s.alertOn 1 was s.capLimits
  s.forAll allDies (fun s d =>
    (s.setFld 0 PWR_DIE_EFFECTIVE (s.effW d) d).setFld 0 PWR_DIE_GRANTED (b2n (decide (s.effW d ≤ s.drawW d))) d)

/-- The figures of a power state: what a die draws (Table 13-3). -/
def State.figure (s : State) (d p : Nat) : Nat :=
  if s.dieState d != 0 then 0 else if p ≤ 1 then s.effW d else if p = 2 then 20 else 0

/-- Does the governor hold a die's draw at E_d: powered and in service? -/
def State.ramps (s : State) (d : Nat) : Bool := decide (s.pstate ≤ 1) && s.power.main && s.dieState d == 0

/-- Queue a ramp. -/
def State.addRamp (s : State) (die : Option Nat) (state : Nat) (serves : RampFor) : State :=
  { s with power := { s.power with ramps := s.power.ramps ++ [(⟨die, state, serves, s.ts⟩ : Ramp)] } }.setFld 0 PWR_STAT_RAMPING 1

/-- Queue the ramps that a change of levels or cap asks for, in ascending die order; `serves` gives what each serves. -/
def State.addRamps (s : State) (serves : Nat → RampFor) : State :=
  s.forAll (allDies.filter (fun d => s.ramps d && s.effW d != s.drawW d)) (fun s d => s.addRamp (some d) 0 (serves d))

/-- Set a die's level; the ramps that follow serve nothing but, for a raise of this die, `serves`. Answers whether that raise
waits for a ramp: it raises the level in force, and beyond what the die draws (R241, R494). -/
def State.setLevel (s : State) (d w : Nat) (serves : RampFor) : State × Bool :=
  let was := s.effW d
  let s := ((s.setFld 0 PWR_DIE_LEVEL w d).showLevels).trace 5 d 96 0
  let up := s.ramps d && decide (was < s.effW d) && decide (s.drawW d < s.effW d)
  (s.addRamps (fun x => if x = d && up then serves else .none), up)

/-! ## PWR and its end (R241, R494) -/

/-- PWR: LEVEL becomes the die's level; a lowering, or a raise to what the die draws, completes at once. -/
def execPwr (j : Slot) (d : Die) (s : State) : Host.Outcome State Fault Refusal :=
  .next (s.issue j d 96 (fun i => iOp i == 0x09) (fun _ _ _ => true) (fun s c pos i =>
    let w := leAt i 12 2
    let (s, waits) := s.setLevel d w (.pwr d j)
    if waits then s.launch c 96 pos w i else s.signal j d 96 i))

/-- The PWR in flight in a die queue completes. -/
def State.pwrDone (s : State) (d j : Nat) : State :=
  match s.ctx j d 96 with
  | none => s
  | some c => match (c.run.queue c.pd 96).fly.find? (fun f => f.op == 0x09) with
    | some f => s.retire j d 96 f.idx
    | none => s

/-- LINGER_EXPIRY: a die that has run no job for PWR_CTRL.LINGER_US falls to its P1 share (R496). -/
def execLingerExpiry (d : Die) (s : State) : Host.Outcome State Fault Refusal :=
  .next (
    if s.runsOn d || s.ts < s.restTs d + 1000 * max 100 (s.fld 0 PWR_CTRL_LINGER_US) || s.levelW d ≤ p1Share || !s.ramps d then s
    else (s.setLevel d p1Share .none).1)

/-! ## The cap (R497) -/

/-- SET_POWER_CAP (0x0003). -/
def execSetPowerCap (j : Slot) (s : State) : Host.Outcome State Fault Refusal :=
  .next (s.start j (fun c => c.op == 0x0003) (fun s c =>
    let w := c.opnd 32 4
    if w < 850 || 1500 < w then s.refuse j c.seq 0x1021 else
    let s := ((s.setFld 0 PWR_CAP_CAP_W w).showLevels).modCmd j c.seq (fun c => { c with parts := 16 })
    let ds := allDies.filter (fun d => s.ramps d && s.effW d != s.drawW d)
    match ds.getLast? with
    | none => s.finish j c.seq
    | some last =>
      (s.modCmd j c.seq (fun c => { c with waiting := true })).addRamps (fun d => if d = last then .cap j else .none)))

/-- The command of an opcode that waits on pair j for a ramp or a transition. -/
def State.waitsFor (s : State) (j op : Nat) : Option Cmd :=
  (s.qp j).cmds.find? (fun c => c.started && c.waiting && c.op == op)

/-! ## Power states (R486 to R490) -/

/-- Entry to P2 (R488): owners are noted and written 0, banks go to RETAIN but for those kept ON (R506). -/
def State.enterP2 (s : State) : State :=
  let ds := allDies.filter (fun d => s.dieState d == 0)
  s.forAll (ds.flatMap (fun d => (List.range 816).map (fun k => d * 816 + k))) (fun s b =>
    let o := s.fld (bankAt b) BANK_OWN_OWNER
    let job := if s.bit (bankAt b) BANK_OWN_JOB_VALID then s.fld (bankAt b) BANK_OWN_JOB + 65 else 0
    let s := if o = 0 then s else
      { s with power := { s.power with p2owners := Tab.put s.power.p2owners b (o + 8 * job) } }.setOwner b 0 none
    let high := decide (90 < (Tab.getD s.nvm.vmin b (0, 0)).2)
    if high || s.bankPwr b == 2 then s else s.bankSleep b 1)

/-- The banks wake and their owners are written back (R488, R490). -/
def State.leaveP2 (s : State) : State :=
  let ds := allDies.filter (fun d => s.dieState d == 0)
  let s := s.forAll (ds.flatMap (fun d => (List.range 816).map (fun k => d * 816 + k))) (fun s b =>
    if s.bankPwr b == 1 then s.bankWake b else s)
  let s := s.forAll s.power.p2owners (fun s e =>
    if s.dieState (bankDie e.1) != 0 then s
    else s.setOwner e.1 (e.2 % 8) (if e.2 / 8 = 0 then none else some (e.2 / 8 - 65)))
  { s with power := { s.power with p2owners := [], wakeBanks := none } }

/-- The module stands in a power state. -/
def State.arrive (s : State) (p : Nat) : State :=
  let s := (s.setPstate p).setFld 0 HUB_STATUS_TRANSITION 0
  let s := if p = 1 && s.atWork then { s with power := { s.power with waking := true } } else s
  if p = 0 then s.showJobs else s

/-- The SET_POWER_STATE of pair j has reached its target. -/
def State.stateReached (s : State) (j : Nat) : State :=
  match s.waitsFor j 0x0004 with
  | none => s
  | some c => (s.arrive (c.opnd 32 1)).postCmd j c.seq

/-- Stage n of start-up begins (R477). -/
def State.beginStage (s : State) (n : Nat) : State :=
  (s.setFld 0 HUB_BRINGUP_CURRENT n).setFld 0 ⟨0x10, 0, 4 * n - 1, 4 * n - 4⟩ 1

/-- Begin a power-state change that has been decided, for a SET_POWER_STATE of pair j (R486 to R490). -/
def State.beginState (s : State) (j dest : Nat) : State :=
  let now := s.pstate
  let s := s.setFld 0 HUB_STATUS_TRANSITION 1
  if 2 ≤ dest then
    let s := if dest = 2 then (s.forAll allDies (fun s d => s.setFld 0 PWR_DIE_LEVEL p1Share d)).showLevels else s
    s.addRamp none dest (.pstate j)
  else if now = 2 then s.addRamp none 1 (.pstate j)
  else if now = 3 then
    { s with power := { s.power with leaving := some (.pstate j), main := true } }.beginStage 2
  else s.stateReached j

/-- IDLE_TO_P1 (R486): no work for PWR_CTRL.IDLE_US; never while D2 is active (R531). -/
def execIdleToP1 (s : State) : Host.Outcome State Fault Refusal :=
  .next (if s.pstate != 0 || !s.ready || s.d2 || s.atWork || s.power.waking || s.sec.d2wait.isSome
      || s.ts < s.restTs 4 + 1000 * max 10 (s.fld 0 PWR_CTRL_IDLE_US) then s else s.setPstate 1)

/-- The banks are awake after a wake ramp: what the waking serves goes on. -/
def State.woken (s : State) : State :=
  match s.power.wakeBanks with
  | none => s
  | some f =>
    let s := s.leaveP2
    match f with
    | .pstate j => s.stateReached j
    | .flr => s.arrive 1
    | _ => ({ s with power := { s.power with waking := false } }).arrive 0

/-- POWER_WAKE: work that waits brings the module from P1 to P0 at once; from P2 by a ramp to the P1 figures, then the
waking of the banks, then the owners (R490). -/
def execPowerWake (s : State) : Host.Outcome State Fault Refusal :=
  .next (
    if s.power.wakeBanks.isSome then s.woken
    else if !s.power.waking then s
    else if s.pstate == 1 then ({ s with power := { s.power with waking := false } }).arrive 0
    else if s.pstate == 2 && !s.power.ramps.any (fun r => r.die.isNone) then
      (s.setFld 0 HUB_STATUS_TRANSITION 1).addRamp none 1 .wake
    else if s.pstate == 0 then { s with power := { s.power with waking := false } }
    else s)

/-! ## Ramps complete (R494) -/

/-- The next ramp of the queue begins: a raise counts the µs that it waited. -/
def State.rampBegins (s : State) : State :=
  match s.power.ramps with
  | [] => s.setFld 0 PWR_STAT_RAMPING 0
  | r :: _ => match r.die with
    | some d => if s.drawW d < s.effW d then s.bump 0 PWR_CNT_RAMP_WAIT_US_V ((s.ts - r.since) / 1000) else s
    | none => s

/-- What a completed ramp serves goes on. -/
def State.rampServes (s : State) (r : Ramp) : State :=
  match r.serves with
  | .pwr d j => s.pwrDone d j
  | .cap j => match s.waitsFor j 0x0003 with
    | some c => s.finish j c.seq
    | none => s
  | .pstate j =>
    if r.state = 2 then s.enterP2.stateReached j
    else if r.state = 3 then (s.enterP3.stateReached j).showInput 3
    else { s with power := { s.power with wakeBanks := some (.pstate j) } }
  | .wake => { s with power := { s.power with wakeBanks := some .wake } }
  | .flr => { s with power := { s.power with wakeBanks := some .flr } }
  | .off => s.toP4.showInput 4
  | .none => s

/-- RAMP_COMPLETE: the ramp in progress reaches its end; the next one begins. -/
def execRampComplete (s : State) : Host.Outcome State Fault Refusal :=
  .next (match s.power.ramps with
    | [] => s
    | r :: rest =>
      let s := { s with power := { s.power with ramps := rest } }
      let s := match r.die with
        | some d =>
          let s := if s.drawW d < s.effW d then s.bump 0 PWR_CNT_GRANTS_V else s
          ((s.setFld 0 PWR_DIE_DRAW (s.effW d) d).showLevels).trace 5 d 96 0
        | none => (s.forAll allDies (fun s d => s.setFld 0 PWR_DIE_DRAW (s.figure d r.state) d)).showLevels
      let s := s.showInput (if s.pstate = 3 then 3 else if r.state = 4 then 2 else min r.state 2)
      (s.rampServes r).rampBegins)

/-! ## Ballast and issue gaps (R493, R495) -/

/-- PWR_STAT.GAPS and its alert follow the gaps of dies and cores. -/
def State.showGaps (s : State) : State :=
  let was := s.bit 0 PWR_STAT_GAPS
  let now := s.dies.any (fun e => e.2.gaps) || s.cores.any (fun e => e.2.gap)
  (s.setFld 0 PWR_STAT_GAPS (b2n now)).alertOn 2 was now

/-- A die whose work would draw more than E_d has its frequencies lowered by one step, or gaps inserted at 1,200 MHz; work
that fits gives one step back (R495). -/
def State.fitWork (s : State) (d w : Nat) : State :=
  let s := s.modDie d (fun x => { x with work := w })
  let ps := s.coresIn d
  if s.effW d < w then
    if ps.all (fun p => decide (s.freqNow d p ≤ 1200)) then s.modDie d (fun x => { x with gaps := true })
    else s.forAll ps (fun s p => s.modIsland d p (fun x => { x with powerCap := some (max 1200 (s.freqNow d p - 25)) }))
  else if (s.die d).gaps then s.modDie d (fun x => { x with gaps := false })
  else if w < s.effW d then
    s.forAll ps (fun s p => match (s.core d p).powerCap with
      | none => s
      | some f => s.modIsland d p (fun x => { x with
          powerCap := if s.fMax d p ≤ f + 25 then none else some (f + 25) }))
  else s

/-- BALLAST_ADJUST: the loop of R493 runs, every 10 µs, on what each die's work would draw. -/
def execBallastAdjust (work : List Nat) (s : State) : Host.Outcome State Fault Refusal :=
  .next (
    if !s.power.main || 2 ≤ s.pstate then s else
    let ds := allDies.filter s.ramps
    let s := (s.forAll ds (fun s d => s.fitWork d (work.getD d 0))).showGaps
    let fill := ds.foldl (fun n d => n + (s.drawW d - work.getD d 0)) 0
    let e := s.power.ballastRem + fill
    let s := { s with power := { s.power with ballastRem := e % 100 } }
    let s := (s.bump 0 PWR_CNT_BALLAST_MJ_V (e / 100)).setFld 0 PWR_STAT_BALLAST (b2n (fill != 0))
    if s.bit 0 PWR_STAT_GAPS then s.bump 0 PWR_CNT_GAP_US_V 10 else s)

/-! ## Thermal limits (R498 to R502) -/

/-- Is some island thermally limited? The alert and the status follow. -/
def State.showThrottle (s : State) : State :=
  let was := s.bit 0 PWR_STAT_THROTTLE
  let now := s.cores.any (fun e => e.2.thermal.isSome)
  (s.setFld 0 PWR_STAT_THROTTLE (b2n now)).alertOn 0 was now

/-- An island's limit falls by 25 MHz, not below 1,200 MHz. -/
def State.throttle (s : State) (d p : Nat) : State :=
  s.modIsland d p (fun x => { x with thermal := some (max 1200 (limitBy (s.freqNow d p) x.thermal - 25)) })

/-- One reading acts on its island, or a fabric sensor's on every island of its die. -/
def State.reading (s : State) (r : Reading) : State :=
  if 3 < r.die then s
  else if r.core < 100 then
    let s := if 100 ≤ r.degC then (s.throttle r.die r.core).modCore r.die r.core (fun x => { x with cool := false })
      else if r.degC < 97 then s.modCore r.die r.core (fun x => { x with cool := true }) else s
    let hot := decide (105 ≤ r.degC) && decide (s.freqNow r.die r.core ≤ 1200)
    if hot then (s.modCore r.die r.core (fun x => { x with gap := true })).alertOn 4 (s.core r.die r.core).gap true
    else if r.degC < 105 then s.modCore r.die r.core (fun x => { x with gap := false })
    else s
  else if 100 ≤ r.degC then
    (s.forAll (s.coresIn r.die) (fun s p => s.throttle r.die p)).modDie r.die (fun x => { x with cool := false })
  else if r.degC < 97 then s.modDie r.die (fun x => { x with cool := true })
  else s

/-- THERMAL_READ: every sensor is read (every 100 µs). -/
def execThermalRead (rs : List Reading) (coolIn coolOut : Nat) (s : State) : Host.Outcome State Fault Refusal :=
  .next (
    if !s.power.aux then s else
    let s := (s.setFld 0 PWR_TEMP_COOL_IN_C coolIn).setFld 0 PWR_TEMP_COOL_OUT_C coolOut
    let s := match minBy (fun (r : Reading) => 1000 - r.degC) rs with
      | none => s
      | some h => ((s.setFld 0 PWR_TEMP_HOTTEST_C h.degC).setFld 0 PWR_TEMP_HOT_DIE h.die).setFld 0 PWR_TEMP_HOT_CORE h.core
    let s := if rs.any (fun r => decide (95 ≤ r.degC)) then s.pwrAlert 5 else s
    let s := if s.power.main then s.forAll rs State.reading else s
    let s := s.showThrottle.showGaps
    if s.bit 0 PWR_STAT_THROTTLE then s.bump 0 PWR_CNT_THROTTLE_US_V 100 else s)

/-- THROTTLE_RELEASE_STEP: a millisecond after its reading fell below 97 °C, or after the last step, an island's limit rises
by 25 MHz until it no longer constrains (R499). -/
def execThrottleReleaseStep (d : Die) (p : Phys) (s : State) : Host.Outcome State Fault Refusal :=
  .next (match (s.core d p).thermal with
    | none => s
    | some f =>
      if !(s.core d p).cool || !(s.die d).cool then s else
      let top := if s.bit 0 PWR_CTRL_BOOST then s.fMax d p else min 1750 (s.fMax d p)
      (s.modIsland d p (fun x => { x with thermal := if top ≤ f + 25 then none else some (f + 25) })).showThrottle)

/-- THERMAL_TRIP: a sensor at 115 °C or more; the auxiliary domain removes power (R501, R551). -/
def execThermalTrip (r : Reading) (s : State) : Host.Outcome State Fault Refusal :=
  .next (
    if r.degC < 115 || !s.power.aux || s.power.tripped then s else
    let busy := s.fld 0 CLR_FLIGHT_MIB != 0
    let s := s.toP4.showInput 4
    { s with
      pins := { s.pins with thermtrip := true },
      power := { s.power with tripped := true },
      nvm := { s.nvm with trip := true },
      cellar := { s.cellar with holdup := s.cellar.holdup || busy } })

end Sys2Proof.Machine
end

