-- ==== Sys2Proof/Machine/Ring.lean ====
section
/-!
DEFINITION. Couch links, hub-to-die links and reduction (R334 to R359, R409, R430): RED, chunks, credits and timeouts, the
check of a silent peer, flits, handshakes and retraining.
-/
namespace Sys2Proof.Machine

/-! ## RED -/

/-- Compress every chunk of a member's own contribution (R354, R356): the error memory is rescaled to the step's LS, read as
zero where the bucket was never compressed, and written afresh; the chunks are held for sending. -/
def State.compressOwn (s : State) (c : Ctx) (bucket : Nat) : State :=
  match c.run.red c.pd bucket with
  | none => s
  | some r =>
    let src := s.bufPlace c (leAt r.raw 12 2)
    let err := s.bufPlace c (leAt r.raw 16 2)
    let ls := c.run.ls.getD 0 0
    let key := c.die * 65536 + bucket
    let old := Tab.find (s.job c.lead).compress key
    let k : Int := match old with
      | some e => ls - (Int.ofNat e - 2147483648)
      | none => 0
    let s := s.forAll (List.range r.chunks) (fun s ch =>
      let sm := s.tierMem src.tier
      let em := s.tierMem err.tier
      let sa := src.key + 8192 * ch
      let ea := err.key + 8192 * ch
      let n := min 2048 (r.len - ch * 2048)
      let ys := (List.range n).map (fun i =>
        let e := if old.isNone then 0 else f32.enc ((f32.dec (em.readN (ea + 4 * i) 4)).scale k)
        f32.add (sm.readN (sa + 4 * i) 4) e)
      let pois := sm.anyPoison sa 8192 || (old.isSome && em.anyPoison ea 8192)
      let (mu, bits, es, special) := compressChunk ys n
      let s := s.update 2 (some c.lead) { err with addr := err.addr + 8192 * ch, len := 8192 } (fun m =>
        m.writeP ea (es.flatMap (fun e => bytesLE 4 e)) pois)
      let w := chunkHead 0 (2 + b2n special + 8 * b2n pois) ch bucket c.lead (c.pd % 4) mu ++ zeros 4 ++ signBytes bits
      match s.ringCtx c.lead c.pd with
      | some c => s.holdStage c c.pd bucket c.pd ch w
      | none => s)
    s.modJob c.lead (fun j => { j with compress := Tab.put j.compress key (ls + 2147483648).toNat })

/-- With one member a RED uses no link (R570): an uncompressed one copies SRC to DST. -/
def State.redAlone (s : State) (c : Ctx) (bucket : Nat) : State :=
  match c.run.red c.pd bucket with
  | none => s
  | some r => s.forAll (List.range r.chunks) (fun s k =>
      let v := s.localRec c r k
      (s.putRec c r k v).modRed c.lead c.pd bucket (fun r => { r with acc := Tab.put r.acc k (true, v) }))

/-- RED: the bucket goes to the die's ring unit, which grants its previous member credits (R344 to R347). -/
def execRed (j : Slot) (d : Die) (s : State) : Host.Outcome State Fault Refusal :=
  .next (s.issue j d 96 (fun i => iOp i == 0x04) (fun _ _ _ => true) (fun s c pos i =>
    let bucket := leAt i 18 2
    let s := s.launch c 96 pos bucket i
    let s := s.modRun j (fun r => { r with reds := r.reds ++ [{ die := c.pd, idx := pos, bucket := bucket, raw := i, since := s.ts }] })
    let a := dieAt d
    let s := ((s.setFld a RING_STAT_JOB j).setFld a RING_STAT_JOB_VALID 1).setFld a RING_STAT_SET (maskOf c.run.map)
    let s := s.showRing d
    match s.ctx j d 96 with
    | none => s
    | some c =>
      let n := c.run.n
      let s := if leAt i 26 1 % 2 = 1 then s.compressOwn c bucket else if n = 1 then s.redAlone c bucket else s
      -- a member that waits on a part which has failed waits for nothing (R427)
      let dead := fun pd => bitN c.run.failed (c.run.map.getD pd 4)
      if dead ((c.pd + n - 1) % n) then s.endWait j c.pd bucket ((c.pd + n - 1) % n)
      else if dead ((c.pd + 1) % n) then s.endWait j c.pd bucket ((c.pd + 1) % n)
      else s.pump j c.pd))

/-- Limit of a ring wait in ns (Table 9-6). -/
def State.ringLimit (s : State) (d : Nat) : Nat := max 1000 (min 1000000 (s.fld (dieAt d) RING_CTRL_TIMEOUT_US)) * 1000

/-- An arrival that meets its evaluation edge is counted late (R358); the wait starts anew. -/
def State.ringArrive (s : State) (c : Ctx) (r : RedSt) : State :=
  let arrive := s.ts + 2 + s.free.toNat % 2
  let s := s.drawn
  let s := if r.since + s.ringLimit c.die ≤ arrive then s.bump (dieAt c.die) RING_CNT_LATE_V else s
  s.modRed c.lead c.pd r.bucket (fun x => { x with since := s.ts })

/-- Are the links of a path up? A link that retrains holds its flits (R335). -/
def State.pathUp (s : State) (a b : Nat) : Bool :=
  match s.path a b (shortCw a b) with
  | some h => h.all (fun x => s.linkUp x.2.2)
  | none => false

/-- RING_CREDIT_GRANT: the credits that the next member granted when its RED issued reach die d, for the earliest bucket that
still lacks them (R346). -/
def execRingCreditGrant (j : Slot) (d : Die) (s : State) : Host.Outcome State Fault Refusal :=
  .next (match s.ctx j d 96 with
    | none => s
    | some c =>
      let n := c.run.n
      let next := (c.pd + 1) % n
      match c.run.reds.find? (fun r => r.die == c.pd && !r.credit && !r.timedOut
          && (c.run.red next r.bucket).isSome) with
      | none => s
      | some r =>
        if n = 1 || !s.pathUp (c.run.map.getD next 0) d then s else
        let s := if r.recvd < (r.recvs n).length then s else s.ringArrive c r
        (s.modRed j c.pd r.bucket (fun x => { x with credit := true })).pump j c.pd)

/-- The chunk at a hop is accepted: added, gathered or held, acknowledged to its sender (R349 to R355). -/
def State.acceptChunk (s : State) (c : Ctx) (r : RedSt) (h : Hop) (w : List Byte) : State :=
  let n := c.run.n
  let prev := (c.pd + n - 1) % n
  let a := dieAt c.die
  let s := ((s.bump a RING_CNT_CHUNKS_RX_V).trace 4 c.die 96 c.lead).modRun c.lead (fun x =>
    { x with rx := Tab.put x.rx c.pd (Tab.getD x.rx c.pd [] ++ [w]) })
  let s := if bitN (wireFlags w) 3 then s.ringErr c.die RING_ERR_POISON prev c.lead r.bucket h.chunk else s
  let s := s.modRed c.lead prev r.bucket (fun x => { x with acked := x.acked + 1 })
  let s := s.modRed c.lead c.pd r.bucket (fun x => { x with recvd := x.recvd + 1, resends := 0 })
  let v : ChunkRec := ⟨leAt w 0 1, wireFlags w, wireElems w⟩
  if r.comp then s.holdStage c c.pd r.bucket h.origin h.chunk w
  else if h.gather then
    (s.putRec c r h.chunk v).modRed c.lead c.pd r.bucket (fun x => { x with acc := Tab.put x.acc h.chunk (true, v) })
  else
    let out := ringAdd v (s.localRec c r h.chunk)
    let s := s.bump a RING_CNT_ADDS_V
    let s := if v.x < out.x then s.bumpSat a RING_STAT_SCALE_BUMPS else s
    let final := h.step + 2 == n
    let s := if final then s.putRec c r h.chunk out else s
    s.modRed c.lead c.pd r.bucket (fun x => { x with acc := Tab.put x.acc h.chunk (final, out) })

/-- RING_CHUNK_RECEIVE: the oldest chunk on its way to die d arrives. One that fails its check is resent, three times at
most; then it is accepted with POISON and its payload as received, which is open where it was damaged (R342). -/
def execRingChunkReceive (j : Slot) (d : Die) (bad : Bool) (s : State) : Host.Outcome State Fault Refusal :=
  .next (match s.ctx j d 96 with
    | none => s
    | some c =>
      match c.run.chunks.find? (fun x => x.dest == c.pd) with
      | none => s
      | some ch =>
        let n := c.run.n
        let prev := (c.pd + n - 1) % n
        let from_ := c.run.map.getD prev 0
        if !s.pathUp from_ d then s else
        let drop := fun (s : State) => s.modRun j (fun x => { x with chunks := x.chunks.erase ch })
        match c.run.red c.pd ch.bucket with
        | none => drop s
        | some r =>
          if r.timedOut then
            ((drop s).modRed j prev ch.bucket (fun x => { x with acked := x.acked + 1 })).pumpDie from_ else
          match (r.recvs n)[r.recvd]? with
          | none => drop s
          | some h =>
            let fails := wireBad bad r.comp j ch.bucket h ch.wire
            if fails && decide (r.resends < 3) then
              let s := s.modRed j c.pd ch.bucket (fun x => { x with resends := x.resends + 1 })
              let s := s.bump (dieAt from_) RING_CNT_RESEND_V
              match s.path from_ d (shortCw from_ d) with
              | some p => s.countPath p ch.wire.length
              | none => s
            else
              let s := (drop s).ringArrive c r
              let (s, w) := if fails then
                  let s := s.ringErr c.die RING_ERR_CHECK prev j ch.bucket h.chunk
                  let w := wirePoison ch.wire
                  if bad then (s.drawnN (w.length - 16), w.take 16 ++ freeBytes s.fresh (w.length - 16)) else (s, w)
                else (s, ch.wire)
              ((s.acceptChunk c r h w).pump j c.pd).pumpDie from_)

/-- RED_COMPLETE: the oldest RED of die d whose records are all written and whose chunks are all acknowledged completes
(R346). -/
def execRedComplete (j : Slot) (d : Die) (s : State) : Host.Outcome State Fault Refusal :=
  .next (match s.ctx j d 96 with
    | none => s
    | some c =>
      let n := c.run.n
      let excess := fun (r : RedSt) => r.die == c.pd && decide ((r.recvs n).length ≤ r.recvd)
        && decide ((r.sends n).length ≤ r.acked)
        && (List.range r.chunks).all (fun k => match Tab.find r.acc k with
          | some (final, _) => final
          | none => false)
      match c.run.reds.find? excess with
      | none => s
      | some r =>
        let s := s.modRun j (fun x => { x with reds := x.reds.filter (fun y => !(y.die == c.pd && y.bucket == r.bucket)) })
        let s := s.bump (dieAt d) RING_CNT_BUCKETS_V
        (s.showRing d).retire j d 96 r.idx)

/-- RING_TIMEOUT of a bucket on die d (R358, R359), once its wait has lasted RING_CTRL.TIMEOUT_US; nothing while the job is
evicted, when no bucket is in flight (R347). -/
def execRingTimeout (j : Slot) (d : Die) (bucket : Nat) (s : State) : Host.Outcome State Fault Refusal :=
  .next (match s.ctx j d 96 with
    | none => s
    | some c =>
      if c.run.spilled then s else
      match c.run.red c.pd bucket with
      | none => s
      | some r =>
        match r.peer c.run.n with
        | none => s
        | some p => if s.ts < r.since + s.ringLimit d then s else s.endWait j c.pd bucket p)

/-- Has a ring wait of job j's run on die d timed out (R359)? -/
def State.silentPeer (s : State) (j d : Nat) : Bool :=
  (s.job j).run.any (fun r => r.map.contains d && r.outcomes.any (fun o => o.2 == 0x2043))

/-- PEER_CHECK (R430), after a ring timeout: a silent peer d whose links fail leaves service with cause HUB_LINK; one whose
heartbeats fail, with cause DIE_FAULT (log entry 20). -/
def execPeerCheck (j : Slot) (d : Die) (beats links : Bool) (s : State) : Host.Outcome State Fault Refusal :=
  .next (
    if !s.silentPeer j d then s
    else if !links then
      (s.modDie d (fun x => { x with cut := true })).leaveService d 3 1
    else if !beats then s.leaveService d 2 2
    else s)

/-! ## Links (R334, R335, R339, R409) -/

/-- Key of a direction of a link. -/
def linkKey (k : LinkEnd) : Nat := k.link.val * 2 + k.dir.val
/-- Die and port that send in a direction of a couch link. -/
def linkSender (k : LinkEnd) : Nat × Nat := if k.dir.val = 0 then (k.link.val, 0) else ((k.link.val + 1) % 4, 1)
/-- State of a direction of a link. -/
def State.linkSt (s : State) (n : Nat) : LinkSt := Tab.getD s.links n {}
/-- Has the link gone down, its flits held? -/
def State.linkDown (s : State) (l : Nat) : Bool := (s.linkSt (l * 2)).held != 0
/-- Does a link carry traffic: trained and up, or for a hub-to-die link not down and its die not cut off? -/
def State.linkRuns (s : State) (l : Nat) : Bool :=
  s.power.main && !s.linkDown l && (if l < 4 then s.linkUp l else !(s.die (l - 4)).cut)

/-- A link goes down: both ends hold their flits and retrain (R335). -/
def State.linkGoDown (s : State) (l : Nat) : State :=
  let s := { s with links := Tab.put s.links (l * 2) { held := 1 } }
  if l < 4 then (s.setLink l RING_LINK_STAT_UP 0).setLink l RING_LINK_STAT_DOWN_SEEN 1 else s

/-- One replay; the seventeenth of a flit takes the link down. -/
def State.replay (s : State) (k : LinkEnd) : State :=
  let x := s.linkSt (linkKey k)
  if x.replays < 16 then
    let s := { s with links := Tab.put s.links (linkKey k) { x with replays := x.replays + 1 } }
    if k.link.val < 4 then s.bump (dieAt (linkSender k).1) RING_LINK_CNT_REPLAY_V 1 (linkSender k).2 else s
  else s.linkGoDown k.link.val

/-- A link that fails to retrain: a couch link is out of service until PERST# or a cold power cycle (R335, R336); a
hub-to-die link takes its die out of service (R409). -/
def State.linkFails (s : State) (l : Nat) : State :=
  let s := { s with links := (Tab.erase s.links (l * 2)).filter (fun e => e.1 != l * 2 + 1) }
  if l < 4 then
    let s := (s.setLink l RING_LINK_STAT_UP 0).setLink l RING_LINK_STAT_OUT_OF_SERVICE 1
    s.showDegraded.shrinkSets 4
  else
    (s.modDie (l - 4) (fun x => { x with cut := true })).leaveService (l - 4) 3 1

/-- LINK_FLIT_RECEIVE: a flit that passes its CRC is delivered; one that fails is replayed. -/
def execLinkFlitReceive (k : LinkEnd) (crcOk : Bool) (s : State) : Host.Outcome State Fault Refusal :=
  .next (
    if !s.linkRuns k.link.val then s
    else if crcOk then { s with links := Tab.setD s.links (linkKey k) {} {} }
    else s.replay k)

/-- LINK_HANDSHAKE_TIMEOUT: an arrival present at the evaluation edge wins and is counted; else the sender replays. -/
def execLinkHandshakeTimeout (k : LinkEnd) (arrived : Bool) (s : State) : Host.Outcome State Fault Refusal :=
  .next (
    if !s.linkRuns k.link.val then s
    else if !arrived then s.replay k
    else if k.link.val < 4 then s.bump (dieAt (linkSender k).1) RING_LINK_CNT_LATE_V 1 (linkSender k).2
    else s.bump 0 HUB_FLT_CNT_LATE_V)

/-- LINK_RETRAIN of a link that went down. -/
def execLinkRetrain (k : LinkNo) (ok : Bool) (s : State) : Host.Outcome State Fault Refusal :=
  .next (
    if !s.linkDown k then s
    else if ok then
      let s := { s with links := (Tab.erase s.links (k.val * 2)).filter (fun e => e.1 != k.val * 2 + 1) }
      if k.val < 4 then (s.setLink k RING_LINK_STAT_UP 1).setLink k RING_LINK_STAT_TRAINED 1 else s
    else s.linkFails k)

end Sys2Proof.Machine
end

