-- ==== Sys2Proof/Machine/Ageing.lean ====
section
/-!
DEFINITION. Ageing (R503 to R508): the monitors, operating plans, the ledger, the wear grade and READ_AGEING.
-/
namespace Sys2Proof.Machine

/-! ## Operating points from the ledger -/

/-- What the ledger's newest record gives for an island: F_MAX, V(1.75 GHz), slack; a new island meets 1.75 GHz at 0.72 V
(R504), its F_MAX open. -/
def State.islandLedger (s : State) (d p : Nat) : Nat × Nat × Nat :=
  match (s.nvm.ledger.getLast?).bind (fun r => Tab.find r.islands (islOf d p)) with
  | some x => x
  | none => (1750 + 25 * (Config.newFmax (islOf d p) % 7), 720, 0)

/-- Show the frequency and voltage of an island, whether or not the frequency changed. -/
def State.putIsland (s : State) (d p : Nat) : State :=
  let f := s.freqNow d p
  let (s, v) := s.voltAt d p f
  (s.setFld 0 AGE_ISL_F_NOW f (islOf d p)).setFld 0 AGE_ISL_V_NOW v (islOf d p)

/-- Load the ageing registers of a die's islands from the ledger (R482, R510). -/
def State.loadIslands (s : State) (d : Nat) : State :=
  s.forAll (List.range 100) (fun s p =>
    let x := s.islandLedger d p
    let i := islOf d p
    ((s.setFld 0 AGE_ISL_F_MAX x.1 i).setFld 0 AGE_ISL_V175 x.2.1 i).setFld 0 AGE_ISL_SLACK x.2.2 i)

/-- Cores in service on dies in service: (die, physical core). -/
def State.islandsIn (s : State) : List (Nat × Nat) :=
  (allDies.filter (fun d => s.dieState d == 0)).flatMap (fun d => (s.coresIn d).map (fun p => (d, p)))

/-- RF as the FP32 nearest to the quotient, and the wear grade (R508). -/
def State.wear (s : State) : Nat × Nat :=
  let is := s.islandsIn
  let fs := is.map (fun x => s.fMax x.1 x.2)
  let num := fs.foldl (fun n f => n + min f 1750) 0
  let den := 1750 * is.length
  let at750 := fun (lim : Nat) => is.all (fun x =>
    let v := s.fld 0 AGE_ISL_V175 (islOf x.1 x.2)
    decide (1750 ≤ s.fMax x.1 x.2) && v != 0 && decide (v ≤ lim))
  (f32.div (f32.ofInt (Int.ofNat num)) (f32.ofInt (Int.ofNat den)), if at750 750 then 0 else if at750 800 then 1 else if 9 * den ≤ 10 * num then 2 else 3)

/-- Show RF and the grade; a change of grade sets its alert. -/
def State.showGrade (s : State) : State :=
  if s.islandsIn.isEmpty then s else
  let (rf, g) := s.wear
  let old := s.fld 0 AGE_STAT_GRADE
  let s := ((s.setFld 0 AGE_STAT_RF rf).setFld 0 AGE_STAT_GRADE g).setFld 0 HUB_STATUS_GRADE g
  if g = old then s else s.pwrAlert 3

/-- The ageing registers after PERST# or a cold power cycle (R510): loaded from the ledger. The grade is that of the newest
record, so its return is no change of grade. -/
def State.loadAgeing (s : State) : State :=
  let s := s.forAll allDies State.loadIslands
  match s.nvm.ledger.getLast? with
  | none => s
  | some r => ((s.setFld 0 AGE_POWERED_S_V r.powered).setFld 0 AGE_STAT_GRADE r.grade).setFld 0 HUB_STATUS_GRADE r.grade

/-! ## Monitors (R503, R505, R506) -/

/-- AGEING_SAMPLE: the ring oscillators of an island, every millisecond. -/
def execAgeingSample (d : Die) (p : Phys) (dev : Nat) (s : State) : Host.Outcome State Fault Refusal :=
  .next (if !s.power.main || s.pstate == 3 then s
    else { s with power := { s.power with osc := Tab.put s.power.osc (islOf d p) dev } })

/-- SLACK_MEASURE: slack below 4 % asks for a re-plan; below 2 % the frequency drops by 50 MHz at once as well. -/
def execSlackMeasure (d : Die) (p : Phys) (slack : Nat) (s : State) : Host.Outcome State Fault Refusal :=
  .next (
    if !s.power.main || 2 ≤ s.pstate then s else
    let s := s.setFld 0 AGE_ISL_SLACK (min slack 255) (islOf d p)
    let s := if slack < 40 then s.setFld 0 AGE_STAT_REPLANNING 1 else s
    if slack < 20 then
      let f := s.freqNow d p
      (s.bump 0 AGE_CNT_FAST_DROP_V).modIsland d p (fun x => { x with slackCap := some (max 1200 (f - 50)) })
    else s)

/-- SRAM_VMIN_MEASURE: mode 3 of the march engine, on a bank whose OWNER is 0; its contents are kept. -/
def execSramVminMeasure (b : BankNo) (op ret : Nat) (s : State) : Host.Outcome State Fault Refusal :=
  .next (
    if !s.power.main || 2 ≤ s.pstate || s.fld (bankAt b) BANK_OWN_OWNER != 0 || !(s.die (bankDie b)).marches.isEmpty then s
    else { s with nvm := { s.nvm with vmin := Tab.put s.nvm.vmin b.val (op % 256, ret % 256) } })

/-- An attic port goes down and stays out of service until PERST# or a cold power cycle (R287). -/
def State.portFails (s : State) (x : Nat) : State :=
  ({ s with power := { s.power with atticOut := orBit s.power.atticOut x } }).portDrops x

/-- EYE_CHECK of eye q (Table 13-8): one that stays below its minimum after a retraining takes its unit out of service. -/
def execEyeCheck (q width height minWidth : Nat) (retrainOk : Bool) (s : State) : Host.Outcome State Fault Refusal :=
  .next (
    if !s.power.main || 50 < q then s else
    let s := { s with nvm := { s.nvm with eyes := Tab.put s.nvm.eyes q (width % 65536, height % 65536, minWidth % 65536) } }
    if minWidth ≤ width || retrainOk then s
    else if q < 32 then (if s.bit 0 LDR_DEV_STAT_TRAINED q then s.deviceFails q else s)
    else if q < 40 then
      let n := if q % 2 = 0 then (q - 32) / 2 else ((q - 32) / 2 + 3) % 4
      if s.linkOk n then s.linkFails n else s
    else if q < 48 then (if (s.die (q % 4)).cut then s else s.linkFails (4 + q % 4))
    else if q = 48 then s
    else if s.bit 0 ATC_STAT_UP (q - 49) then s.portFails (q - 49) else s)

/-! ## Re-plan (R504, R507) -/

/-- The lowest operating minimum that an island's banks allow, in mV (R504). -/
def State.islandFloor (s : State) (d p : Nat) : Nat :=
  (coreBanks d p).foldl (fun n b => max n (match Tab.find s.nvm.vmin b with
    | some v => v.1 * 5 + 50
    | none => 0)) 0

/-- V(f) for each frequency of the plan, 0 where there is none. -/
def planVolts (low : Nat) (pred : List Nat) : List Nat :=
  (List.range 29).map (fun k =>
    let v := alignUp (max (pred.getD k 0) low) 5
    if 800 < v then 0 else v)

/-- The highest frequency that has a V(f); 0 where none has. -/
def planFmax (vs : List Nat) : Nat :=
  (List.range 29).foldl (fun f k => if vs.getD k 0 = 0 then f else 1200 + 25 * k) 0

/-- Take a new operating plan for an island. -/
def State.planIsland (s : State) (x : IslandPrediction) : State :=
  let vs := planVolts (s.islandFloor x.die x.phys) x.volts
  let i := islOf x.die x.phys
  let s := { s with power := { s.power with plans := Tab.put s.power.plans i vs } }
  (s.setFld 0 AGE_ISL_F_MAX (planFmax vs) i).setFld 0 AGE_ISL_V175 (vs.getD 22 0) i

/-- The record that a re-plan appends (R507). -/
def State.ledgerRec (s : State) : LedgerRec :=
  { ts := s.ts, powered := s.fld 0 AGE_POWERED_S_V, grade := s.fld 0 AGE_STAT_GRADE,
    islands := (List.range 400).map (fun i =>
      (i, s.fld 0 AGE_ISL_F_MAX i, s.fld 0 AGE_ISL_V175 i, s.fld 0 AGE_ISL_SLACK i)),
    banks := s.nvm.vmin, eyes := s.nvm.eyes.map (fun e => (e.1, e.2.1, e.2.2.1)) }

/-- AGEING_REPLAN: every AGE_CTRL.PERIOD_H hours, or when a slack asked for it. -/
def execAgeingReplan (pred : List IslandPrediction) (s : State) : Host.Outcome State Fault Refusal :=
  .next (
    if !s.power.main || 2 ≤ s.pstate || s.bit 0 HUB_STATUS_STARTING then s else
    let s := s.forAll (pred.filter (fun x => decide (x.die < 4) && decide (x.phys < 100))) State.planIsland
    let s := s.forAll s.cores (fun s e => s.modCore (e.1 / 100) (e.1 % 100) (fun x => { x with slackCap := none }))
    let s := s.forAll s.islandsIn (fun s x => s.putIsland x.1 x.2)
    let s := ((s.bump 0 AGE_CNT_REPLANS_V).setFld 0 AGE_STAT_REPLANNING 0).showGrade
    let ls := s.nvm.ledger ++ [s.ledgerRec]
    { s with nvm := { s.nvm with ledger := ls.drop (ls.length - 4096) } })

/-! ## READ_AGEING -/

/-- The summary page (Table 13-8). -/
def State.ageingPage (s : State) : List Byte :=
  let head := bytesLE 4 1 ++ bytesLE 1 (s.fld 0 AGE_STAT_GRADE) ++ zeros 3 ++ bytesLE 8 (s.fld 0 AGE_POWERED_S_V)
    ++ bytesLE 8 ((s.nvm.ledger.getLast?.map LedgerRec.ts).getD 0) ++ bytesLE 4 (s.fld 0 AGE_STAT_RF) ++ bytesLE 4 s.nvm.retiredAge
    ++ zeros 32
  let isl := (List.range 400).flatMap (fun i => bytesLE 8 ((s.reg (AGE_ISL_F_MAX.at 0 i)).toNat % 2 ^ 52))
  let eyes := (List.range 64).flatMap (fun q => match Tab.find s.nvm.eyes q with
    | some e => bytesLE 2 e.1 ++ bytesLE 2 e.2.1 ++ bytesLE 2 e.2.2 ++ zeros 10
    | none => zeros 16)
  let eyes := padTo (4352 - 3264) eyes
  let banks := (List.range 3264).flatMap (fun b =>
    let v := Tab.getD s.nvm.vmin b (0, 0)
    bytesLE 1 v.1 ++ bytesLE 1 v.2)
  padTo 16384 (head ++ isl ++ eyes ++ banks)

/-- READ_AGEING (0x6002): the page goes to the bus address of the command. -/
def execReadAgeing (j : Slot) (s : State) : Host.Outcome State Fault Refusal :=
  .next (s.start j (fun c => c.op == 0x6002) (fun s c =>
    ((s.hostWrite (c.opnd 32 8) s.ageingPage).modCmd j c.seq (fun c => { c with parts := 16 })).finish j c.seq))

end Sys2Proof.Machine
end

