-- ==== Sys2Proof/Machine/Copy.lean ====
section
/-!
DEFINITION. COPY and FILL (R382, R289 to R295): checks, engines, attic requests and the move at COPY_COMPLETE.
-/
namespace Sys2Proof.Machine

/-- Source space and address of a COPY. -/
def Cmd.copySrc (c : Cmd) : Nat × Nat := (bitsN (c.opnd 56 1) 1 0, c.opnd 32 8)

/-- The ends of a COPY or FILL, as (space, address). -/
def Cmd.copyEnds (c : Cmd) : List (Nat × Nat) := if c.op = 0x1000 then [c.copySrc, c.copyDst] else [c.copyDst]

/-- Does a range break R382 for a job: alignment, its window, the populated range? -/
def State.copyBad (s : State) (j n : Nat) (e : Nat × Nat) : Bool :=
  e.2 % 64 != 0
    || (e.1 == 1 && ((s.job j).leavesLarder (e.2 / 2 ^ 35) (e.2 % 2 ^ 35) n || !laRange e.2 n))
    || (e.1 == 2 && (s.job j).leavesAttic e.2 n)

/-- The status with which a COPY or FILL is refused at its start. -/
def State.copyCheck (s : State) (j : Nat) (c : Cmd) : Option Nat :=
  let n := c.copyLen
  if c.copyEnds.any (fun e => e.1 == 3) then some 0x1021
  else if n = 0 || n % 64 != 0 || c.copyEnds.any (s.copyBad j n) then some 0x1005
  else none

/-- Dies whose larder a COPY or FILL touches, ascending. -/
def Cmd.copyDies (c : Cmd) : List Nat :=
  allDies.filter (fun d => c.copyEnds.any (fun e => e.1 == 1 && e.2 / 2 ^ 35 == d))

/-- Parts: the dies, and the hub for host and attic ranges. -/
def Cmd.copyParts (c : Cmd) : Nat := maskOf c.copyDies + (if c.copyEnds.any (fun e => e.1 != 1) then 16 else 0)

/-- The pattern of a FILL over `n` bytes. -/
def Cmd.pattern (c : Cmd) (n : Nat) : List Byte := (List.replicate (n / 4) (bytesLE 4 (c.opnd 52 4))).flatten

/-- The engine of a die that serves a job's memory command. -/
def State.copyEngine (s : State) (d j : Nat) : Option Nat :=
  (List.range 8).find? (fun e => s.bit (dieAt d) DIE_DMA_STAT_BUSY e && s.fld (dieAt d) DIE_DMA_STAT_SOURCE e == 1
    && s.fld (dieAt d) DIE_DMA_STAT_JOB e == j)

/-- Attic requests of a COPY or FILL: reads where the source is the attic, else writes of what the source holds now. -/
def State.copyAttic (s : State) (j : Nat) (c : Cmd) : State :=
  let n := c.copyLen
  let (dsp, da) := c.copyDst
  if c.op = 0x1000 && c.copySrc.1 = 2 then
    s.forAll (List.range (n / 64)) (fun s k => s.atticIssue
      { id := 0, port := (c.copySrc.2 + 64 * k) / 2 ^ 41 % 2, write := false, aa := c.copySrc.2 + 64 * k, tier := spaceTier dsp,
        die := da / 2 ^ 35, addr := da + 64 * k, slot := j, cmd := some c.seq })
  else if dsp = 2 then
    let m := s.tierMem (spaceTier c.copySrc.1)
    s.forAll (List.range (n / 64)) (fun s k => s.atticIssue
      { id := 0, port := (da + 64 * k) / 2 ^ 41 % 2, write := true, aa := da + 64 * k,
        data := if c.op = 0x1000 then m.read (c.copySrc.2 + 64 * k) 64 else c.pattern 64,
        poison := c.op == 0x1000 && m.poisoned (c.copySrc.2 + 64 * k), slot := j, cmd := some c.seq })
  else s

/-- The larder range that a COPY reads, as bursts name it. -/
def Cmd.copyReads (c : Cmd) : List (Nat × Nat) := if c.op = 0x1000 ∧ c.copySrc.1 = 1 then [(c.copySrc.2, c.copyLen)] else []
/-- The larder range that a COPY or FILL writes. -/
def Cmd.copyWrites (c : Cmd) : List (Nat × Nat) := if c.copyDst.1 = 1 then [(c.copyDst.2, c.copyLen)] else []
/-- Does the data go to the attic? Then it is read when the command starts. -/
def Cmd.toAttic (c : Cmd) : Bool := c.copyDst.1 == 2

/-- Start a COPY or FILL whose checks have passed: engines, parts already lost, attic requests. -/
def State.copyStart (s : State) (j : Nat) (c : Cmd) (errs : List BurstErr) : State :=
  match s.copyCheck j c with
  | some st => s.refuse j c.seq st
  | none =>
    let s := s.modCmd j c.seq (fun x => { x with want := c.copyParts, parts := c.copyParts })
    let dead := c.copyDies.filter (fun d => !s.inService d)
    let s := s.forAll (c.copyDies.filter s.inService) (fun s d => s.engineOn d ((s.freeEngine d).getD 0) 1 j)
    let s := s.forAll dead (fun s d => match s.cmd j c.seq with
      | some x => s.copyFails j x d
      | none => s)
    if !dead.isEmpty then s else (if c.toAttic then s.bursts c.copyReads [] errs else s).copyAttic j c

/-- The first waiting command of an opcode starts when each die it touches has a free engine; work on a die waits for P0. -/
def State.copyBegin (s : State) (j op : Nat) (errs : List BurstErr) : State :=
  let p := fun (c : Cmd) => c.op == op && c.copyDies.all (fun d => (s.freeEngine d).isSome || !s.inService d)
  match s.waitingCmd j p with
  | none => s
  | some c => 
    if c.copyDies.isEmpty then s.start j p (fun s c => s.copyStart j c errs)
    else s.startOnDie j p (fun s c => s.copyStart j c errs)

/-- COPY (0x1000). -/
def execCopy (j : Slot) (errs : List BurstErr) (s : State) : Host.Outcome State Fault Refusal :=
  .next (s.copyBegin j 0x1000 errs)

/-- FILL (0x1001). -/
def execFill (j : Slot) (s : State) : Host.Outcome State Fault Refusal := .next (s.copyBegin j 0x1001 [])

/-- Move granules of a transfer that touches no attic: granule numbers `gs`, or all of them. -/
def State.copyMove (s : State) (c : Cmd) (gs : Option (List Nat)) : State :=
  let n := c.copyLen
  let (dsp, da) := c.copyDst
  let runs := match gs with
    | none => [(0, n)]
    | some l => l.map (fun g => (64 * g, 64))
  let tier := spaceTier dsp
  let m := s.tierMem tier
  let new := if c.op = 0x1000 then
      let src := s.tierMem (spaceTier c.copySrc.1)
      runs.foldl (fun (m : Mem) r => m.copy src (da + r.1) (c.copySrc.2 + r.1) r.2) m
    else runs.foldl (fun (m : Mem) r => m.writeP (da + r.1) (c.pattern r.2) false) m
  let s := s.setTierMem tier new
  if tier = 2 then s.touchEpoch da n else s

/-- The first poisoned granule of [a, a + n) among those whose number in the range `gs` lists, or among all. -/
def Mem.firstPoison (m : Mem) (a n : Nat) (gs : Option (List Nat)) : Option Nat :=
  (m.poison.filter (fun g => decide (a / 64 ≤ g) && decide (g < (a + n) / 64) && (match gs with
    | some l => l.contains (g - a / 64)
    | none => true))).head?

/-- Poison that a COPY carried: into the larder from the host, or out to the host, which consumes it (R282, R293, R294). -/
def State.copyPoison (s : State) (j : Nat) (c : Cmd) (gs : Option (List Nat)) : State :=
  let n := c.copyLen
  let (dsp, da) := c.copyDst
  if c.op != 0x1000 then s
  else if dsp = 1 && c.copySrc.1 = 0 then
    match s.larder.firstPoison da n gs with
    | some g => s.poisonLog 2 (64 * g)
    | none => s
  else if dsp = 0 then
    match s.host.firstPoison da n gs with
    | none => s
    | some g =>
      let a := c.copySrc.2 + (64 * g - da)
      let s := if c.copySrc.1 = 1 then s.poisonLog 3 a else s
      let die := if c.copySrc.1 = 1 then some (a / 2 ^ 35) else none
      (s.outcome j c.seq 0x2041).event j { type := 0x0A, die := die, seq := some c.seq, a := spaceTier c.copySrc.1, b := a, c := 2 }
  else s

/-- The engines of a memory command are free again, having moved `bytes`. -/
def State.copyFree (s : State) (j : Nat) (c : Cmd) (bytes : Nat) : State :=
  let (_, da) := c.copyDst
  let p := if bytes = 0 then 0 else (s.tierMem (spaceTier c.copyDst.1)).countPoison da c.copyLen
  s.forAll c.copyDies (fun s d => match s.copyEngine d j with
    | some e => s.engineOff d e bytes p
    | none => s)

/-- A stopped transfer finishes the granules in hand: which were written is open (R382, R392). -/
def State.copyStop (s : State) (j : Nat) (c : Cmd) : State :=
  let atticEnd := c.copyEnds.any (fun e => e.1 == 2)
  let s := { s with attics := s.attics.filter (fun q => !(q.slot == j && q.cmd == some c.seq)) }
  let lost := c.want &&& c.asked
  let gs := (Config.openPoison s.fresh).filter (fun g => decide (64 * g < c.copyLen))
  let s := s.drawn
  let s := if atticEnd || lost != 0 then s else s.copyMove c (some gs)
  (s.copyFree j c (64 * gs.length)).copyPoison j c (if atticEnd then none else some gs)

/-- COPY_COMPLETE: the transfer has written its last granule, every attic request answered; or its stop has finished. `errs`
are the errors that its larder bursts met. -/
def execCopyComplete (j : Slot) (seq : Nat) (errs : List BurstErr) (s : State) : Host.Outcome State Fault Refusal :=
  .next (match (s.qp j).cmds.find? (fun c => c.seq == seq && c.started && !c.done && (c.op == 0x1000 || c.op == 0x1001)) with
    | none => s
    | some c =>
      let s := if c.stopped then s else s.bursts (if c.toAttic then [] else c.copyReads) c.copyWrites errs
      let c := (s.cmd j seq).getD c
      if c.stopped then (s.copyStop j c).finish j seq
      else if s.attics.any (fun q => q.slot == j.val && q.cmd == some seq) then s
      else if c.want &&& c.asked != 0 then (s.copyFree j c 0).finish j seq
      else
        let sd := c.copySrc.2 / 2 ^ 35
        let dd := c.copyDst.2 / 2 ^ 35
        let ring := c.op == 0x1000 && c.copySrc.1 == 1 && c.copyDst.1 == 1 && sd != dd
        match if ring then s.path sd dd (shortCw sd dd) else some [] with
        | none => ((s.copyFails j c dd).copyFree j c 0).finish j seq
        | some way =>
          if !way.all (fun x => s.linkUp x.2.2) then s else
          let s := s.countPath way c.copyLen
          let s := if c.copyEnds.any (fun e => e.1 == 2) then s else s.copyMove c none
          ((s.copyFree j c c.copyLen).copyPoison j c none).finish j seq)

end Sys2Proof.Machine
end

