-- ==== Sys2Proof/Machine/Startup.lean ====
section
/-!
DEFINITION. Power entry, start-up and FLR (R471 to R485, R489, R515 to R517, R550 to R555).
-/
namespace Sys2Proof.Machine

/-! ## Levels of PERST# and PWRGD (R550) -/

/-- Does the filter take a level that lasts `ns`? An ignored level counts; from 1 µs to 10 µs the answer is open. The filter
works only while the auxiliary domain is powered. -/
def State.filter (s : State) (ns : Nat) : State × Bool :=
  let ignored := if s.power.aux then s.bump 0 HUB_SB_CNT_GLITCH_V else s
  if ns < 1000 then (ignored, false)
  else if 10000 ≤ ns then (s, true)
  else if bitN s.free.toNat 0 then (s.drawn, true)
  else (ignored.drawn, false)

/-! ## Beginning of start-up (R475) -/

/-- The shutdown of R474 is under way. -/
def State.shutting (s : State) : Bool := s.power.ramps.any (fun r => r.serves == .off)

/-- Do the conditions of R475 hold, on a module that has not started? -/
def State.startDue (s : State) : Bool :=
  s.power.aux && s.pins.pwrgd && !s.pins.perst && !s.power.tripped && !s.shutting && s.reg 0x10 == 0

/-- Start-up begins: the main domain is powered, the cause is recorded, the ageing registers are loaded, stage 1 runs; the cellar
is locked until stage 1 has formed CK (R514). -/
def State.powerUp (s : State) : State :=
  if !s.startDue then s else
  let cold := s.power.cold
  let s := { s with ts := 0, power := { s.power with main := true, cold := false } }
  let cause := if cold then 1 + 4 * b2n s.nvm.trip + 8 * b2n s.nvm.powerLoss else 2
  let s := s.setReg (HUB_RESET_CAUSE_COLD.at 0 0) (BitVec.ofNat 64 cause)
  let s := { s with nvm := { s.nvm with trip := false, powerLoss := false } }
  let s := (s.setFld 0 HUB_STATUS_STARTING 1).setFld 0 PWR_STAT_INPUT_DV s.power.inputDv
  s.showLock.loadAgeing.beginStage 1

/-- POWER_INPUT_ENTRY: the input enters its operating range of 46 V to 58 V; the auxiliary domain starts (R471, R472, R564). -/
def execPowerInputEntry (dv : Nat) (s : State) : Host.Outcome State Fault Refusal :=
  .next (
    if s.power.inRange then s else
    if dv < 460 || 580 < dv then { s with power := { s.power with inputDv := dv } } else
    let s := { s with ts := 0, power := { s.power with inputDv := dv, inRange := true, aux := true, tripped := false, charged := false, cold := true } }
    let s := s.resetRegs isSideband
    let s := (s.setFld 0 HUB_SB_STAT_ADDR_SEL s.pins.addrSel).setFld 0 HUB_SB_STAT_PWRGD (b2n s.pins.pwrgd)
    let s := (s.setFld 0 HUB_SB_STAT_X0_PRSNT (b2n s.pins.x0Prsnt)).setFld 0 HUB_SB_STAT_X1_PRSNT (b2n s.pins.x1Prsnt)
    s.powerUp)

/-- CHARGE_COMPLETE: the storage of R471 is charged. -/
def execChargeComplete (s : State) : Host.Outcome State Fault Refusal :=
  .next (if s.power.aux then { s with power := { s.power with charged := true } } else s)

/-- POWER_LOSS: below 44 V for 20 µs or longer (R473); a shorter or shallower dip does nothing. -/
def execPowerLoss (dv us : Nat) (s : State) : Host.Outcome State Fault Refusal :=
  .next (if !s.power.inRange || 440 ≤ dv || us < 20 then s else s.loseInput dv)

/-- PWRGD_ASSERT. -/
def execPwrgdAssert (ns : Nat) (s : State) : Host.Outcome State Fault Refusal :=
  .next (
    if s.pins.pwrgd then s else
    let (s, ok) := s.filter ns
    if !ok then s else
    let s := { s with pins := { s.pins with pwrgd := true } }
    if s.power.aux then (s.setFld 0 HUB_SB_STAT_PWRGD 1).powerUp else s)

/-- PWRGD_DEASSERT: fetching stops, every level falls to zero under the governor, then P4 (R474); start-up stops
(Table 15-6). -/
def execPwrgdDeassert (ns : Nat) (s : State) : Host.Outcome State Fault Refusal :=
  .next (
    if !s.pins.pwrgd then s else
    let (s, ok) := s.filter ns
    if !ok then s else
    let s := { s with pins := { s.pins with pwrgd := false } }
    if !s.power.aux then s else
    let s := s.setFld 0 HUB_SB_STAT_PWRGD 0
    if s.power.tripped || !(s.power.main || s.pstate == 3) then s else
    let s := (s.setFld 0 HUB_STATUS_READY 0).setFld 0 HUB_STATUS_STARTING 0
    let s := s.setFld 0 HUB_BRINGUP_CURRENT 0
    let s := (s.forAll allDies (fun s d => s.setFld 0 PWR_DIE_LEVEL 0 d)).showLevels
    { s with power := { s.power with ramps := [], waking := false, wakeBanks := none, leaving := none, zeroing := 0 } }.addRamp none 4 .off)

/-- PERST_ASSERT: Table 13-2, unless the module is shutting down, has tripped or is not powered (R480, R485, Table 15-6). -/
def execPerstAssert (ns : Nat) (s : State) : Host.Outcome State Fault Refusal :=
  .next (
    if s.pins.perst then s else
    let (s, ok) := s.filter ns
    if !ok then s else
    let s := { s with pins := { s.pins with perst := true } }
    if !s.power.aux || s.power.tripped || s.shutting || !s.pins.pwrgd then s else
    let s := s.fullReset
    { s with power := { s.power with main := true } })

/-- PERST_DEASSERT: WAKE# is released; start-up begins where R475 holds. -/
def execPerstDeassert (ns : Nat) (s : State) : Host.Outcome State Fault Refusal :=
  .next (
    if !s.pins.perst then s else
    let (s, ok) := s.filter ns
    if !ok then s else
    let s := { s with pins := { s.pins with perst := false, wake := false } }
    if s.power.aux then (s.setFld 0 HUB_SB_STAT_WAKE 0).powerUp else s)

/-! ## The end of start-up -/

/-- Has stage 9 ended, with nothing of start-up running? -/
def State.stagesDone (s : State) : Bool :=
  s.fld 0 HUB_BRINGUP_CURRENT == 0 && decide (2 ≤ s.fld 0 ⟨0x10, 0, 35, 32⟩)

/-- READY once stage 9 and larder zeroing are over (R479); likewise the end of leaving P3 (R489). -/
def State.maybeReady (s : State) : State :=
  if !s.stagesDone || s.power.zeroing != 0 then s else
  match s.power.leaving with
  | some f =>
    let s := { s with power := { s.power with leaving := none } }
    match f with
    | .pstate j => s.stateReached j
    | _ => s.arrive 1
  | none =>
    if !s.bit 0 HUB_STATUS_STARTING || s.bit 0 HUB_STATUS_FLR_ACTIVE then s else
    ((s.setFld 0 HUB_STATUS_STARTING 0).setFld 0 HUB_STATUS_READY 1).fetchAll

/-- LARDER_ZEROING_DONE: the larders of the dies in service that were being zeroed read as zero. -/
def execLarderZeroingDone (s : State) : Host.Outcome State Fault Refusal :=
  .next (
    if s.power.zeroing = 0 then s else
    let s := s.forAll ((maskBits 4 s.power.zeroing).filter (fun d => s.dieState d == 0)) State.zeroLarder
    ({ s with power := { s.power with zeroing := 0 } }).maybeReady)

/-! ## Stages (Table 13-1) -/

/-- Is a firmware copy accepted (R515)? -/
def FwCopy.boots (c : FwCopy) (svnMin : Nat) : Bool := c.sigOk && decide (svnMin ≤ c.svn) && c.stepping == 0xB0

/-- Dies that a stage works on: those in service. -/
def State.liveDies (s : State) : List Nat := allDies.filter (fun d => s.dieState d == 0)

/-- 2 PASS, 3 DEGRADED, or 4 FAIL where no compute die is left (R477, R478). -/
def State.stageResult (s : State) (degraded : Bool) : Nat :=
  if s.liveDies.isEmpty then 4 else if degraded then 3 else 2

/-- Stage 1: keys, firmware, measurements M0 and M1. Cellar recovery starts with Musko. -/
def State.stage1 (s : State) : State × Nat :=
  let s := s.formKeys.showLock
  let n := s.nvm
  let a := n.fwA.boots n.svnMin
  if !a && !n.fwB.boots n.svnMin then (s, 4) else
  let c := if a then n.fwA else n.fwB
  let s := s.measureExtend 0 (bytesLE 4 Config.romVersion ++ bytesLE 1 s.secState ++ bytesLE 1 n.svnMin ++ bytesLE 1 (b2n (!a)) ++ zeros 9)
  let s := s.measureExtend 1 (padTo 64 c.digest)
  let s := (s.setFld 0 SEC_STAT_SVN c.svn).setFld 0 HUB_STATUS_FW_COPY (b2n (!a))
  let s := if s.sec.ck.isSome then s.setFld 0 CLR_STAT_RECOVERING 1 else s
  (s, if a then 2 else 3)

/-- Stage 2: microcode. A die whose microcode fails is OUT_OF_SERVICE. The dies that are left are in service. -/
def State.stage2 (s : State) (bad : Nat) : State × Nat :=
  let was := s.liveDies
  let s := s.forAll was (fun s d =>
    let s := s.measureExtend 2 (if bitN bad d then List.replicate 64 0xFF else padTo 64 (Config.microcodeDigest d))
    if bitN bad d then s.setFld 0 HUB_DIE_STATE_STATE 1 d else s)
  let s := s.setFld 0 HUB_STATUS_DIES (maskOf s.liveDies)
  let s := if s.power.leaving.isSome then s.modSec (fun x => { x with ckCellar := x.ck }) else s
  (s, s.stageResult (was.any (bitN bad)))

/-- The spare that the factory left in quadrant q of die d (R17). -/
def sparePhys (d q : Nat) : Nat :=
  let k := Config.spareChoice (d * 4 + q) % 25
  (q / 2 * 5 + k / 5) * 10 + q % 2 * 5 + k % 5

/-- Load DIE_CORE_MAP and DIE_SPARE_Qn of a die (R19, R22), with the health of its cores. -/
def State.loadMaps (s : State) (d : Nat) : State :=
  let a := dieAt d
  let sp := (List.range 4).map (sparePhys d)
  let set := fun (s : State) (l p : Nat) (rep : Bool) => s.setReg (DIE_CORE_MAP_PHYS.at a l)
    (BitVec.ofNat 64 (p + quadOf p * 2 ^ 8 + b2n rep * 2 ^ 11 + 2 ^ 31))
  let s := s.forAll (((List.range 100).filter (fun p => !sp.contains p)).zip (List.range 96)) (fun s x => set s x.2 x.1 false)
  let s := s.forAll (List.range 4) (fun s q =>
    let p := sparePhys d q
    let failed := s.nvm.failedCores.contains (d * 100 + p)
    s.setReg (DIE_SPARE_Q_PHYS.at a q) (BitVec.ofNat 64 (p + (if failed then 3 else 0) * 2 ^ 8 + 2 ^ 31)))
  let s := s.forAll (s.nvm.replaced.filter (fun e => e.1 / 96 == d)) (fun s e =>
    let s := set s (e.1 % 96) e.2 true
    match s.spareSlot d e.2 with
    | some q => s.setFld a DIE_SPARE_Q_STATE 2 q
    | none => s)
  s.forAll (List.range 100) (fun s p =>
    let free := match s.spareSlot d p with
      | some q => s.fld a DIE_SPARE_Q_STATE q == 0
      | none => false
    let st := if (s.logicalOf d p).isSome then 0 else if free then 1 else 3
    (s.setFld (coreAt d p) CORE_HEALTH_STATE st).setFld 0 AGE_ISL_STATE st (islOf d p))

/-- Stage 3 begins: maps and repair records are reapplied (R19, R277). -/
def State.begin3 (s : State) : State := s.forAll s.liveDies (fun s d => (s.loadMaps d).reapply d)

/-- Logical places of a die whose core has a FAILED bank. -/
def State.badPlaces (s : State) (d : Nat) : List Nat :=
  (List.range 96).filter (fun l => (coreBanks d (s.phys d l)).any (fun b => s.bit (bankAt b) BANK_STAT_FAILED))

/-- Stage 3: the march. Rows are repaired; its failures take spares, or the die (R277, R278). -/
def State.stage3 (s : State) (found : List MarchReport) : State × Nat :=
  let ds := s.liveDies
  let s := s.forAll (found.filter (fun m => ds.contains (bankDie m.bank))) State.marchFound
  let s := s.forAll ds (fun s d => s.forAll (s.badPlaces d) (fun s l =>
    if s.dieState d != 0 then s else
    match s.spareFor d (s.phys d l) with
    | some q => s.mapTo d l q 5
    | none => s.leaveService d 1 2))
  let s := s.forAll ds (fun s d => ((s.clearBanks d).powerBanks d).showSpares d)
  let s := s.forAll s.islandsIn (fun s x => s.putIsland x.1 x.2)
  let any := ds.any (fun d => (List.range 816).any (fun k => s.bit (bankAt (d * 816 + k)) BANK_STAT_FAILED))
  (s.showGrade, s.stageResult any)

/-- Stage 4: larder training; zeroing starts on each die whose eight devices have trained. -/
def State.stage4 (s : State) (bad : Nat) : State × Nat :=
  let ds := s.liveDies
  let s := s.forAll ds (fun s d => s.forAll (List.range 8) (fun s k =>
    s.setFld 0 LDR_DEV_STAT_TRAINED (b2n (!bitN bad (8 * d + k))) (8 * d + k)))
  let lame := ds.filter (fun d => bad / 2 ^ (8 * d) % 256 != 0)
  let s := s.forAll lame (fun s d => s.leaveService d 2 2)
  ({ s with power := { s.power with zeroing := maskOf s.liveDies } }, s.stageResult (!lame.isEmpty))

/-- Stage 5: couch links. -/
def State.stage5 (s : State) (bad : Nat) : State × Nat :=
  let s := s.forAll [0, 1, 2, 3] (fun s n =>
    if bitN bad n || !s.linkOk n then s.setLink n RING_LINK_STAT_OUT_OF_SERVICE 1
    else (s.setLink n RING_LINK_STAT_UP 1).setLink n RING_LINK_STAT_TRAINED 1)
  (s.showDegraded, s.stageResult (bad % 16 != 0))

/-- Stage 6: hub-to-die links. -/
def State.stage6 (s : State) (bad : Nat) : State × Nat :=
  let s := s.forAll ((allDies).filter (bitN bad)) (fun s d =>
    (s.modDie d (fun x => { x with cut := true })).leaveService d 3 1)
  (s, s.stageResult (bad % 16 != 0))

/-- Stage 8: the attic ports that have a partner (R283, R553). -/
def State.stage8 (s : State) (x0 x1 : PortReport) : State × Nat :=
  let here := ([(0, s.pins.x0Prsnt, x0), (1, s.pins.x1Prsnt, x1)] : List (Nat × Bool × PortReport)).filter (fun x => x.2.1)
  let s := s.forAll here (fun s x =>
    let (n, _, r) := x
    if !r.ok then { s with power := { s.power with atticOut := orBit s.power.atticOut n } } else
    let s := ((s.setFld 0 ATC_STAT_UP 1 n).setFld 0 ATC_STAT_SPEED r.speed n).setFld 0 ATC_STAT_WIDTH r.width n
    (s.setFld 0 ATC_STAT_VERSION r.version n).setFld 0 ATC_CAP_BYTES (min r.bytes (2 ^ 41)) n)
  (s, if here.isEmpty then 5 else if here.any (fun x => !x.2.2.ok) then 3 else 2)

/-- Stage 9: every die in service at its P1 share. -/
def State.stage9 (s : State) : State × Nat :=
  let s := s.forAll allDies (fun s d => s.setFld 0 PWR_DIE_LEVEL (if s.dieState d == 0 then p1Share else 0) d)
  let s := s.showLevels
  let s := (s.forAll allDies (fun s d => s.setFld 0 PWR_DIE_DRAW (s.figure d 1) d)).showLevels
  ((if s.power.leaving.isNone then s.setPstate 1 else s).showInput 1, 2)

/-- What the stage that runs does, and its result. -/
def State.stage (s : State) (n : Nat) (r : StageReport) : State × Nat :=
  if n = 1 then s.stage1 else if n = 2 then s.stage2 r.badMicrocode else if n = 3 then s.stage3 r.marches
  else if n = 4 then s.stage4 r.badDevices else if n = 5 then s.stage5 r.badCouch else if n = 6 then s.stage6 r.badHub
  else if n = 7 then (s, if r.hostSlow then 3 else 2) else if n = 8 then s.stage8 r.x0 r.x1 else s.stage9

/-- The stage after stage n, 0 for none: a failed stage 1 skips to 7 and ends there (R478); leaving P3 skips 7 and 8. -/
def State.nextStage (s : State) (n : Nat) : Nat :=
  let fatal := s.fld 0 ⟨0x10, 0, 3, 0⟩ == 4
  if n = 1 && fatal then 7 else if n = 7 && fatal then 0 else if n = 6 && s.power.leaving.isSome then 9
  else if n = 9 then 0 else n + 1

/-- STARTUP_STAGE: the stage that runs ends with what it found, and the next one begins. -/
def execStartupStage (rep : StageReport) (s : State) : Host.Outcome State Fault Refusal :=
  .next (
    let s := s.powerUp
    let n := s.fld 0 HUB_BRINGUP_CURRENT
    if n = 0 then s else
    let (s, res) := s.stage n rep
    let s := (s.setFld 0 ⟨0x10, 0, 4 * n - 1, 4 * n - 4⟩ res).setFld 0 HUB_BRINGUP_T_END s.ts (n - 1)
    let m := s.nextStage n
    if m = 0 then
      let s := s.setFld 0 HUB_BRINGUP_CURRENT 0
      if n = 7 then (s.setFld 0 HUB_STATUS_FATAL 1).setFld 0 HUB_STATUS_STARTING 0 else s.maybeReady
    else
      let s := s.beginStage m
      if m = 3 then s.begin3
      else if m = 8 || (n = 6 && m = 9) then { s with pins := { s.pins with xPerst := false } }
      else s)

/-! ## FLR (R483, R485) -/

/-- FLR. -/
def execFlr (s : State) : Host.Outcome State Fault Refusal :=
  .next (
    if !(s.power.main || s.pstate == 3) || s.pins.perst || s.shutting || s.bit 0 HUB_STATUS_FATAL
      || (s.bit 0 HUB_STATUS_STARTING && decide (s.fld 0 ⟨0x10, 0, 27, 24⟩ < 2)) then s else
    let s := s.flrReset
    let s := (s.setFld 0 HUB_STATUS_READY 0).setFld 0 HUB_STATUS_FLR_ACTIVE 1
    let s := s.forAll allDies (fun s d => if s.dieState d == 0 then s.setFld 0 PWR_DIE_LEVEL p1Share d else s)
    let s := (s.showLevels.addRamps (fun _ => .none)).syncAlert
    if s.pstate == 2 then (s.setFld 0 HUB_STATUS_TRANSITION 1).addRamp none 1 .flr
    else if s.pstate == 3 && s.power.leaving.isNone then
      ({ s with power := { s.power with leaving := some .flr, main := true } }.setFld 0 HUB_STATUS_TRANSITION 1).beginStage 2
    else { s with power := { s.power with leaving := s.power.leaving.map (fun _ => RampFor.flr), wakeBanks := s.power.wakeBanks.map (fun _ => RampFor.flr) } })

/-- FLR_COMPLETE: larder and banks are zeroed, the module is in P1 and READY. -/
def execFlrComplete (s : State) : Host.Outcome State Fault Refusal :=
  .next (
    if !s.bit 0 HUB_STATUS_FLR_ACTIVE || 2 ≤ s.pstate || s.power.leaving.isSome || s.power.wakeBanks.isSome then s else
    let s := (s.forAll s.liveDies State.powerBanks).forAll allDies State.zeroLarder
    let s := (s.setFld 0 HUB_STATUS_FLR_ACTIVE 0)
    if s.bit 0 HUB_STATUS_STARTING then s.maybeReady
    else ((s.arrive 1).setFld 0 HUB_STATUS_READY 1).fetchAll)

end Sys2Proof.Machine
end

