-- ==== Sys2Proof/Machine/Commit.lean ====
section
/-!
DEFINITION. The hub's own commands and the two-phase commands (R381 to R399): what each part checks when it prepares, the
decision, and what each commit does.
-/
namespace Sys2Proof.Machine

/-! ## Single-part commands -/

/-- A command of the hub alone ends successfully: PART_MASK names the hub (R380). -/
def State.hubDone (s : State) (j seq result : Nat) : State :=
  (s.modCmd j seq (fun c => { c with parts := 16, result := result })).finish j seq

/-- NOP (0x0000). -/
def execNop (j : Slot) (s : State) : Host.Outcome State Fault Refusal :=
  .next (s.start j (fun c => c.op == 0x0000) (fun s c => s.hubDone j c.seq 0))

/-- ORDER_CODE: F9M-128-4T or F9M-128-2T (Table 0-1). -/
def orderCode : List Byte :=
  ([0x46, 0x39, 0x4D, 0x2D, 0x31, 0x32, 0x38, 0x2D] : List Byte) ++ [if Config.fourTiB then 0x34 else 0x32] ++ [0x54]

/-- The identity page (Table 10-5). -/
def State.identityPage (s : State) : List Byte :=
  padTo 4096 (bytesLE 4 1 ++ bytesLE 1 0xB0 ++ zeros 3 ++ padTo 16 orderCode
    ++ bytesLE 8 (if Config.fourTiB then 2 ^ 42 else 2 ^ 41) ++ bytesLE 8 128000000000
    ++ bytesLE 8 (s.fld 0 ATC_CAP_BYTES 0) ++ bytesLE 8 (s.fld 0 ATC_CAP_BYTES 1)
    ++ padTo 8 (Config.fwVersion.take 4) ++ padTo 32 (Config.serial.take 12)
    ++ bytesLE 1 (s.fld 0 HUB_STATUS_DIES) ++ allDies.flatMap (fun d => bytesLE 1 (s.fld 0 HUB_DIE_STATE_SPARES d)))

/-- IDENTIFY (0x0001): RESULT is STEPPING. -/
def execIdentify (j : Slot) (s : State) : Host.Outcome State Fault Refusal :=
  .next (s.start j (fun c => c.op == 0x0001) (fun s c => (s.hostWrite (c.opnd 32 8) s.identityPage).hubDone j c.seq 0xB0))

/-- WATERMARK_NOW (0x4001): the next step boundary runs the watermark whatever PERIOD gives. -/
def execWatermarkNow (j : Slot) (s : State) : Host.Outcome State Fault Refusal :=
  .next (s.start j (fun c => c.op == 0x4001) (fun s c => (s.modJob j (fun x => { x with wmDue := true })).hubDone j c.seq 0))

/-- A record of READ_DIGESTS (Table 10-17). -/
def DigestRec.bytes (r : DigestRec) : List Byte :=
  bytesLE 8 r.step ++ bytesLE 1 (r.set % 16) ++ bytesLE 1 (r.mismatch % 16) ++ bytesLE 1 (r.stepSet % 16) ++ zeros 53
    ++ allDies.flatMap (fun d => padTo 32 (r.tx.getD d []) ++ padTo 32 (r.rx.getD d []))

/-- READ_DIGESTS (0x6001): newest step first, zero records after the kept ones (R383). -/
def execReadDigests (j : Slot) (s : State) : Host.Outcome State Fault Refusal :=
  .next (s.start j (fun c => c.op == 0x6001) (fun s c =>
    let rs := (s.job j).digests.take 16
    (s.hostWrite (c.opnd 32 8) (padTo 5120 (rs.flatMap DigestRec.bytes))).hubDone j c.seq rs.length))

/-! ## The start of two-phase commands -/

/-- Dies in service and the hub, as parts; in P3 the hub alone has power. -/
def State.allParts (s : State) : Nat := (if s.pstate == 3 then 0 else s.serviceMask) + 16

/-- SET_WINDOWS (0x0002). -/
def execSetWindows (j : Slot) (s : State) : Host.Outcome State Fault Refusal :=
  .next (s.start j (fun c => c.op == 0x0002) (fun s c =>
    if c.blk 80 48 != 0 then s.refuse j c.seq 0x1002 else s.beginTwo j c.seq s.allParts))

/-- PLAN_BIND (0x2000). -/
def execPlanBind (j : Slot) (s : State) : Host.Outcome State Fault Refusal :=
  .next (s.start j (fun c => c.op == 0x2000) (fun s c =>
    if c.blk 128 128 != 0 then s.refuse j c.seq 0x1002 else s.beginTwo j c.seq s.allParts))

/-- PLAN_UNBIND (0x2001). -/
def execPlanUnbind (j : Slot) (s : State) : Host.Outcome State Fault Refusal :=
  .next (s.start j (fun c => c.op == 0x2001) (fun s c => s.beginTwo j c.seq s.allParts))

/-- ERRMEM_CLEAR (0x4000): parts are the dies of the home set that are in service, and the hub (R357). -/
def execErrmemClear (j : Slot) (s : State) : Host.Outcome State Fault Refusal :=
  .next (s.start j (fun c => c.op == 0x4000) (fun s c =>
    s.beginTwo j c.seq ((s.fld 0 HUB_FLT_JOB_HOME j &&& s.serviceMask) + 16)))

/-- Parts of DIE_READMIT and DIE_RESET: the named die and the hub. -/
def Cmd.dieParts (c : Cmd) : Nat := (if c.opnd 32 1 < 4 then 2 ^ c.opnd 32 1 else 0) + 16

/-- DIE_READMIT (0x0006). -/
def execDieReadmit (j : Slot) (s : State) : Host.Outcome State Fault Refusal :=
  .next (s.startOnDie j (fun c => c.op == 0x0006) (fun s c => s.beginTwo j c.seq c.dieParts))

/-- DIE_RESET (0x0007): a die in P2 is woken first (R484). -/
def execDieReset (j : Slot) (s : State) : Host.Outcome State Fault Refusal :=
  .next (s.startOnDie j (fun c => c.op == 0x0007) (fun s c => s.beginTwo j c.seq c.dieParts))

/-- SET_POWER_STATE (0x0004): a target equal to the present state completes at once with no effect (R487). -/
def execSetPowerState (j : Slot) (s : State) : Host.Outcome State Fault Refusal :=
  .next (s.start j (fun c => c.op == 0x0004) (fun s c =>
    if c.opnd 32 1 = s.pstate then s.hubDone j c.seq 0 else s.beginTwo j c.seq s.allParts))

/-! ## Prepare (R396, R397) -/

/-- Is a command that a predicate accepts outstanding on some pair: fetched and not posted (R377)? -/
def State.outstanding (s : State) (p : Cmd → Bool) : Bool := s.qps.any (fun e => e.2.cmds.any p)
/-- RUN, SNAP_TAKE and SNAP_RESTORE (R487, R520). -/
def isWork (c : Cmd) : Bool := c.op == 0x2002 || c.op == 0x3000 || c.op == 0x3001

/-- Is a run, capture or restore of job j under way? -/
def State.jobBusy (s : State) (j : Nat) : Bool :=
  s.running j || (s.job j).capture.isSome || s.bit 0 CLR_JOB_RESTORING j

/-- Does a SET_WINDOWS block hold a window that R384 forbids? -/
def State.windowsBad (s : State) (c : Cmd) : Bool :=
  allDies.any (fun d =>
    let b := c.blk (16 * d) 8
    let n := c.blk (16 * d + 8) 8
    n != 0 && (b % 128 != 0 || n % 128 != 0 || decide (32000000000 < b + n)))
  || (let b := c.blk 64 8
      let n := c.blk 72 8
      n != 0 && (b % 128 != 0 || n % 128 != 0 || decide (2 ^ 42 ≤ b)
        || decide (s.fld 0 ATC_CAP_BYTES (b / 2 ^ 41) < b % 2 ^ 41 + n)))

/-- Does a PLAN_BIND block leave the job's windows (R216, R384)? -/
def State.bindBad (s : State) (j : Nat) (c : Cmd) : Bool :=
  let x := s.job j
  let inDie := fun (d a n : Nat) => a / 2 ^ 35 == d && !x.leavesLarder d (a % 2 ^ 35) n
  let im := c.blk 0 8
  let n := c.blk 8 8
  im % 128 != 0 || decide (2 ^ 37 ≤ im) || !inDie (im / 2 ^ 35) im n || x.ldrBytes.getD (im / 2 ^ 35) 0 == 0
    || allDies.any (fun d =>
      let area := c.blk (16 + 8 * d) 8
      let spill := c.blk (88 + 8 * d) 8
      (area != 0 && (area % 128 != 0 || !inDie d area 1 || !inDie d (c.blk (48 + 8 * d) 8) 1))
        || (spill != 0 && !inDie d spill 620822528))
    || (if x.atcBytes = 0 then c.blk 80 8 != 0 else x.leavesAttic (c.blk 80 8) 1)

/-- The status with which the hub's prepare of a command fails. -/
def State.hubCheck (s : State) (j : Nat) (c : Cmd) : Option Nat :=
  let v := c.opnd 32 1
  if c.op = 0x0002 then (if s.running j then some 0x100A else if s.windowsBad c then some 0x1005 else none)
  else if c.op = 0x0004 then
    if 3 < v || (s.pstate == 3 && v == 2) then some 0x1021
    else if (s.d2 || s.sec.d2wait.isSome) && v != 0 then some 0x3008
    else if 2 ≤ v && s.outstanding isWork then some 0x100A else none
  else if c.op = 0x0006 then (if 3 < v || s.dieState v != 3 then some 0x1021 else none)
  else if c.op = 0x0007 then (if 3 < v then some 0x1021 else none)
  else if c.op = 0x2000 then (if s.running j then some 0x100A else if s.bindBad j c then some 0x1005 else none)
  else if c.op = 0x2001 then (if s.running j then some 0x100A else none)
  else if c.op = 0x3003 then s.deleteCheck c
  else if c.op = 0x4000 then (if s.jobBusy j then some 0x100A else none)
  else none

/-- Does the prepare of a part wait (R424, R485): a fill on a die asked for P2 or P3, a die already in RESET? -/
def State.prepareWaits (s : State) (c : Cmd) (p : Nat) : Bool :=
  (c.op == 0x0004 && decide (2 ≤ c.opnd 32 1) && decide (p < 4) && !(s.die p).fills.isEmpty)
    || (c.op == 0x0007 && decide (p < 4) && s.dieState p == 5)

/-- The prepare of part p: the state after it, and the status where it fails. The checks and writes of a SNAP_RESTORE run
with its first part (R461, R462). -/
def State.prepare (s : State) (j : Nat) (c : Cmd) (p : Nat) : State × Option Nat :=
  if c.op = 0x3001 then
    if c.replied != 0 then (s, none) else
    let target := maskBits 4 (c.want % 16)
    let x := s.cellar.snap (c.opnd 32 8)
    let attic := bitN (c.opnd 40 1) 0
    match s.restoreCheck j x target attic true, x with
    | some st, _ => (s, some st)
    | none, some x => s.restoreWrite j x target attic
    | none, none => (s, none)
  else (s, if p = 4 then s.hubCheck j c else none)

/-! ## The decision and the commits (R398, R399) -/

/-- Write a job's windows; a change discards the plan loader's result (R208, R384). -/
def State.putWindows (s : State) (j : Nat) (c : Cmd) : State :=
  s.modJob j (fun x =>
    let y := { x with
      ldrBase := allDies.map (fun d => c.blk (16 * d) 8), ldrBytes := allDies.map (fun d => c.blk (16 * d + 8) 8),
      atcBase := c.blk 64 8, atcBytes := c.blk 72 8 }
    if y.ldrBase = x.ldrBase ∧ y.ldrBytes = x.ldrBytes ∧ y.atcBase = x.atcBase ∧ y.atcBytes = x.atcBytes then x
    else { y with binding := y.binding.map (fun b => { b with loaded := false, plan := {} }) })

/-- What a bind and an unbind clear (R385, R447). -/
def State.clearStream (s : State) (j : Nat) : State :=
  let s := (s.setFld 0 HUB_JOB_STREAM_OSTEP_V 0 j).setFld 0 HUB_JOB_STREAM_RSTEP_V 0 j
  (s.setFld 0 HUB_JOB_STREAM_MB_V 0 j).setFld 0 CLR_JOB_RSTEP_VALID 0 j

/-- The commit of a PLAN_BIND (R385, R428, R436, R447, Table 14-1). -/
def State.bind (s : State) (j : Nat) (c : Cmd) : State :=
  let was := (s.job j).binding.isSome
  let at8 := fun (o : Nat) => allDies.map (fun d => c.blk (o + 8 * d) 8)
  let b : Binding := { imageLa := c.blk 0 8, imageBytes := c.blk 8 8, area := at8 16, ldrBase := at8 48, atcBase := c.blk 80 8,
                       spill := at8 88, rkey := c.blk 120 8 }
  let key := freeBytes s.fresh 32
  let s := s.drawnN 32
  let s := s.modJob j (fun x => { x.unbound true with binding := some b, jobKey := some key, binds := x.binds + 1 })
  let s := (s.clearStream j).setFld 0 HUB_JOB_STREAM_RKEY_V (c.blk 120 8) j
  let s := (s.setFld 0 CLR_JOB_CONSISTENT 1 j).setFld 0 HUB_FLT_JOB_HOLD 0 j
  (s.setFld 0 HUB_FLT_JOB_HOLD_CAUSE 0 j).formSet j was

/-- The commit of a PLAN_UNBIND. -/
def State.unbind (s : State) (j : Nat) : State :=
  ((s.modJob j (fun x => x.unbound true)).clearStream j).formSet j false

/-- The commit of a DIE_READMIT (R438): the die is in service at its P1 share, with the decisions it had not applied. -/
def State.readmit (s : State) (d : Nat) : State :=
  let s := (s.setFld 0 HUB_DIE_STATE_STATE 0 d).setFld 0 HUB_STATUS_DIES (orBit (s.fld 0 HUB_STATUS_DIES) d)
  let s := ((s.applyDeferred d).showSpares d).setFld 0 PWR_DIE_LEVEL p1Share d
  s.showLevels.addRamps (fun _ => .none)

/-- The commit of a DIE_RESET (R484): the die leaves service if it was in it, and is reset; its maps, repairs and operating
points are loaded again. -/
def State.resetDie (s : State) (d : Nat) : State :=
  let s := if s.dieState d = 0 then s.leaveService d 6 5 else s.setFld 0 HUB_DIE_STATE_STATE 5 d
  let s := { s with power := { s.power with dieReset := orBit s.power.dieReset d } }
  let s := (s.dieResetState d).setReg (PWR_DIE_LEVEL.at 0 d) 0
  ((s.loadMaps d).loadIslands d).showLevels.showSpares d

/-- What the commit of a command does. -/
def State.commit (s : State) (j : Nat) (c : Cmd) : State :=
  let v := c.opnd 32 1
  if c.op = 0x0002 then s.putWindows j c
  else if c.op = 0x0004 then (s.modCmd j c.seq (fun c => { c with waiting := true })).beginState j v
  else if c.op = 0x0006 then s.readmit v
  else if c.op = 0x0007 then s.resetDie v
  else if c.op = 0x2000 then s.bind j c
  else if c.op = 0x2001 then s.unbind j
  else if c.op = 0x3001 then
    match s.cellar.snap (c.opnd 32 8) with
    | none => s
    | some x =>
      let (s, notes) := s.restoreCommit j x (maskBits 4 (c.want % 16))
      s.modCmd j c.seq (fun c => { c with result := x.dataPos, outcomes := c.outcomes ++ notes })
  else if c.op = 0x3003 then (s.deleteSnap (c.opnd 32 8)).showCellar
  else if c.op = 0x4000 then
    let b := c.opnd 32 2
    s.modJob j (fun x => { x with compress := if b = 0xFFFF then [] else x.compress.filter (fun e => e.1 % 65536 != b) })
  else s

/-- Parts that prepared and have left service since, so that they apply the decision on their return (R398). -/
def State.lateParts (s : State) (c : Cmd) : List Nat :=
  if c.op = 0x0006 || c.op = 0x0007 then []
  else allDies.filter (fun d => bitN c.want d && s.dieState d != 0)

/-- Every part has prepared: the decision (R399), unless the deadline has won before it; the commits; the completion, which
for SET_POWER_STATE waits for the target. -/
def State.decideTwo (s : State) (j seq : Nat) : State :=
  let s := s.internally j seq
  match s.cmd j seq with
  | none => s
  | some c =>
    if c.outcomes.contains 0x1010 then
      let s := s.release j seq
      (if c.op = 0x3001 then s.spoil j else s).postCmd j seq
    else
      let late := s.lateParts c
      let s := s.forAll late (fun s d => { s with nvm := { s.nvm with
        deferred := s.nvm.deferred ++ [⟨d, j, c.bytes, c.param.getD []⟩] } })
      let s := s.modCmd j seq (fun c => { c with parts := c.want - maskOf late,
                                                 outcomes := c.outcomes ++ (if late.isEmpty then [] else [0x0101]) })
      let s := s.commit j c
      let s := s.release j seq
      match s.cmd j seq with
      | some c => if c.waiting then s else s.postCmd j seq
      | none => s

/-- PREPARE_REPLY: a part's answer. One that reaches the timer island at its evaluation edge counts as late, and one that
would come after it is lost (R396, R397, R424). -/
def execPrepareReply (j : Slot) (part : Part) (ok : Bool) (s : State) : Host.Outcome State Fault Refusal :=
  .next (match Tab.find s.prepared part.val with
    | none => s
    | some (slot, seq, since) =>
      if slot != j.val then s else
      match s.cmd j seq with
      | none => s
      | some c =>
        if bitN c.replied part || c.done || s.prepareWaits c part then s else
        let arrive := s.ts + 2 + s.free.toNat % 2
        let s := s.drawn
        let limit := since + 10000000
        if limit < arrive then s.prepareFails j seq part 0x2053 else
        let s := if arrive = limit then s.bump 0 HUB_FLT_CNT_LATE_V else s
        if !ok then s.prepareFails j seq part 0x2053 else
        match s.prepare j c part with
        | (s, some st) => s.prepareFails j seq part st
        | (s, none) =>
          let s := s.modCmd j seq (fun c => { c with replied := orBit c.replied part, prepared := orBit c.prepared part })
          match s.cmd j seq with
          | none => s
          | some c =>
            if !c.allReplied then s
            else if c.prepared = c.want then s.decideTwo j seq
            else s.settleAbort j seq)

/-- PREPARE_TIMEOUT: a part gave no reply within 10 ms; it counts as lost (R424). -/
def execPrepareTimeout (j : Slot) (part : Part) (s : State) : Host.Outcome State Fault Refusal :=
  .next (match Tab.find s.prepared part.val with
    | none => s
    | some (slot, seq, since) =>
      if slot != j.val || s.ts < since + 10000000 then s else
      match s.cmd j seq with
      | none => s
      | some c => if bitN c.replied part || c.done then s else s.prepareFails j seq part 0x2053)

end Sys2Proof.Machine
end

