-- ==== Sys2Proof/Machine/JobReset.lean ====
section
/-!
DEFINITION. Deadlines that win (R391, R392) and the Keager job reset (R400, R401).
-/
namespace Sys2Proof.Machine

/-! ## Deadlines -/

/-- What a deadline that has won does to a started command (R392). -/
def State.deadlineStops (s : State) (j : Nat) (c : Cmd) : State :=
  if c.op = 0x2002 then
    match s.runOf j with
    | some (lead, _) => (s.stopRun lead 0x1010).checkEnd lead
    | none => s
  else if c.op = 0x1000 || c.op = 0x1001 then s.modCmd j c.seq (fun x => { x with stopped := true })
  else if c.op = 0x3000 then s.endTake j c.seq 0x1010
  else if c.op = 0x6000 then s
  else if opTwo c.op then (s.abortTwo j c.seq).finish j c.seq
  else
    let s := if c.op = 0x5001 then s.modSec (fun x => { x with d2wait := none }) else s
    s.finish j c.seq

/-- DEADLINE_EXPIRY: the evaluation edge of a command whose internal completion is not present: the deadline wins. -/
def execDeadlineExpiry (j : Slot) (seq : Nat) (s : State) : Host.Outcome State Fault Refusal :=
  .next (match s.cmd j seq with
    | none => s
    | some c =>
      if c.deadline = 0 || s.ts < c.deadline || c.done || c.outcomes.contains 0x1010 || s.bit 0 KGR_QSTAT_RESETTING j then s else
      let s := s.deadlineWins j seq
      if !c.started then (s.modCmd j seq (fun c => { c with parts := 0, result := 0 })).finish j seq
      else s.deadlineStops j c)

/-! ## Job reset -/

/-- Consume the entries between head and tail of pair j without their checks: each will complete with 0x1007. -/
def consumeLoop : Nat → State → Nat → State
  | 0, s, _ => s
  | n + 1, s, j =>
    let q := s.qp j
    let head := s.fld 0 KGR_QSTAT_SQ_HEAD j
    if head = s.fld 0 KGR_SQ_TAIL_V j then s else
    let bs := s.host.read (q.sqBase + head * 64) 64
    let c : Cmd := { bytes := bs, seq := leAt bs 8 4, outcomes := [0x1007] }
    let s := s.setFld 0 KGR_QSTAT_SQ_HEAD ((head + 1) % 2 ^ q.sqLog) j
    let s := s.setFld 0 KGR_SEQ_NEXT_V ((c.seq + 1) % 2 ^ 32) j
    let s := s.setFld 0 KGR_QSTAT_OUTSTANDING (s.fld 0 KGR_QSTAT_OUTSTANDING j + 1) j
    consumeLoop n (s.modQp j (fun q => { q.note c.seq with cmds := q.cmds ++ [c] })) j

/-- Step 2 of R400 on the entries that are not fetched. -/
def State.consume2 (s : State) (j : Nat) : State :=
  let err := if s.bit 0 KGR_QSTAT_ERROR j then s.fld 0 KGR_QSTAT_ERR_CAUSE j else 0
  if err = 1 then (s.setFld 0 KGR_QSTAT_SQ_HEAD 0 j).setFld 0 KGR_SQ_TAIL_V 0 j
  else if err = 4 then s.setFld 0 KGR_QSTAT_SQ_HEAD (s.fld 0 KGR_SQ_TAIL_V j) j
  else if s.bit 0 KGR_QSTAT_ENABLED j then consumeLoop 4096 s j else s

/-- A rollback under way is abandoned: what it was restoring holds open contents (Table 11-7). -/
def State.dropRollback (s : State) (j : Nat) : State :=
  if !s.bit 0 HUB_FLT_JOB_ROLLING j then s else
  let s := match s.planId j with
    | none => s
    | some p => match (s.cellar.agreements j p).head? with
      | none => s
      | some x => s.forAll (x.dest (maskBits 4 (s.jobSet j)) false) (fun s e => s.forAll e.1.spans (fun s sp =>
          (s.scramble 2 (movedTo e.1 e.2.1 e.2.2 sp.1) (sp.2 - sp.1) (some false)).touchEpoch (movedTo e.1 e.2.1 e.2.2 sp.1) (sp.2 - sp.1)))
  let s := (s.setFld 0 HUB_FLT_JOB_ROLLING 0 j).setFld 0 CLR_JOB_CONSISTENT 0 j
  ((s.dropTallies j).modRun j (fun r => { r with rolled := true, stewDone := true })).showSteward

/-- The edge at which a job reset takes effect (R400, steps 1 to 3): commands that are not internally complete are to end with
0x1007, a run stops, two-phase commands before their decision abort. -/
def State.resetJob (s : State) (j : Nat) : State :=
  let s := (s.setFld 0 KGR_QSTAT_RESETTING 1 j).dropRollback j
  let s := s.forAll ((s.qp j).cmds.filter (fun c => !c.done)) (fun s c =>
    let s := if opTwo c.op then s.abortTwo j c.seq else s
    let s := if c.op = 0x5001 && c.started then s.modSec (fun x => { x with d2wait := none }) else s
    (s.outcome j c.seq 0x1007).modCmd j c.seq (fun x => { x with stopped := true, waiting := false }))
  let s := if (s.job j).capture.isNone then s else
    ((((s.modJob j (fun x => { x with capture := none })).sweep).setFld 0 CLR_JOB_TAKING 0 j).setFld 0 CLR_FLIGHT_MIB 0).showCellar
  let s := match s.runOf j with
    | some (lead, r) => if r.ended then s else (s.stopRun lead 0x1007).checkEnd lead
    | none => s
  s.consume2 j

/-- KEAGER_JOB_RESET: a write of KGR_JOB_RESET; none for a slot that is already resetting (R401). -/
def execKeagerJobReset (j : Slot) (s : State) : Host.Outcome State Fault Refusal :=
  .next (s.served 0x100010 (fun s => if s.bit 0 KGR_QSTAT_RESETTING j then s else s.resetJob j))

/-- Has the run of slot j come to rest, with no fill in its footprint? A run that had ended before the edge is posted first. -/
def State.resetRests (s : State) (j : Nat) : Bool :=
  match s.runOf j with
  | none => true
  | some (lead, r) => r.ended && r.stopping && !s.fillsIn (s.runPrint lead)

/-- A stopped run's members complete with 0x1007, and the run is over; the footprint shows no job. Its step ended incomplete, and
the steward's record says so (R153). -/
def State.closeRun (s : State) (j : Nat) : State :=
  match s.runOf j with
  | none => s
  | some (lead, r) =>
    let s := if r.stewDone then s else s.stewardBoundary lead
    let s := match s.ringCtx lead 0 with
      | some c => if r.spilled then s else s.hidePrint c
      | none => s
    let s := s.modRun lead (fun r => { r with posted := true, parked := true })
    s.forAll ((r.members.zip r.seqs).filter (fun x => x.1 != j)) (fun s x =>
      ((s.modCmd x.1 x.2 (fun c => { c with parts := r.set - (r.set &&& r.failed), outcomes := 0x1007 :: c.outcomes })).finish x.1 x.2).params x.1)

/-- Codebook slots that a job loaded become empty (R139). -/
def State.emptySlots (s : State) (j : Nat) : State :=
  s.forAll (List.range 400) (fun s n =>
    let a := coreAt (n / 100) (n % 100)
    s.forAll (List.range 8) (fun s k =>
      if s.bit a CORE_CB_SLOT_VALID k && s.fld a CORE_CB_SLOT_JOB k == j then
        let s := (s.setReg (CORE_CB_SLOT_VALID.at a k) 0).setFld a CORE_CONV_STAT_SLOTS_VALID
          (clearBit (s.fld a CORE_CONV_STAT_SLOTS_VALID) k)
        s.modCore (n / 100) (n % 100) (fun x => { x with books := Tab.erase x.books k })
      else s))

/-- Banks that a job owned take OWNER 0, their contents unchanged (Table 7-10). -/
def State.freeBanks (s : State) (j : Nat) : State :=
  s.forAll (List.range 3264) (fun s b =>
    if s.bit (bankAt b) BANK_OWN_JOB_VALID && s.fld (bankAt b) BANK_OWN_JOB == j then s.setOwner b 0 none else s)

/-- Effects of step 4 of R400 and the zero step counter of step 5. -/
def State.resetEffects (s : State) (j : Nat) : State :=
  let s := (s.emptySlots j).freeBanks j
  let s := s.dropTallies j
  let s := s.modJob j (fun x => { x with
    ls := none, clean := 0, layers := [], tensors := [], merged := [], step := 0, firstStep := true, wmDue := false,
    compress := [], digests := [], mbs := [], agreed := none, run := none, capture := none, restoring := [],
    binding := x.binding.map (fun b => { b with loaded := false, plan := {} }) })
  let s := (s.clearStream j).setReg (HUB_WM_STAT_OUTCOME.at 0 j) 0
  let s := (s.setFld 0 HUB_FLT_JOB_HOLD 0 j).setFld 0 HUB_FLT_JOB_HOLD_CAUSE 0 j
  (s.setFld 0 HUB_FLT_JOB_UNRES_ARMED 0 j).setFld 0 HUB_FLT_JOB_ROLLING 0 j

/-- JOB_RESET_DONE: everything of the job has come to rest; the completions are posted in SQ order, the effects apply, ERROR
clears and fetching resumes. -/
def execJobResetDone (j : Slot) (s : State) : Host.Outcome State Fault Refusal :=
  .next (
    if !s.bit 0 KGR_QSTAT_RESETTING j || !s.resetRests j then s else
    let s := s.closeRun j
    let s := s.forAll ((s.qp j).cmds.filter (fun c => !c.done && (c.op == 0x1000 || c.op == 0x1001) && c.started)) (fun s c =>
      s.copyStop j c)
    let s := s.forAll ((s.qp j).cmds.filter (fun c => c.outcomes.contains 0x1007)) (fun s c =>
      if (s.cmd j c.seq).isSome then s.finish j c.seq else s.conclude j c 0x1007)
    let s := (s.resetEffects j).showSteward
    let s := (s.setFld 0 KGR_QSTAT_ERROR 0 j).setFld 0 KGR_QSTAT_ERR_CAUSE 0 j
    let s := s.setFld 0 KGR_QSTAT_RESETTING 0 j
    ((s.forAll (s.qp j).held (fun s _ => s.postHeld j)).fetch j))

end Sys2Proof.Machine
end

