-- ==== Sys2Proof/Machine/Security.lean ====
section
/-!
DEFINITION. Tokens, debug sessions, ENTER_RETURN, evidence and certificates, halt and resume (R519 to R535): what the Keager
commands, the mailbox messages and SEC_HALT share.
-/
namespace Sys2Proof.Machine

/-! ## Tokens (R524, R526) -/

/-- The signer that Table 14-3 gives for the present state: 0 the owner's key, 1 the Avouhild debug key. -/
def State.signer (s : State) : Nat := if s.secState = 1 || s.secState = 2 then 0 else 1

/-- The owner key of hub NVM, checked against the fused digest at every use (R519). -/
def State.ownerKey (s : State) : Option (List Byte) :=
  if s.nvm.claimed && shake256 s.nvm.ownerKey 32 == s.nvm.ownerDigest then some s.nvm.ownerKey else none

/-- Check 1 of Table 14-6 on a token, for the KIND of an opcode. -/
def tokenForm (t : List Byte) (kind : Nat) : Bool :=
  leAt t 0 4 == 0x4E4B544B && leAt t 4 2 == 1 && leAt t 6 1 == kind
    && (if kind = 1 then leAt t 7 1 == 1 || leAt t 7 1 == 2 else leAt t 7 1 == 0)
    && decide (leAt t 72 1 ≤ 1) && leAt t 73 55 == 0 && leAt t 3437 19 == 0

/-- Check 6: the device identity and the current nonce. -/
def State.tokenBound (s : State) (t : List Byte) : Bool :=
  leAt t 8 32 == natLE (padTo 32 ((List.range 4).flatMap (fun k => bytesLE 8 (s.fld 0 SEC_DEVICE_ID_V k))))
    && s.bit 0 SEC_STAT_NONCE_VALID
    && leAt t 40 32 == natLE ((List.range 4).flatMap (fun k => bytesLE 8 (s.fld 0 SEC_NONCE_V k)))

/-- Check 7: ML-DSA-65 over the 512-bit SHAKE256 digest of bytes 0 to 127. -/
def State.tokenSigned (s : State) (t : List Byte) : Bool :=
  let d := shake256 (t.take 128) 64
  let sig := (t.drop 128).take 3309
  if leAt t 72 1 = 0 then (match s.ownerKey with
    | some k => Config.verify k d sig
    | none => false)
  else Config.verify Config.debugKey d sig

/-- Does the module stand in P2 or P3, or move there (R526, R533)? -/
def State.lowPower (s : State) : Bool :=
  s.pstate == 2 || s.pstate == 3 || s.power.ramps.any (fun r => r.die.isNone && (r.state == 2 || r.state == 3))

/-- Checks 3 to 5 of DEBUG_ENTER, or what R520 puts in their place for ENTER_RETURN. -/
def State.tokenState (s : State) (kind level : Nat) : Option Nat :=
  if kind = 1 then
    if s.level ≠ 0 then some 0x3006
    else if level = 2 && s.lowPower then some 0x3009
    else if level = 2 && s.outstanding isWork then some 0x300A
    else none
  else if s.lowPower then some 0x3009
  else if s.outstanding isWork then some 0x300A
  else none

/-- A token is refused: the counter and the alert. -/
def State.tokenRefused (s : State) : State := (s.bump 0 SEC_CNT_TOKENS_REJ_V).secAlert 4

/-- Run the checks of Table 14-6: the status of the first that fails, none where all pass. Check 6, once reached, uses up the
nonce (R525). -/
def State.judge (s : State) (t : List Byte) (kind : Nat) : State × Option Nat :=
  if !tokenForm t kind then (s.tokenRefused, some 0x3002)
  else if leAt t 72 1 ≠ s.signer then (s.tokenRefused, some 0x3005)
  else match s.tokenState kind (leAt t 7 1) with
    | some st => (s.tokenRefused, some st)
    | none =>
      let ok := s.tokenBound t
      let s := s.dropNonce
      if !ok then (s.tokenRefused, some 0x3004) else
      let s := s.bump 0 SEC_CNT_VERIFIES_V
      if !s.tokenSigned t then (s.tokenRefused, some 0x3003)
      else (s.bump 0 SEC_CNT_TOKENS_OK_V, none)

/-! ## Sessions (R527, R528) -/

/-- A session starts at a level: M3, LEVEL, the path; FIELD becomes FIELD_DEBUG. -/
def State.beginSession (s : State) (level path : Nat) : State :=
  let s := s.secEvent 2 level
  let s := (s.setFld 0 SEC_STAT_LEVEL level).setFld 0 SEC_STAT_SESSION_PATH path
  let s := if s.secState = 1 then s.setFld 0 SEC_STAT_STATE 2 else s
  s.secAlert 0

/-- Steps 3 and 4 of R527: CK and the job keys are zeroised, M3 records D2 entry and zeroisation. -/
def State.d2Zeroise (s : State) : State :=
  let s := (s.zeroise.setFld 0 SEC_STAT_KEYS_ZEROISED 1).secAlert 2
  ((s.secEvent 3 2).secEvent 4 2).setFld 0 SEC_STAT_D2_SINCE_START 1

/-- May a waiting D2 entry go on: is no program operation in flight and recovery not running? -/
def State.cellarRests (s : State) : Bool := s.fld 0 CLR_FLIGHT_MIB == 0 && !s.bit 0 CLR_STAT_RECOVERING

/-- The DEBUG_ENTER of pair j that has started and has not ended. -/
def State.enterCmd (s : State) (j : Nat) : Option Cmd :=
  (s.qp j).cmds.find? (fun c => c.started && !c.done && c.op == 0x5001)

/-- A Keager D2 entry takes its last steps; a deadline that wins leaves no session. -/
def State.d2Keager (s : State) (j : Nat) : State :=
  match s.enterCmd j with
  | none => s.modSec (fun x => { x with d2wait := none })
  | some c =>
    let s := (s.modSec (fun x => { x with d2wait := none })).d2Zeroise
    let s := (s.modCmd j c.seq (fun c => { c with parts := 16 })).internally j c.seq
    let won := match s.cmd j c.seq with
      | some c => c.outcomes.contains 0x1010
      | none => true
    (if won then s else s.beginSession 2 0).postCmd j c.seq

/-- A D2 entry whose checks have passed: the module enters P0, and the entry waits for the cellar. -/
def State.d2Asked (s : State) (who : Asker) : State :=
  let s := s.modSec (fun x => { x with d2wait := some who })
  if s.pstate = 1 then s.arrive 0 else s

/-- DEBUG_ENTER (0x5001). A D1 session starts at once. A D2 entry that waits goes on at this command once the cellar rests;
meanwhile no other DEBUG_ENTER starts. -/
def execDebugEnter (j : Slot) (s : State) : Host.Outcome State Fault Refusal :=
  .next (match s.sec.d2wait with
    | some (.keager i) => if i = j.val && s.cellarRests then s.d2Keager j else s
    | some (.mailbox _ _) => s
    | none => s.start j (fun c => c.op == 0x5001) (fun s c =>
        let t := c.param.getD []
        match s.judge t 1 with
        | (s, some st) => s.refuse j c.seq st
        | (s, none) =>
          if leAt t 7 1 = 1 then (s.beginSession 1 0).hubDone j c.seq 0
          else
            let s := s.d2Asked (.keager j)
            if s.cellarRests then s.d2Keager j else s))

/-- DEBUG_EXIT (0x5002). -/
def execDebugExit (j : Slot) (s : State) : Host.Outcome State Fault Refusal :=
  .next (s.start j (fun c => c.op == 0x5002) (fun s c =>
    if s.level = 0 then s.refuse j c.seq 0x3007 else s.endSession.hubDone j c.seq 0))

/-! ## RETURN (R520) -/

/-- The steps of R520 after the token's checks: the session ends, the fuses, the keys, the jobs, the cellar. -/
def State.enterReturn (s : State) : State :=
  let s := s.endSession
  let s := { s with nvm := { s.nvm with returned := true, seedLock := true } }
  let s := (s.modSec (fun x => { x with ors := none })).zeroise
  let s := s.discardJobs
  let s := s.modCellar (fun c => { c with snaps := [], store := [] })
  let s := ((s.setReg 0x420008 0).setReg 0x420010 0).secEvent 6 0
  s.setFld 0 SEC_STAT_STATE 3

/-- An ENTER_RETURN command on pair j. -/
def State.returnRow (s : State) (j : Nat) : State :=
  s.start j (fun c => c.op == 0x5003) (fun s c =>
    match s.judge (c.param.getD []) 2 with
    | (s, some st) => s.refuse j c.seq st
    | (s, none) => s.enterReturn.hubDone j c.seq 0)

/-- An ENTER_RETURN that would end in `t`, but for a power loss before the seed is locked: after RETURNED is programmed (`past`) the
RETURN is complete at the next start-up, before it nothing changes (R520). -/
def State.returnCut (s t : State) (past : Bool) (dv : Nat) : State :=
  if !t.nvm.returned || s.nvm.returned || 440 ≤ dv then t
  else if past then
    ((s.modNvm (fun n => { n with returned := true })).modCellar (fun c => { c with snaps := [], store := [] })).loseInput dv
  else s.loseInput dv

/-- ENTER_RETURN (0x5003), whose fuses a power loss may cut short. -/
def execEnterReturn (j : Slot) (cut : Option (Bool × Nat)) (s : State) : Host.Outcome State Fault Refusal :=
  .next (match cut with
    | none => s.returnRow j
    | some x => s.returnCut (s.returnRow j) x.1 x.2)

/-! ## Evidence and certificates (R534, R535) -/

/-- The job key of a slot; none where the slot has no binding or the key is zeroised. -/
def State.jobSeed (s : State) (slot : Nat) : Option (List Byte) :=
  if (s.job slot).binding.isSome then (s.job slot).jobKey else none

/-- PLAN_DIGEST: the plan's digest once the binding has passed the loader (R208). -/
def State.planDigest (s : State) (slot : Nat) : List Byte :=
  match (s.job slot).binding with
  | some b => if b.loaded then Sys2Proof.Machine.planDigest b.plan else zeros 32
  | none => zeros 32

/-- FLAGS of the evidence (Table 14-8). -/
def State.evidenceFlags (s : State) : Nat :=
  s.fld 0 SEC_STAT_KEYS_ZEROISED + 2 * s.fld 0 SEC_STAT_D2_SINCE_START + 4 * s.fld 0 HUB_STATUS_FW_COPY
    + 8 * s.fld 0 SEC_STAT_CLAIM_SPOILED

/-- Bytes 0 to 767 of the evidence; `seed` is the job key at job scope. -/
def State.evidenceBody (s : State) (nonce : List Byte) (slot : Nat) (seed : Option (List Byte)) : List Byte :=
  bytesLE 4 0x56545441 ++ bytesLE 2 1 ++ bytesLE 1 (b2n seed.isSome) ++ bytesLE 1 (if seed.isSome then slot else 0)
    ++ bytesLE 1 s.secState ++ bytesLE 1 s.level ++ bytesLE 1 s.evidenceFlags
    ++ bytesLE 1 (s.fld 0 SEC_STAT_SVN) ++ bytesLE 1 (s.fld 0 SEC_STAT_SVN_MIN) ++ bytesLE 1 0xB0 ++ zeros 2
    ++ bytesLE 8 s.ts ++ padTo 32 nonce
    ++ (List.range 4).flatMap (fun k => bytesLE 8 (s.fld 0 SEC_DEVICE_ID_V k))
    ++ (if seed.isSome then padTo 32 (s.planDigest slot) else zeros 32)
    ++ (match seed with
        | some k => shake256 (Config.publicKey k) 32
        | none => zeros 32)
    ++ zeros 104 ++ (List.range 8).flatMap s.measured

/-- The 4 KiB of the evidence, signed with DIK or with the job's JAK. -/
def State.evidence (s : State) (nonce : List Byte) (slot : Nat) (seed : Option (List Byte)) : List Byte :=
  let b := s.evidenceBody nonce slot seed
  b ++ signature (seed.getD s.dikSeed) b ++ zeros 19

/-- What an ATTEST asks, with the status that refuses it: the job key at job scope, none at module scope. -/
def State.attestScope (s : State) (scope slot : Nat) : Except Nat (Option (List Byte)) :=
  if 1 < scope || (scope = 1 && 63 < slot) then .error 0x1021
  else if scope = 0 then .ok none
  else match s.jobSeed slot with
    | some k => .ok (some k)
    | none => .error 0x300B

/-- ATTEST (0x5000). -/
def execAttest (j : Slot) (s : State) : Host.Outcome State Fault Refusal :=
  .next (s.start j (fun c => c.op == 0x5000) (fun s c =>
    if c.blk 34 6 ≠ 0 || c.blk 48 16 ≠ 0 then s.refuse j c.seq 0x1002
    else match s.attestScope (c.blk 32 1) (c.blk 33 1) with
      | .error st => s.refuse j c.seq st
      | .ok seed =>
        if c.blk 40 8 % 4096 ≠ 0 then s.refuse j c.seq 0x1005 else
        let e := s.evidence ((c.param.getD []).take 32) (c.blk 33 1) seed
        ((s.bump 0 SEC_CNT_SIGNS_V).hostWrite (c.blk 40 8) e).hubDone j c.seq 4096))

/-- One entry of a certificate chain: TYPE, LEN and data padded to 8 B. -/
def chainEntry (ty : Nat) (data : List Byte) : List Byte :=
  bytesLE 2 ty ++ zeros 2 ++ bytesLE 4 data.length ++ padTo (alignUp data.length 8) data

/-- A job certificate: the slot, its binds since start-up, the JAK public key, signed with DIK. -/
def State.jobCert (s : State) (slot : Nat) (seed : List Byte) : List Byte :=
  let b := bytesLE 2 Config.jobCertVersion ++ bytesLE 1 slot ++ zeros 5 ++ bytesLE 8 (s.job slot).binds
    ++ padTo 1952 (Config.publicKey seed)
  b ++ signature s.dikSeed b

/-- The certificate chain at a scope. -/
def State.chain (s : State) (slot : Nat) (seed : Option (List Byte)) : List Byte :=
  [1, 2, 3].flatMap (fun t => chainEntry t (Config.certificate t)) ++ (match seed with
    | some k => chainEntry 4 (s.jobCert slot k)
    | none => [])

/-- GET_CERT (0x5004): RESULT is the bytes that the chain needs; a buffer that is too small receives nothing. -/
def execGetCert (j : Slot) (s : State) : Host.Outcome State Fault Refusal :=
  .next (s.start j (fun c => c.op == 0x5004) (fun s c =>
    if c.blk 14 50 ≠ 0 then s.refuse j c.seq 0x1002
    else match s.attestScope (c.blk 12 1) (c.blk 13 1) with
      | .error st => s.refuse j c.seq st
      | .ok seed =>
        let ch := s.chain (c.blk 13 1) seed
        if c.blk 8 4 < ch.length then
          ((s.modCmd j c.seq (fun c => { c with parts := 0, result := ch.length })).outcome j c.seq 0x1021).finish j c.seq
        else
          let s := s.bump 0 SEC_CNT_SIGNS_V (b2n seed.isSome)
          (s.hostWrite (c.blk 0 8) ch).hubDone j c.seq ch.length))

/-! ## The nonce, halt and resume (R523, R525) -/

/-- NEW_NONCE: a write of SEC_CTRL.NEW_NONCE. -/
def execNewNonce (s : State) : Host.Outcome State Fault Refusal :=
  .next (s.served 0x200008 State.newNonce)

/-- The cores that a value of SEC_HALT names. -/
def State.haltCores (s : State) (w : Nat) : List Nat :=
  let d := bitsN w 1 0
  if bitN w 9 then s.coresIn d
  else if bitsN w 8 2 < 100 then [bitsN w 8 2] else []

/-- A write of SEC_HALT (Table 14-12): effective only in D2. -/
def State.haltWrite (s : State) (w : Nat) : State :=
  if !s.d2 then s else
  let d := bitsN w 1 0
  let s := if bitN w 10 then s.forAll (s.haltCores w) (fun s p => s.setHalt d p true) else s
  let s := if bitN w 11 then s.forAll (s.haltCores w) (fun s p => s.setHalt d p false) else s
  s.showJobs

/-- HALT: a write of SEC_HALT with HALT set. -/
def execHalt (w : Nat) (s : State) : Host.Outcome State Fault Refusal :=
  .next (s.served 0x200300 (fun s => s.haltWrite (orBit w 10)))

/-- RESUME: a write of SEC_HALT with RESUME set. -/
def execResume (w : Nat) (s : State) : Host.Outcome State Fault Refusal :=
  .next (s.served 0x200300 (fun s => s.haltWrite (orBit w 11)))

end Sys2Proof.Machine
end

