-- ==== Sys2Proof/Machine/Mailbox.lean ====
section
/-!
DEFINITION. The mailbox engine and the management transport (R519, R525, R536 to R538, R551, R552): requests in order of
arrival, the messages of Table 14-9, the MCTP control messages, the SMBus alert response.
-/
namespace Sys2Proof.Machine

/-- Change the mailbox engine. -/
def State.modMbox (s : State) (f : Mbox → Mbox) : State := { s with mbox := f s.mbox }

/-- Bytes of the BAR0 mailbox, header included. -/
def mboxBytes : Nat := 65536

/-- A message: the header of R537 and the payload. -/
def mboxMessage (msg tag status : Nat) (payload : List Byte) : List Byte :=
  bytesLE 2 msg ++ bytesLE 4 payload.length ++ bytesLE 2 tag ++ bytesLE 2 status ++ zeros 6 ++ payload

/-- SEC_MBOX_STAT.BUSY follows the BAR0 requests that the engine holds. -/
def State.showBusy (s : State) : State :=
  s.setFld 0 SEC_MBOX_STAT_BUSY (b2n (s.mbox.queue.any (fun r => r.path == .bar0)))

/-- Give a path its reply: on BAR0 it replaces the message, sets DONE and STATUS and raises MBOX_DONE. -/
def State.mboxReply (s : State) (path : MboxPath) (msg tag status : Nat) (payload : List Byte) : State :=
  let m := mboxMessage msg tag status payload
  match path with
  | .bar0 =>
    let s := s.modMbox (fun x => { x with buf := (x.buf.zero 0 mboxBytes).write 0 (m.take mboxBytes) })
    ((s.setFld 0 SEC_MBOX_STAT_DONE 1).setFld 0 SEC_MBOX_STAT_STATUS status).secAlert 3
  | .smbus => s.modMbox (fun x => { x with replySmb := m })
  | .pcie => s.modMbox (fun x => { x with replyPci := m })

/-- A message has been served: its reply goes out and the engine is free of it. -/
def State.mboxServed (s : State) (r : MboxReq) (status : Nat) (payload : List Byte) : State :=
  let s := s.bump 0 SEC_CNT_MBOX_V
  let s := s.modMbox (fun x => { x with queue := x.queue.drop 1 })
  (s.mboxReply r.path r.msg r.tag status payload).showBusy

/-! ## The messages of Table 14-9 -/

/-- SEC_DEVICE_ID as 32 B. -/
def State.deviceIdBytes (s : State) : List Byte := (List.range 4).flatMap (fun k => bytesLE 8 (s.fld 0 SEC_DEVICE_ID_V k))

/-- GET_STATE: SEC_STAT, SEC_DEVICE_ID, FW_VERSION. -/
def State.msgGetState (s : State) (r : MboxReq) : State :=
  s.mboxServed r 0 (bytesLE 4 (s.reg 0x200000).toNat ++ s.deviceIdBytes ++ padTo 8 (Config.fwVersion.take 4))

/-- The owner's key is installed: digest, seed and CLAIMED are programmed, the owner's keys are formed unless zeroised in this
start-up, and the cellar unlocks (R514, R518, R519). A session ends first (R529). -/
def State.claimed (s : State) (key : List Byte) : State :=
  let s := s.endSession
  let seed := freeBytes s.fresh 32
  let s := s.drawnN 32
  let s := { s with nvm := { s.nvm with ownerKey := key, ownerDigest := shake256 key 32, ownerSeed := seed, claimed := true } }
  let ok := s.sec.drs.isSome && !s.bit 0 SEC_STAT_KEYS_ZEROISED
  let s := (s.formOwner ok).showLock
  let s := if ok then s.setFld 0 CLR_STAT_RECOVERING 1 else s
  ((s.setFld 0 SEC_STAT_STATE 1).secEvent 1 0).secAlert 5

/-- CLAIM. -/
def State.msgClaim (s : State) (r : MboxReq) : State :=
  if r.payload.length ≠ 1952 then s.mboxServed r 0x1008 []
  else if s.secState ≠ 0 || s.bit 0 SEC_STAT_CLAIM_SPOILED then s.mboxServed r 0x300C []
  else (s.claimed r.payload).mboxServed r 0 []

/-- ATTEST: the block of R534 without the buffer address. -/
def State.msgAttest (s : State) (r : MboxReq) : State :=
  if r.payload.length ≠ 64 then s.mboxServed r 0x1008 []
  else if leAt r.payload 34 30 ≠ 0 then s.mboxServed r 0x1002 []
  else match s.attestScope (leAt r.payload 32 1) (leAt r.payload 33 1) with
    | .error st => s.mboxServed r st []
    | .ok seed => (s.bump 0 SEC_CNT_SIGNS_V).mboxServed r 0 (s.evidence (r.payload.take 32) (leAt r.payload 33 1) seed)

/-- GET_CERT: SCOPE and SLOT; the chain, at most 65,520 B. -/
def State.msgGetCert (s : State) (r : MboxReq) : State :=
  if r.payload.length ≠ 2 then s.mboxServed r 0x1008 []
  else match s.attestScope (leAt r.payload 0 1) (leAt r.payload 1 1) with
    | .error st => s.mboxServed r st []
    | .ok seed =>
      let ch := s.chain (leAt r.payload 1 1) seed
      if 65520 < ch.length then s.mboxServed r 0x1021 []
      else (s.bump 0 SEC_CNT_SIGNS_V (b2n seed.isSome)).mboxServed r 0 ch

/-- NEW_NONCE: the new nonce. -/
def State.msgNewNonce (s : State) (r : MboxReq) : State :=
  if !r.payload.isEmpty then s.mboxServed r 0x1008 [] else
  let s := s.newNonce
  s.mboxServed r 0 ((List.range 4).flatMap (fun k => bytesLE 8 (s.fld 0 SEC_NONCE_V k)))

/-- A mailbox D2 entry takes its last steps. -/
def State.d2Mailbox (s : State) (r : MboxReq) : State :=
  let s := (s.modSec (fun x => { x with d2wait := none })).d2Zeroise
  (s.beginSession 2 1).mboxServed r 0 []

/-- DEBUG_ENTER: a D2 entry stays at the front of the engine until the cellar rests; so does one that meets another's D2
entry. -/
def State.msgDebugEnter (s : State) (r : MboxReq) : State :=
  if s.sec.d2wait = some (.mailbox r.path r.tag) then (if s.cellarRests then s.d2Mailbox r else s)
  else if s.sec.d2wait.isSome then s
  else if r.payload.length ≠ 3456 then s.mboxServed r 0x1008 []
  else match s.judge r.payload 1 with
    | (s, some st) => s.mboxServed r st []
    | (s, none) =>
      if leAt r.payload 7 1 = 1 then (s.beginSession 1 1).mboxServed r 0 []
      else
        let s := s.d2Asked (.mailbox r.path r.tag)
        if s.cellarRests then s.d2Mailbox r else s

/-- DEBUG_EXIT. -/
def State.msgDebugExit (s : State) (r : MboxReq) : State :=
  if !r.payload.isEmpty then s.mboxServed r 0x1008 []
  else if s.level = 0 then s.mboxServed r 0x3007 []
  else s.endSession.mboxServed r 0 []

/-- Bytes of the firmware staging area. -/
def stagingBytes : Nat := 16777216

/-- FW_WRITE: an offset and up to 4,096 B of image, inside the staging area. -/
def State.msgFwWrite (s : State) (r : MboxReq) : State :=
  let n := r.payload.length
  if n < 4 || 4100 < n then s.mboxServed r 0x1008 []
  else if stagingBytes < leAt r.payload 0 4 + (n - 4) then s.mboxServed r 0x1005 []
  else (s.modMbox (fun x => { x with staging := x.staging.write (leAt r.payload 0 4) (r.payload.drop 4) })).mboxServed r 0 []

/-- The staged image as its header, its length and its signature give it (R515). -/
def State.staged (s : State) : FwCopy :=
  let h := s.mbox.staging.read 0 256
  let n := 256 + Config.imageLen h
  let fits := leAt h 0 4 == 0x4D534B4F && decide (Config.imageLen h ≤ 16777216) && decide (Config.imageSvn h ≤ 63)
  let d := shake256 (s.mbox.staging.read 0 n) 64
  ⟨d, Config.imageSvn h, Config.imageStepping h, fits && Config.verify Config.firmwareKey d (s.mbox.staging.read n 3309)⟩

/-- FW_VERIFY: the staged image is verified and written to copy B, to both copies while FATAL is 1 (R538). -/
def State.msgFwVerify (s : State) (r : MboxReq) : State :=
  if !r.payload.isEmpty then s.mboxServed r 0x1008 [] else
  let f := s.staged
  let s := s.bump 0 SEC_CNT_VERIFIES_V
  if !f.sigOk || f.stepping ≠ 0xB0 then s.mboxServed r 0x300D []
  else if f.svn < s.fld 0 SEC_STAT_SVN_MIN then s.mboxServed r 0x300E []
  else
    let s := { s with nvm := { s.nvm with fwB := f, fwA := if s.bit 0 HUB_STATUS_FATAL then f else s.nvm.fwA } }
    (s.measureExtend 4 (padTo 64 f.digest ++ bytesLE 1 1 ++ zeros 7)).mboxServed r 0 []

/-- FW_ACTIVATE: copy B becomes copy A; LOCK raises SVN_MIN to its SVN. -/
def State.msgFwActivate (s : State) (r : MboxReq) : State :=
  if r.payload.length ≠ 1 then s.mboxServed r 0x1008 []
  else if leAt r.payload 0 1 / 2 ≠ 0 then s.mboxServed r 0x1002 []
  else
    let f := s.nvm.fwB
    let lock := leAt r.payload 0 1 == 1
    let s := { s with nvm := { s.nvm with fwA := f, svnMin := if lock then max s.nvm.svnMin f.svn else s.nvm.svnMin } }
    let s := s.setFld 0 SEC_STAT_SVN_MIN s.nvm.svnMin
    (s.measureExtend 4 (padTo 64 f.digest ++ bytesLE 1 2 ++ zeros 7)).mboxServed r 0 []

/-- A message that Table 14-9 does not list: the spec gives it no STATUS (a free value). -/
def State.msgUnknown (s : State) (r : MboxReq) : State := s.drawn.mboxServed r (s.free.toNat % 65536) []

/-! ## The engine -/

/-- May the engine answer this request now? While FATAL is 1 the boot ROM answers on SMBus only, with GET_STATE, FW_WRITE and
FW_VERIFY (R538). -/
def State.mboxAnswers (s : State) (r : MboxReq) : Bool :=
  s.power.aux && (!s.bit 0 HUB_STATUS_FATAL || (r.path == .smbus && [0x0001, 0x0010, 0x0011].contains r.msg))

/-- Serve a request that stands at the front of the engine. -/
def State.mboxServe (s : State) (r : MboxReq) : State :=
  if !s.mboxAnswers r then (s.modMbox (fun x => { x with queue := x.queue.drop 1 })).showBusy
  else if r.msg = 0x0001 then s.msgGetState r
  else if r.msg = 0x0002 then s.msgClaim r
  else if r.msg = 0x0003 then s.msgAttest r
  else if r.msg = 0x0004 then s.msgGetCert r
  else if r.msg = 0x0005 then s.msgNewNonce r
  else if r.msg = 0x0006 then s.msgDebugEnter r
  else if r.msg = 0x0007 then s.msgDebugExit r
  else if r.msg = 0x0010 then s.msgFwWrite r
  else if r.msg = 0x0011 then s.msgFwVerify r
  else if r.msg = 0x0012 then s.msgFwActivate r
  else s.msgUnknown r

/-- Serve requests that came over MCTP, and messages of no listed code, until a BAR0 message is at the front: that one is
served by its own command. -/
def mboxDrain : Nat → State → State
  | 0, s => s
  | n + 1, s => match s.mbox.queue with
    | [] => s
    | r :: rest =>
      if r.path == .bar0 && ([1, 2, 3, 4, 5, 6, 7, 0x10, 0x11, 0x12] : List Nat).contains r.msg then s
      else
        let t := s.mboxServe r
        if t.mbox.queue.length = rest.length then mboxDrain n t else t

/-- The engine goes on. -/
def State.mboxGoOn (s : State) : State := mboxDrain s.mbox.queue.length s

/-- A request arrives on a path: it joins the engine, which serves one and holds one waiting for each path; a further one is
answered 0x300F. -/
def State.mboxArrive (s : State) (r : MboxReq) : State :=
  let held := ((s.mbox.queue.drop 1).filter (fun x => x.path == r.path)).length
  if s.mbox.queue.isEmpty || held = 0 then (s.modMbox (fun x => { x with queue := x.queue ++ [r] })).showBusy
  else s.mboxReply r.path r.msg r.tag 0x300F []

/-- An SMBus transaction addressed to the module is counted, and its rate, which is open, is seen (Table 15-11). -/
def State.smbusSeen (s : State) (path : MboxPath) : State :=
  if path == .smbus then
    ((s.bump 0 HUB_SB_CNT_SMB_V).setFld 0 HUB_SB_STAT_SMB_RATE (s.free.toNat % 3)).drawn
  else s

/-- A mailbox message of a listed code. On the BAR0 path the message at the front of the engine is served, if it has that
code; over MCTP the message arrives, and the engine serves it in its turn. -/
def State.mboxRow (s : State) (msg : Nat) (m : MboxMsg) : State :=
  if !s.power.aux then s
  else if m.path == .bar0 then
    match s.mbox.queue with
    | [] => s
    | r :: _ => if r.path == .bar0 && r.msg == msg then (s.mboxServe r).mboxGoOn else s
  else ((s.smbusSeen m.path).mboxArrive ⟨m.path, msg, m.tag, m.payload⟩).mboxGoOn

/-- A write of SEC_MBOX_CTRL.GO: the message of the buffer is submitted. -/
def State.mboxSubmit (s : State) : State :=
  if !s.power.aux || s.bit 0 HUB_STATUS_FATAL then s else
  let h := s.mbox.buf.read 0 16
  let n := min (leAt h 2 4) 65520
  (s.mboxArrive ⟨.bar0, leAt h 0 2, leAt h 6 2, s.mbox.buf.read 16 n⟩).mboxGoOn

/-- MBOX_GO. -/
def execMboxGo (s : State) : Host.Outcome State Fault Refusal :=
  .next (s.served 0x200500 State.mboxSubmit)
/-- GET_STATE (0x0001). -/
def execGetState (m : MboxMsg) (s : State) : Host.Outcome State Fault Refusal := .next (s.mboxRow 0x0001 m)
/-- A CLAIM that would end in `t`, but for a power loss before CLAIMED is programmed: BLANK stays, the claim is spoiled (R519). -/
def State.claimCut (s t : State) (dv : Nat) : State :=
  if !t.nvm.claimed || s.nvm.claimed || 440 ≤ dv then t else
  ((s.drawnN 32).modNvm (fun n => { n with
    ownerDigest := t.nvm.ownerDigest, ownerSeed := t.nvm.ownerSeed, spoiled := true })).loseInput dv

/-- CLAIM (0x0002), whose fuses a power loss may cut short. -/
def execClaim (m : MboxMsg) (cut : Option Nat) (s : State) : Host.Outcome State Fault Refusal :=
  .next (match cut with
    | none => s.mboxRow 0x0002 m
    | some dv => s.claimCut (s.mboxRow 0x0002 m) dv)
/-- ATTEST message (0x0003). -/
def execMboxAttest (m : MboxMsg) (s : State) : Host.Outcome State Fault Refusal := .next (s.mboxRow 0x0003 m)
/-- GET_CERT message (0x0004). -/
def execMboxGetCert (m : MboxMsg) (s : State) : Host.Outcome State Fault Refusal := .next (s.mboxRow 0x0004 m)
/-- NEW_NONCE message (0x0005). -/
def execMboxNewNonce (m : MboxMsg) (s : State) : Host.Outcome State Fault Refusal := .next (s.mboxRow 0x0005 m)
/-- DEBUG_ENTER message (0x0006). -/
def execMboxDebugEnter (m : MboxMsg) (s : State) : Host.Outcome State Fault Refusal := .next (s.mboxRow 0x0006 m)
/-- DEBUG_EXIT message (0x0007). -/
def execMboxDebugExit (m : MboxMsg) (s : State) : Host.Outcome State Fault Refusal := .next (s.mboxRow 0x0007 m)
/-- FW_WRITE (0x0010). -/
def execFwWrite (m : MboxMsg) (s : State) : Host.Outcome State Fault Refusal := .next (s.mboxRow 0x0010 m)
/-- FW_VERIFY (0x0011). -/
def execFwVerify (m : MboxMsg) (s : State) : Host.Outcome State Fault Refusal := .next (s.mboxRow 0x0011 m)
/-- FW_ACTIVATE (0x0012). -/
def execFwActivate (m : MboxMsg) (s : State) : Host.Outcome State Fault Refusal := .next (s.mboxRow 0x0012 m)

/-! ## MCTP control messages (R536) -/

/-- Does the module answer MCTP control messages? -/
def State.mctpUp (s : State) : Bool := s.power.aux && !s.bit 0 HUB_STATUS_FATAL

/-- Answer a control message on a path. -/
def State.mctpReply (s : State) (path : MctpPath) (bs : List Byte) : State :=
  match path with
  | .smbus => (s.smbusSeen .smbus).modMbox (fun x => { x with replySmb := bs })
  | .pcie => s.modMbox (fun x => { x with replyPci := bs })

/-- The endpoint identifier on a path. -/
def State.eid (s : State) : MctpPath → Nat
  | .smbus => s.mbox.eidSmb
  | .pcie => s.mbox.eidPci

/-- SET_ENDPOINT_ID: 0 and 0xFF are no endpoint identifiers (completion code 2); any other is taken. -/
def execSetEndpointId (path : MctpPath) (eid : Nat) (s : State) : Host.Outcome State Fault Refusal :=
  .next (
    if !s.mctpUp then s
    else if eid = 0 || 255 ≤ eid then s.mctpReply path [2]
    else
      let s := s.modMbox (fun x => match path with
        | .smbus => { x with eidSmb := eid }
        | .pcie => { x with eidPci := eid })
      s.mctpReply path (bytesLE 1 0 ++ bytesLE 1 0 ++ bytesLE 1 eid ++ bytesLE 1 0))

/-- GET_ENDPOINT_ID: the identifier, a simple endpoint, no medium-specific information. -/
def execGetEndpointId (path : MctpPath) (s : State) : Host.Outcome State Fault Refusal :=
  .next (if !s.mctpUp then s else s.mctpReply path (bytesLE 1 0 ++ bytesLE 1 (s.eid path) ++ zeros 2))

/-- GET_MCTP_VERSION_SUPPORT for a message type: the base specification, control messages and type 0x7E are supported; any other
type is answered with completion code 0x80. -/
def execGetMctpVersionSupport (path : MctpPath) (ty : Nat) (s : State) : Host.Outcome State Fault Refusal :=
  .next (
    if !s.mctpUp then s
    else if ty = 0xFF || ty = 0x00 || ty = 0x7E then
      let v := Config.mctpVersions ty
      s.mctpReply path (bytesLE 1 0 ++ bytesLE 1 (v.length / 4) ++ v)
    else s.mctpReply path [0x80])

/-- GET_MESSAGE_TYPE_SUPPORT: one type beside control messages, 0x7E. -/
def execGetMessageTypeSupport (path : MctpPath) (s : State) : Host.Outcome State Fault Refusal :=
  .next (if !s.mctpUp then s else s.mctpReply path [0, 1, 0x7E])

/-- SMBUS_ALERT_RESPONSE: while ALERT# is asserted the module answers with its address (R551, R552). -/
def execSmbusAlertResponse (s : State) : Host.Outcome State Fault Refusal :=
  .next (
    if !s.power.aux || !s.bit 0 HUB_SB_STAT_ALERT then s
    else s.modMbox (fun x => { x with replySmb := bytesLE 1 (2 * (0x5C + s.pins.addrSel)) }))

end Sys2Proof.Machine
end

