-- ==== Sys2Proof/Machine/HostBus.lean ====
section
/-!
DEFINITION. Accesses from outside: BAR0 reads and writes with the access codes of each field and what a write of a register
with behaviour of its own does (R11, R13, R36 to R44), the BAR2 window (R32 to R35, R282), and the JTAG port (R521, R523).
-/
namespace Sys2Proof.Machine

/-! ## Where a BAR0 address lies -/

/-- The bank whose block holds an address, and the offset in the block. -/
def bankOf (a : Nat) : Option (Nat × Nat) :=
  match dieOf a with
  | none => none
  | some d =>
    let o := (a - 0x1000000) % 0x400000
    if within 0x80000 0x81000 o then some (storeBank d ((o - 0x80000) / 0x100), o % 0x100)
    else if within 0x100000 0x1C8000 o then
      let c := (o - 0x100000) % 0x2000
      if within 0x1000 0x1800 c then some (shelfBank d ((o - 0x100000) / 0x2000) ((c - 0x1000) / 0x100), c % 0x100) else none
    else none

/-- The array whose block holds an address: die, physical core, array, and the offset in the block. -/
def arrOf (a : Nat) : Option (Nat × Nat × Nat × Nat) :=
  match dieOf a with
  | none => none
  | some d =>
    let o := (a - 0x1000000) % 0x400000
    if within 0x100000 0x1C8000 o then
      let c := (o - 0x100000) % 0x2000
      if within 0xC00 0x1000 c then some (d, (o - 0x100000) / 0x2000, (c - 0xC00) / 0x100, c % 0x100) else none
    else none

/-- The mailbox buffer and the trace ring (R541). -/
def inMbox (a : Nat) : Bool := within 0x210000 0x220000 a
/-- The trace ring. -/
def inTrace (a : Nat) : Bool := within 0x280000 0x300000 a

/-! ## Writes -/

/-- The value of a register after a write of `v` to the bits of `mask`: RW bits are set, W1C bits written as 1 are cleared,
every other bit keeps its value (R11, R13). -/
def RegRow.written (r : RegRow) (old v mask : Nat) : Word :=
  let w := BitVec.ofNat 64 (v &&& mask)
  let rw := BitVec.ofNat 64 (r.rw &&& mask)
  let w1c := BitVec.ofNat 64 r.w1c
  ((BitVec.ofNat 64 old &&& ~~~ rw) ||| (w &&& rw)) &&& ~~~ (w &&& w1c)

/-- A write to a register without behaviour of its own. -/
def State.plainWrite (s : State) (a v mask : Nat) : State :=
  match regRow a with
  | none => s
  | some r => s.setReg a (r.written (s.reg a).toNat v mask)

/-- Every island shows the frequency that PWR_CTRL.BOOST gives it. -/
def State.showIslands (s : State) : State :=
  s.forAll (allDies.filter (fun d => s.inService d)) (fun s d => s.forAll (s.coresIn d) (fun s p => s.showIsland d p))

/-- A write to a bank's block. -/
def State.bankWrite (s : State) (b o a v mask : Nat) : State :=
  if o = 0x00 then s.bankOwnWrite b (v % 256)
  else if o = 0x10 then s.bankPwrReq b v
  else if o = 0x88 then
    if mask = 2 ^ 64 - 1 then s.dbgWrite b 0 8 v
    else if mask % 2 = 1 then s.dbgWrite b 0 4 (v % 2 ^ 32) else s.dbgWrite b 4 4 (v / 2 ^ 32)
  else s.plainWrite a v mask

/-- A write to a hub register. -/
def State.hubWrite (s : State) (a v mask : Nat) : State :=
  if within 0x101000 0x103000 a && a % 0x80 = 0x18 then s.qcfgWrite ((a - 0x101000) / 0x80) v
  else if within 0x180000 0x180400 a && a % 0x10 = 0 then s.sqTail ((a - 0x180000) / 0x10) v
  else if within 0x180000 0x180400 a && a % 0x10 = 4 then s.cqHead ((a - 0x180000) / 0x10) v
  else if within 0x180000 0x180400 a && a % 0x10 = 8 then s.evtHead ((a - 0x180000) / 0x10) v
  else if a = 0x100010 then
    (if s.bit 0 KGR_QSTAT_RESETTING (v % 64) then s else s.resetJob (v % 64))
  else if a = 0x200008 then (if v % 2 = 1 then s.newNonce else s)
  else if a = 0x200300 then s.haltWrite v
  else if a = 0x200500 then (if v % 2 = 1 then s.mboxSubmit else s)
  else
    let s := s.plainWrite a v mask
    if a = 0x300010 then s.showIslands
    else if a = 0x300040 || a = 0x300048 || a = 0x200600 || a = 0x200608 then s.syncAlert
    else s

/-- A write of the bits of `mask` of the register at `a`. -/
def State.regWrite (s : State) (a v mask : Nat) : State :=
  match bankOf a with
  | some (b, o) => s.bankWrite b o a v mask
  | none => match arrOf a with
    | some (d, p, n, o) => if o = 0x58 then s.arrInject d p n v else s.plainWrite a v mask
    | none => if (dieOf a).isSome then s.plainWrite a v mask else s.hubWrite a v mask

/-- Width of the register that stands at an address; 0 where none does. -/
def widthAt (a : Nat) : Nat := match regRow a with
  | some r => r.width
  | none => 0

/-- A 4 B write: to a 32-bit register, or to one half of a 64-bit one. -/
def State.write4 (s : State) (a v : Nat) : State :=
  if widthAt a ≠ 0 then s.regWrite a v (2 ^ 32 - 1)
  else if widthAt (a - 4) = 64 then s.regWrite (a - 4) (v * 2 ^ 32) (2 ^ 64 - 2 ^ 32)
  else s

/-- A BAR0 write that is naturally aligned, of 4 B or 8 B; any other has no effect (R39, R40). -/
def State.bar0Write (s : State) (a size v : Nat) : State :=
  if !(size == 4 || size == 8) || a % size != 0 || !s.serves a then s
  else if inMbox a then s.modMbox (fun x => { x with buf := x.buf.write (a - 0x210000) (bytesLE size v) })
  else if size = 4 then s.write4 a (v % 2 ^ 32)
  else if widthAt a = 64 then s.regWrite a (v % 2 ^ 64) (2 ^ 64 - 1)
  else (s.write4 a (v % 2 ^ 32)).write4 (a + 4) (v / 2 ^ 32 % 2 ^ 32)

/-- REGISTER_WRITE. -/
def execRegisterWrite (addr : Nat) (size : Nat) (data : Nat) (s : State) : Host.Outcome State Fault Refusal :=
  if 0x4000000 < addr + size then .fault .outsideBar else .next (s.bar0Write addr size data)

/-! ## Reads -/

/-- The queue whose status, position, wait or table-load registers stand at an address of a die's window: logical core, or 96. -/
def State.queueAt (s : State) (d a : Nat) : Option Nat :=
  let o := (a - 0x1000000) % 0x400000
  if within 0x300 0x310 o then some 96
  else if within 0x100000 0x1C8000 o then
    let c := (o - 0x100000) % 0x2000
    if within 0x400 0x418 c || within 0x100 0x108 c then s.logicalOf d ((o - 0x100000) / 0x2000) else none
  else none

/-- SEQ_STAT of a core queue, DIE_DQ_STAT of the die queue. -/
def State.queueStat (s : State) (d q : Nat) : Word :=
  if q = 96 then s.reg (DIE_DQ_STAT_STATE.at (dieAt d) 0) else s.reg (SEQ_STAT_STATE.at (coreAt d (s.phys d q)) 0)

/-- The registers of a queue show it as it stands when they are read (R252). -/
def State.seeQueue (s : State) (a : Nat) : State :=
  s.forAll ((dieOf a).bind (fun d => (s.queueAt d a).map (fun q => (d, q)))).toList (fun s x =>
    let st := s.queueStat x.1 x.2
    if bitsOf st 13 13 = 1 then s.showQueue (bitsOf st 12 7) x.1 x.2 else s)

/-- The value that a register shows: HUB_TIMESTAMP counts (R7), the debug window reads its bank, every other is stored. -/
def State.regRead (s : State) (a : Nat) : State × Nat :=
  if a = 0x8 then (s, s.ts)
  else match bankOf a with
    | some (b, o) => if o = 0x88 then s.dbgRead b else (s, (s.reg a).toNat)
    | none => (s, (s.reg a).toNat)

/-- Four bytes of the trace ring: zero at D0 (R522). -/
def State.traceRead (s : State) (a : Nat) : Nat :=
  if s.level = 0 then 0
  else Tab.getD s.sec.trace ((a - 0x280000) / 16) 0 / 2 ^ (8 * ((a - 0x280000) % 16)) % 2 ^ 32

/-- Four bytes of BAR0, without the latch: a register, half of one, the mailbox buffer or the trace ring; reserved addresses
read zero (R40). -/
def State.value4 (s : State) (a : Nat) : State × Nat :=
  if inMbox a then (s, s.mbox.buf.readN (a - 0x210000) 4)
  else if inTrace a then (s, s.traceRead a)
  else if widthAt a = 64 then
    let r := s.regRead a
    (r.1, r.2 % 2 ^ 32)
  else if widthAt a = 32 then (s, (s.reg a).toNat % 2 ^ 32)
  else if widthAt (a - 4) = 64 then
    let r := s.regRead (a - 4)
    (r.1, r.2 / 2 ^ 32)
  else (s, 0)

/-- Eight bytes of BAR0: a 64-bit register is read whole, anything else by its two words. -/
def State.value8 (s : State) (a : Nat) : State × Nat :=
  if widthAt a = 64 then s.regRead a
  else
    let lo := s.value4 a
    let hi := lo.1.value4 (a + 4)
    (hi.1, lo.2 % 2 ^ 32 + hi.2 * 2 ^ 32)

/-- What an access reads without the latch: 4 B or 8 B, naturally aligned; any other access, one that no register serves and
every reserved address read zero (R39, R40, R42). -/
def State.regValue (s : State) (a size : Nat) : State × Nat :=
  if !(size == 4 || size == 8) || a % size != 0 || !s.serves a then (s, 0)
  else if size = 4 then (s.seeQueue a).value4 a else (s.seeQueue a).value8 a

/-- A 4 B read with the BAR0 latch of R43. -/
def State.read4 (s : State) (a : Nat) : State × Nat :=
  if !s.serves a || inMbox a || inTrace a then s.regValue a 4
  else
  let s := s.seeQueue a
  if widthAt a = 64 then
    let r := s.regRead a
    ({ r.1 with latch := some (a, r.2 / 2 ^ 32) }, r.2 % 2 ^ 32)
  else if widthAt a ≠ 32 && widthAt (a - 4) = 64 then
    match s.latch with
    | some (b, h) => if b = a - 4 then (s, h) else s.value4 a
    | none => s.value4 a
  else s.value4 a

/-- BAR0_HALF_READ: a BAR0 read of `size` bytes. A 4 B read works the latch; an 8 B read is atomic and does not use it; a read
of any other size, or one that is not naturally aligned, completes and returns zeros (R39, R43). -/
def execBar0HalfRead (addr : Nat) (size : Nat) (s : State) : Host.Outcome State Fault Refusal :=
  if 0x4000000 < addr + size then .fault .outsideBar
  else .next (
    let r := if size = 4 && addr % 4 = 0 then s.read4 addr else s.regValue addr size
    { r.1 with rd := ⟨bytesLE size r.2, false⟩ })

/-! ## The BAR2 window -/

/-- Size of the window (R33). -/
def State.bar2Bytes (s : State) : Nat := 2 ^ (28 + min s.bar2Log 9)

/-- The larder address that an offset reaches; BASE bits below the window's alignment count as zero (R33, Table 1-7). -/
def State.bar2La (s : State) (off : Nat) : Nat :=
  let base := s.fld 0 HUB_BAR2_WIN_BASE * 2 ^ 28
  base / s.bar2Bytes * s.bar2Bytes + off

/-- An access reached an unpopulated larder address (R34). -/
def State.unpop (s : State) (la : Nat) : State :=
  if s.bit 0 HUB_BAR2_ERR_UNPOP then s
  else (s.setFld 0 HUB_BAR2_ERR_UNPOP 1).setFld 0 HUB_BAR2_ERR_ADDR (la / 64)

/-- The pieces of [la, la + n) by granule: granule, first address, bytes. -/
def granulePieces (la n : Nat) : List (Nat × Nat × Nat) :=
  (List.range (granuleSpan la n).2).map (fun i =>
    let g := la / 64 + i
    let lo := max la (g * 64)
    (g, lo, min (la + n) (g * 64 + 64) - lo))

/-- BAR2_READ: larder data, all ones for an unpopulated address, a poisoned completion for a poisoned granule; `errs` are the
errors that its bursts meet. While the dies have no power the larder has no contents: the bytes are open. -/
def execBar2Read (off : Nat) (len : Nat) (errs : List BurstErr) (s : State) : Host.Outcome State Fault Refusal :=
  if s.bar2Bytes < off + len then .fault .outsideBar
  else .next (
    let la := s.bar2La off
    let ps := granulePieces la len
    let s := match ps.find? (fun p => !laPopulated p.2.1) with
      | some p => s.unpop p.2.1
      | none => s
    if !s.power.main then
      let bs := (List.range len).map (fun i =>
        if laPopulated (la + i) then (freeBytes (s.fresh + i) 1).headD 0 else 0xFF)
      { s.drawnN len with rd := ⟨bs, false⟩ }
    else
      let s := s.bursts [(la, len)] [] errs
      let bad := ps.find? (fun p => laPopulated p.2.1 && s.larder.poisoned p.2.1)
      let s := match bad with
        | some p => s.poisonLog 1 p.2.1
        | none => s
      let bs := (List.range len).map (fun i => if laPopulated (la + i) then s.larder.read1 (la + i) else 0xFF)
      { s with rd := ⟨bs, bad.isSome⟩ })

/-- One granule's part of a BAR2 write: a whole granule takes the TLP's poison, a part ORs it with the granule's own
(R282); an unpopulated address discards it (R34). -/
def State.bar2Piece (s : State) (la : Nat) (data : List Byte) (poison : Bool) (p : Nat × Nat × Nat) : State :=
  if !laPopulated p.2.1 then s.unpop p.2.1
  else if !s.power.main then s
  else
    let bs := (data.drop (p.2.1 - la)).take p.2.2
    let s := s.larderWrite p.2.1 bs (poison || (p.2.2 != 64 && s.larder.poisoned p.2.1))
    if poison then s.poisonLog 2 p.2.1 else s

/-- BAR2_WRITE: a granule that it covers in part is read, too; `errs` are the errors that its bursts meet. -/
def execBar2Write (off : Nat) (data : List Byte) (poison : Bool) (errs : List BurstErr) (s : State) :
    Host.Outcome State Fault Refusal :=
  if s.bar2Bytes < off + data.length then .fault .outsideBar
  else .next (
    let la := s.bar2La off
    let parts := ((granulePieces la data.length).filter (fun p => p.2.2 != 64)).map (fun p => p.2)
    let s := if s.power.main then s.bursts parts [(la, data.length)] errs else s
    s.forAll (granulePieces la data.length) (fun s p => s.bar2Piece la data poison p))

/-! ## JTAG (R521, R523): `pins.tdo` holds what the last instruction shifted out, first bit lowest -/

/-- Shift a value out on TDO, while the auxiliary domain is powered. -/
def State.tdoOut (s : State) (v : Nat) : State :=
  if s.power.aux then { s with pins := { s.pins with tdo := v } } else s

/-- BYPASS: a single bit, captured as 0, ahead of what is shifted in. -/
def State.bypass (s : State) (v : Nat) : State := s.tdoOut (2 * v)

/-- JTAG_IDCODE. -/
def execJtagIdcode (s : State) : Host.Outcome State Fault Refusal := .next (s.tdoOut Config.idcode)

/-- JTAG_BYPASS. -/
def execJtagBypass (b : Bool) (s : State) : Host.Outcome State Fault Refusal := .next (s.bypass (b2n b))

/-- JTAG_REG_READ: at D1 and D2 it reads any BAR0 register; at D0 it acts as BYPASS. -/
def execJtagRegRead (addr : Nat) (size : Nat) (s : State) : Host.Outcome State Fault Refusal :=
  .next (
    if !s.power.aux then s
    else if s.level = 0 then s.bypass addr
    else
      let r := s.regValue addr size
      r.1.tdoOut r.2)

/-- JTAG_REG_WRITE: at D2 a BAR0 write; else BYPASS. -/
def execJtagRegWrite (addr : Nat) (size : Nat) (data : Nat) (s : State) : Host.Outcome State Fault Refusal :=
  .next (
    if !s.power.aux then s
    else if !s.d2 then s.bypass addr
    else if 0x4000000 < addr + size then s
    else s.bar0Write addr size data)

/-- JTAG_SCAN: at D2 the state of a halted core, in an order the spec leaves open (a free value), zero from a core that is not
halted; else BYPASS. -/
def execJtagScan (d : Die) (p : Phys) (s : State) : Host.Outcome State Fault Refusal :=
  .next (
    if !s.power.aux then s
    else if !s.d2 then s.bypass (d.val * 128 + p.val)
    else if (s.core d p).halted then s.drawn.tdoOut s.free.toNat
    else s.tdoOut 0)

/-- JTAG_HALT: at D2 the core halts as under SEC_HALT; else BYPASS. -/
def execJtagHalt (d : Die) (p : Phys) (s : State) : Host.Outcome State Fault Refusal :=
  .next (
    if !s.power.aux then s
    else if !s.d2 then s.bypass (d.val * 128 + p.val)
    else (s.setHalt d p true).showJobs)

/-- JTAG_SAMPLE_PRELOAD: at D2 the pins' levels, in a cell order the spec leaves open (a free value), are shifted out and the
boundary cells take what is shifted in; else BYPASS. -/
def execJtagSamplePreload (v : Nat) (s : State) : Host.Outcome State Fault Refusal :=
  .next (
    if !s.power.aux then s
    else if !s.d2 then s.bypass v
    else { s.drawn.tdoOut s.free.toNat with pins := { (s.drawn.tdoOut s.free.toNat).pins with boundary := v } })

/-- JTAG_EXTEST: at D2 the boundary cells drive the pins with what is shifted in, and what the pins present is shifted out;
else BYPASS. -/
def execJtagExtest (v : Nat) (s : State) : Host.Outcome State Fault Refusal :=
  .next (
    if !s.power.aux then s
    else if !s.d2 then s.bypass v
    else { s.drawn.tdoOut s.free.toNat with pins := { (s.drawn.tdoOut s.free.toNat).pins with boundary := v } })

end Sys2Proof.Machine
end

