-- ==== Sys2Proof/Machine/Transfers.lean ====
section
/-!
DEFINITION. The transfers of die queues (R239, R289 to R291): XFER, its completion, and the attic's responses, which may meet
other transfers in a bank.
-/
namespace Sys2Proof.Machine

/-- The larder range of a tile, as bursts name it. -/
def TileAt.larder (t : TileAt) : List (Nat × Nat) := if t.place.tier = 2 then [(t.place.addr, t.place.len)] else []

/-- XFER: a free DMA engine of the die takes it, and an engine of the destination die, if one is free, its arriving granules
(R225, R289). Its accesses to banks are presented when it issues (R261, R263; log entry 45); what goes to the attic is read
now, and `errs` are the errors that larder bursts meet in this. -/
def execXfer (j : Slot) (d : Die) (errs : List BurstErr) (s : State) : Host.Outcome State Fault Refusal :=
  .next (s.issue j d 96 (fun i => iOp i == 0x08) (fun s c _ => (s.freeEngine c.die).isSome) (fun s c pos i =>
    let (src, dst) := s.xferEnds c i
    let e := (s.freeEngine c.die).getD 0
    let far := if dst.place.tier < 3 && dst.place.die != c.die then s.freeEngine dst.place.die else none
    let s := s.engineOn c.die e 0 j
    let s := match far with
      | some k => s.engineOn dst.place.die k 0 j
      | none => s
    let s := s.launch c 96 pos (e + (match far with | some k => 8 * (k + 1) | none => 0)) i
    let (s, noRd) := s.allow 2 false (some c.lead) src.place
    let (s, noWr) := s.allow 2 true (some c.lead) dst.place
    let s := s.modFly c.lead c.pd 96 pos (fun f => { f with noRd := noRd, noWr := noWr })
    if src.place.tier = 3 || dst.place.tier = 3 then
      let f := s.flyNow c { idx := pos, op := 0x08 }
      let s := if src.place.tier = 3 then s else (s.bursts src.larder [] errs).collisions ⟨c, f, src, dst⟩ none
      s.atticReqs c (s.flyNow c f) src dst
    else s))

/-- XFER_COMPLETE: the transfer at position idx of the die queue has written its last granule; an attic transfer only once
every request is answered (R226, R290). `errs` are the errors that its larder bursts met. -/
def execXferComplete (j : Slot) (d : Die) (idx : Nat) (errs : List BurstErr) (s : State) : Host.Outcome State Fault Refusal :=
  .next (match s.ctx j d 96 with
    | none => s
    | some c =>
      match ((c.run.queue c.pd 96).fly).find? (fun f => f.idx == idx && f.op == 0x08) with
      | none => s
      | some f =>
        if s.attics.any (fun q => q.cmd.isNone && q.slot == j.val && q.pd == c.pd && q.idx == idx) then s else
        let i := c.ins c.pd 96 idx
        let (src, dst) := s.xferEnds c i
        let bytes := (xferRuns src dst).foldl (fun n x => n + x.2.2) 0
        -- a couch transfer takes the way of R236 or that of its PATH, and waits for links that retrain
        let ring := (leAt i 18 1 == 1 || leAt i 18 1 == 2) && dst.place.tier < 3 && dst.place.die != c.die
        let cw := if planReplica c.pl then shortCw c.die dst.place.die else leAt i 18 1 == 1
        let way := if ring then s.path c.die dst.place.die cw else some []
        let away := dst.place.tier < 3 && dst.place.die != c.die
        let far := match f.farEngine with | some k => some k | none => s.freeEngine dst.place.die
        if !(way.getD []).all (fun x => s.linkUp x.2.2) || way.isNone || (away && far.isNone) then s else
        let s := s.bursts (if dst.place.tier = 3 then [] else src.larder) dst.larder errs
        -- a device that fails takes its die, and with it the transfer (R280, R427)
        if !((s.ctx j d 96).any (fun c => (c.run.queue c.pd 96).fly.any (fun g => g.idx == idx && g.op == 0x08))) then s else
        let s := s.countPath (way.getD []) bytes
        let moves := src.place.tier != 3 && dst.place.tier != 3
        let s := if moves then s.collisions ⟨c, f, src, dst⟩ none else s
        let g := s.flyNow c f
        let s := if moves then s.xferMove src dst g else s
        let p := (s.tierMem dst.place.tier).countPoison dst.place.key dst.place.len
        let s := s.engineOff c.die (f.arg % 8) bytes p
        let s := if away then s.engineOff dst.place.die (far.getD 0) bytes p else s
        (s.bump (dieAt c.die) DIE_DQ_CNT_XFER_BYTES_V bytes).retire j d 96 idx)

/-- An answered attic read of an XFER whose granule goes to a bank: there it may meet another transfer, and be dropped (R265,
R266). -/
def State.atticMeets (s : State) (q : AtticReq) : State × AtticReq :=
  if q.write || q.cmd.isSome || 2 ≤ q.tier then (s, q) else
  match ((s.job q.slot).run.bind (fun r => s.ctx q.slot (r.map.getD q.pd 4) 96)) with
  | none => (s, q)
  | some c =>
    match (c.run.queue c.pd 96).fly.find? (fun f => f.idx == q.idx && f.op == 0x08) with
    | none => (s, q)
    | some f =>
      let g := Place.key ⟨q.tier, q.die, q.core, q.addr, q.bytes⟩ / 64
      let s := s.collisions (s.xferAt c f) (some g)
      (s, { q with denied := q.denied || (s.flyNow c f).drop.contains g })

/-- ATTIC_RESPONSE to request k. -/
def execAtticResponse (k : Nat) (poison : Bool) (s : State) : Host.Outcome State Fault Refusal :=
  .next (match s.attics.find? (fun q => q.id == k && q.sent) with
    | none => s
    | some q => let r := s.atticMeets q; r.1.atticRespond r.2 poison)

end Sys2Proof.Machine
end

