-- ==== Sys2Proof/Machine/Dispatch.lean ====
section
/-!
DEFINITION. The dispatch: one arm for each command, one direct call of its meaning.
-/
namespace Sys2Proof.Machine

def exec (i : Instr) (s : State) : Host.Outcome State Fault Refusal :=
  match i with
  | .powerInputEntry dv => Sys2Proof.Machine.execPowerInputEntry dv s
  | .chargeComplete => Sys2Proof.Machine.execChargeComplete s
  | .powerLoss dv us => Sys2Proof.Machine.execPowerLoss dv us s
  | .pwrgdAssert ns => Sys2Proof.Machine.execPwrgdAssert ns s
  | .pwrgdDeassert ns => Sys2Proof.Machine.execPwrgdDeassert ns s
  | .perstAssert ns => Sys2Proof.Machine.execPerstAssert ns s
  | .perstDeassert ns => Sys2Proof.Machine.execPerstDeassert ns s
  | .startupStage rep => Sys2Proof.Machine.execStartupStage rep s
  | .larderZeroingDone => Sys2Proof.Machine.execLarderZeroingDone s
  | .cellarRecovery => Sys2Proof.Machine.execCellarRecovery s
  | .flr => Sys2Proof.Machine.execFlr s
  | .flrComplete => Sys2Proof.Machine.execFlrComplete s
  | .thermalRead rs coolIn coolOut => Sys2Proof.Machine.execThermalRead rs coolIn coolOut s
  | .throttleReleaseStep d p => Sys2Proof.Machine.execThrottleReleaseStep d p s
  | .thermalTrip r => Sys2Proof.Machine.execThermalTrip r s
  | .registerWrite addr size data => Sys2Proof.Machine.execRegisterWrite addr size data s
  | .bar0HalfRead addr size => Sys2Proof.Machine.execBar0HalfRead addr size s
  | .bar2Read off len errs => Sys2Proof.Machine.execBar2Read off len errs s
  | .bar2Write off data poison errs => Sys2Proof.Machine.execBar2Write off data poison errs s
  | .qpEnable j cfg => Sys2Proof.Machine.execQpEnable j cfg s
  | .qpDisable j cfg => Sys2Proof.Machine.execQpDisable j cfg s
  | .sqTailDoorbell j v => Sys2Proof.Machine.execSqTailDoorbell j v s
  | .cqHeadDoorbell j v => Sys2Proof.Machine.execCqHeadDoorbell j v s
  | .evtHeadDoorbell j v => Sys2Proof.Machine.execEvtHeadDoorbell j v s
  | .completionPost j => Sys2Proof.Machine.execCompletionPost j s
  | .hostBusError j point => Sys2Proof.Machine.execHostBusError j point s
  | .keagerJobReset j => Sys2Proof.Machine.execKeagerJobReset j s
  | .jobResetDone j => Sys2Proof.Machine.execJobResetDone j s
  | .deadlineExpiry j seq => Sys2Proof.Machine.execDeadlineExpiry j seq s
  | .nop j => Sys2Proof.Machine.execNop j s
  | .identify j => Sys2Proof.Machine.execIdentify j s
  | .setWindows j => Sys2Proof.Machine.execSetWindows j s
  | .setPowerCap j => Sys2Proof.Machine.execSetPowerCap j s
  | .setPowerState j => Sys2Proof.Machine.execSetPowerState j s
  | .policyLoad j => Sys2Proof.Machine.execPolicyLoad j s
  | .dieReadmit j => Sys2Proof.Machine.execDieReadmit j s
  | .dieReset j => Sys2Proof.Machine.execDieReset j s
  | .copy j errs => Sys2Proof.Machine.execCopy j errs s
  | .fill j => Sys2Proof.Machine.execFill j s
  | .planBind j => Sys2Proof.Machine.execPlanBind j s
  | .planUnbind j => Sys2Proof.Machine.execPlanUnbind j s
  | .run j => Sys2Proof.Machine.execRun j s
  | .snapTake j => Sys2Proof.Machine.execSnapTake j s
  | .snapFreeze j => Sys2Proof.Machine.execSnapFreeze j s
  | .snapSeal j => Sys2Proof.Machine.execSnapSeal j s
  | .snapRestore j => Sys2Proof.Machine.execSnapRestore j s
  | .snapList j => Sys2Proof.Machine.execSnapList j s
  | .snapDelete j => Sys2Proof.Machine.execSnapDelete j s
  | .errmemClear j => Sys2Proof.Machine.execErrmemClear j s
  | .watermarkNow j => Sys2Proof.Machine.execWatermarkNow j s
  | .attest j => Sys2Proof.Machine.execAttest j s
  | .debugEnter j => Sys2Proof.Machine.execDebugEnter j s
  | .debugExit j => Sys2Proof.Machine.execDebugExit j s
  | .enterReturn j cut => Sys2Proof.Machine.execEnterReturn j cut s
  | .getCert j => Sys2Proof.Machine.execGetCert j s
  | .marchPreserving j => Sys2Proof.Machine.execMarchPreserving j s
  | .marchDone d rep => Sys2Proof.Machine.execMarchDone d rep s
  | .readDigests j => Sys2Proof.Machine.execReadDigests j s
  | .readAgeing j => Sys2Proof.Machine.execReadAgeing j s
  | .prepareTimeout j part => Sys2Proof.Machine.execPrepareTimeout j part s
  | .sync j d q => Sys2Proof.Machine.execSync j d q s
  | .mma j d l => Sys2Proof.Machine.execMma j d l s
  | .weightBufferSwap j d l errs => Sys2Proof.Machine.execWeightBufferSwap j d l errs s
  | .segmentDrain j d l ups => Sys2Proof.Machine.execSegmentDrain j d l ups s
  | .residueVote j d l ups => Sys2Proof.Machine.execResidueVote j d l ups s
  | .specialsPass j d l errs => Sys2Proof.Machine.execSpecialsPass j d l errs s
  | .outputDrain j d l => Sys2Proof.Machine.execOutputDrain j d l s
  | .recomputeSlot j d l => Sys2Proof.Machine.execRecomputeSlot j d l s
  | .tbl j d l => Sys2Proof.Machine.execTbl j d l s
  | .convert j d l => Sys2Proof.Machine.execConvert j d l s
  | .add j d l => Sys2Proof.Machine.execAdd j d l s
  | .mul j d l => Sys2Proof.Machine.execMul j d l s
  | .fma j d l => Sys2Proof.Machine.execFma j d l s
  | .axpy j d l => Sys2Proof.Machine.execAxpy j d l s
  | .measureEntry j d l => Sys2Proof.Machine.execMeasureEntry j d l s
  | .gelu j d l => Sys2Proof.Machine.execGelu j d l s
  | .silu j d l => Sys2Proof.Machine.execSilu j d l s
  | .exp j d l => Sys2Proof.Machine.execExp j d l s
  | .geluBwd j d l => Sys2Proof.Machine.execGeluBwd j d l s
  | .siluBwd j d l => Sys2Proof.Machine.execSiluBwd j d l s
  | .sum j d l => Sys2Proof.Machine.execSum j d l s
  | .max j d l => Sys2Proof.Machine.execMax j d l s
  | .min j d l => Sys2Proof.Machine.execMin j d l s
  | .argmax j d l => Sys2Proof.Machine.execArgmax j d l s
  | .argmin j d l => Sys2Proof.Machine.execArgmin j d l s
  | .sumsq j d l => Sys2Proof.Machine.execSumsq j d l s
  | .layernorm j d l => Sys2Proof.Machine.execLayernorm j d l s
  | .rmsnorm j d l => Sys2Proof.Machine.execRmsnorm j d l s
  | .normBwd j d l => Sys2Proof.Machine.execNormBwd j d l s
  | .normPgrad j d l => Sys2Proof.Machine.execNormPgrad j d l s
  | .softmax j d l => Sys2Proof.Machine.execSoftmax j d l s
  | .softmaxBwd j d l => Sys2Proof.Machine.execSoftmaxBwd j d l s
  | .lse j d l => Sys2Proof.Machine.execLse j d l s
  | .adam j d l => Sys2Proof.Machine.execAdam j d l s
  | .sgd j d l => Sys2Proof.Machine.execSgd j d l s
  | .stashPack j d l => Sys2Proof.Machine.execStashPack j d l s
  | .stashUnpack j d l => Sys2Proof.Machine.execStashUnpack j d l s
  | .dropout j d l => Sys2Proof.Machine.execDropout j d l s
  | .dropoutBwd j d l => Sys2Proof.Machine.execDropoutBwd j d l s
  | .bs16Pack j d l => Sys2Proof.Machine.execBs16Pack j d l s
  | .bs16Unpack j d l => Sys2Proof.Machine.execBs16Unpack j d l s
  | .scatterAdd j d l => Sys2Proof.Machine.execScatterAdd j d l s
  | .count j d l => Sys2Proof.Machine.execCount j d l s
  | .scatterSwap j d l => Sys2Proof.Machine.execScatterSwap j d l s
  | .measureFold j d l => Sys2Proof.Machine.execMeasureFold j d l s
  | .red j d => Sys2Proof.Machine.execRed j d s
  | .ringChunkReceive j d bad => Sys2Proof.Machine.execRingChunkReceive j d bad s
  | .ringCreditGrant j d => Sys2Proof.Machine.execRingCreditGrant j d s
  | .redComplete j d => Sys2Proof.Machine.execRedComplete j d s
  | .ringTimeout j d bucket => Sys2Proof.Machine.execRingTimeout j d bucket s
  | .peerCheck j d beats links => Sys2Proof.Machine.execPeerCheck j d beats links s
  | .xfer j d errs => Sys2Proof.Machine.execXfer j d errs s
  | .xferComplete j d idx errs => Sys2Proof.Machine.execXferComplete j d idx errs s
  | .pwr j d => Sys2Proof.Machine.execPwr j d s
  | .yield j d q => Sys2Proof.Machine.execYield j d q s
  | .yieldPoint j => Sys2Proof.Machine.execYieldPoint j s
  | .stepBoundary j => Sys2Proof.Machine.execStepBoundary j s
  | .phaseBarrier j => Sys2Proof.Machine.execPhaseBarrier j s
  | .jobSpill j errs => Sys2Proof.Machine.execJobSpill j errs s
  | .jobResume j errs => Sys2Proof.Machine.execJobResume j errs s
  | .watermark j => Sys2Proof.Machine.execWatermark j s
  | .rollback j => Sys2Proof.Machine.execRollback j s
  | .stewardRun j => Sys2Proof.Machine.execStewardRun j s
  | .heartbeatTimeout d p arrived => Sys2Proof.Machine.execHeartbeatTimeout d p arrived s
  | .coreRetire d p cause => Sys2Proof.Machine.execCoreRetire d p cause s
  | .coreFill d katOk => Sys2Proof.Machine.execCoreFill d katOk s
  | .fillMapSwitch d => Sys2Proof.Machine.execFillMapSwitch d s
  | .fillReadTimeout d arrived => Sys2Proof.Machine.execFillReadTimeout d arrived s
  | .dieSelfTest d => Sys2Proof.Machine.execDieSelfTest d s
  | .dieSelfTestDone d ok => Sys2Proof.Machine.execDieSelfTestDone d ok s
  | .linkFlitReceive k crcOk => Sys2Proof.Machine.execLinkFlitReceive k crcOk s
  | .linkHandshakeTimeout k arrived => Sys2Proof.Machine.execLinkHandshakeTimeout k arrived s
  | .linkRetrain k ok => Sys2Proof.Machine.execLinkRetrain k ok s
  | .eccWriteback b e => Sys2Proof.Machine.execEccWriteback b e s
  | .bankOwnWrite b v => Sys2Proof.Machine.execBankOwnWrite b v s
  | .handoverWrite j b => Sys2Proof.Machine.execHandoverWrite j b s
  | .bankPwrReqWrite b v => Sys2Proof.Machine.execBankPwrReqWrite b v s
  | .bankPowerTransition b => Sys2Proof.Machine.execBankPowerTransition b s
  | .bankDbgRead b => Sys2Proof.Machine.execBankDbgRead b s
  | .bankDbgWrite b v => Sys2Proof.Machine.execBankDbgWrite b v s
  | .arrInject d p a v => Sys2Proof.Machine.execArrInject d p a v s
  | .patrolScrub g found => Sys2Proof.Machine.execPatrolScrub g found s
  | .atticResponse k poison => Sys2Proof.Machine.execAtticResponse k poison s
  | .atticTimeout k => Sys2Proof.Machine.execAtticTimeout k s
  | .atticLinkDown x => Sys2Proof.Machine.execAtticLinkDown x s
  | .rampComplete => Sys2Proof.Machine.execRampComplete s
  | .ballastAdjust work => Sys2Proof.Machine.execBallastAdjust work s
  | .lingerExpiry d => Sys2Proof.Machine.execLingerExpiry d s
  | .idleToP1 => Sys2Proof.Machine.execIdleToP1 s
  | .powerWake => Sys2Proof.Machine.execPowerWake s
  | .ageingSample d p dev => Sys2Proof.Machine.execAgeingSample d p dev s
  | .slackMeasure d p slack => Sys2Proof.Machine.execSlackMeasure d p slack s
  | .ageingReplan pred => Sys2Proof.Machine.execAgeingReplan pred s
  | .sramVminMeasure b op ret => Sys2Proof.Machine.execSramVminMeasure b op ret s
  | .eyeCheck q width height minWidth retrainOk => Sys2Proof.Machine.execEyeCheck q width height minWidth retrainOk s
  | .newNonce => Sys2Proof.Machine.execNewNonce s
  | .halt w => Sys2Proof.Machine.execHalt w s
  | .resume w => Sys2Proof.Machine.execResume w s
  | .jtagIdcode => Sys2Proof.Machine.execJtagIdcode s
  | .jtagBypass b => Sys2Proof.Machine.execJtagBypass b s
  | .jtagRegRead addr size => Sys2Proof.Machine.execJtagRegRead addr size s
  | .jtagRegWrite addr size data => Sys2Proof.Machine.execJtagRegWrite addr size data s
  | .jtagScan d p => Sys2Proof.Machine.execJtagScan d p s
  | .jtagHalt d p => Sys2Proof.Machine.execJtagHalt d p s
  | .jtagSamplePreload v => Sys2Proof.Machine.execJtagSamplePreload v s
  | .jtagExtest v => Sys2Proof.Machine.execJtagExtest v s
  | .mboxGo => Sys2Proof.Machine.execMboxGo s
  | .getState m => Sys2Proof.Machine.execGetState m s
  | .claim m cut => Sys2Proof.Machine.execClaim m cut s
  | .mboxAttest m => Sys2Proof.Machine.execMboxAttest m s
  | .mboxGetCert m => Sys2Proof.Machine.execMboxGetCert m s
  | .mboxNewNonce m => Sys2Proof.Machine.execMboxNewNonce m s
  | .mboxDebugEnter m => Sys2Proof.Machine.execMboxDebugEnter m s
  | .mboxDebugExit m => Sys2Proof.Machine.execMboxDebugExit m s
  | .fwWrite m => Sys2Proof.Machine.execFwWrite m s
  | .fwVerify m => Sys2Proof.Machine.execFwVerify m s
  | .fwActivate m => Sys2Proof.Machine.execFwActivate m s
  | .setEndpointId path eid => Sys2Proof.Machine.execSetEndpointId path eid s
  | .getEndpointId path => Sys2Proof.Machine.execGetEndpointId path s
  | .getMctpVersionSupport path ty => Sys2Proof.Machine.execGetMctpVersionSupport path ty s
  | .getMessageTypeSupport path => Sys2Proof.Machine.execGetMessageTypeSupport path s
  | .smbusAlertResponse => Sys2Proof.Machine.execSmbusAlertResponse s
  | .atticPortRetrain x ok bytes => Sys2Proof.Machine.execAtticPortRetrain x ok bytes s
  | .prepareReply j part ok => Sys2Proof.Machine.execPrepareReply j part ok s
  | .copyComplete j seq errs => Sys2Proof.Machine.execCopyComplete j seq errs s

end Sys2Proof.Machine
end

