-- ==== Sys2Proof/Safety.lean ====
section
/-!
DEFINITION. What a sound state is: every byte memory and the register table in canonical form; and what no command undoes:
the fuses (R518 to R520).
-/
namespace Sys2Proof

open Sys2Proof.Machine

/-- The memories of the module and of the host keep their canonical form. -/
def memoriesWf (s : State) : Bool :=
  s.host.wf && s.larder.wf && s.attic.wf && s.shelf.wf && s.store.wf

/-- The register table is canonical: addresses rise, and no register is listed at its reset value. -/
def registersWf (s : State) : Bool := Tab.sorted s.regs && s.regs.all (fun c => decide (c.2 ≠ regReset c.1))

/-- A state in canonical form. -/
def canonical (s : State) : Bool := memoriesWf s && registersWf s

/-- No fuse of `s` reads unprogrammed in `t`, and SVN_MIN has not fallen. -/
def fusesKept (s t : State) : Prop :=
  (s.nvm.claimed = true → t.nvm.claimed = true) ∧ (s.nvm.returned = true → t.nvm.returned = true)
    ∧ (s.nvm.seedLock = true → t.nvm.seedLock = true) ∧ s.nvm.svnMin ≤ t.nvm.svnMin

/-- A run does not stop at a command. -/
def stepsOn (s : State) : Prop := ∃ t, step s = .next t

/-! ## What a command leaves alone -/

/-- Every memory reads as before: of the host, the larder, the attic, the shelves and the store rooms. -/
abbrev sameMemories (s t : State) : Prop :=
  t.host = s.host ∧ t.larder = s.larder ∧ t.attic = s.attic ∧ t.shelf = s.shelf ∧ t.store = s.store

/-- The memories of the module read as before; host memory may differ. -/
abbrev sameModule (s t : State) : Prop :=
  t.larder = s.larder ∧ t.attic = s.attic ∧ t.shelf = s.shelf ∧ t.store = s.store

/-- Queue pairs, jobs, dies, cores, prepared records and attic requests are as before. -/
abbrev sameWork (s t : State) : Prop :=
  t.qps = s.qps ∧ t.jobs = s.jobs ∧ t.dies = s.dies ∧ t.cores = s.cores ∧ t.prepared = s.prepared ∧ t.attics = s.attics

/-- Every register but those of `p` reads as before. -/
abbrev sameRegs (p : Nat → Prop) (s t : State) : Prop := ∀ a, ¬ p a → t.reg a = s.reg a

/-- Pins, power, NVM, security block, mailbox and cellar are as before. -/
abbrev sameHub (s t : State) : Prop :=
  t.pins = s.pins ∧ t.power = s.power ∧ t.nvm = s.nvm ∧ t.sec = s.sec ∧ t.mbox = s.mbox ∧ t.cellar = s.cellar

/-- Host memory reads as before outside the `n` bytes from address `a`. -/
abbrev hostApart (a n : Nat) (s t : State) : Prop := ∀ x, x < a ∨ a + n ≤ x → t.host.read1 x = s.host.read1 x

/-- A register whose write is a command of its own: a doorbell, a pair's configuration, the job reset, the nonce, halts, the
mailbox, a bank's owner, power request and debug window, an injection; and the mailbox buffer. -/
def ownReg (a : Nat) : Bool :=
  match bankOf a with
  | some (_, o) => o == 0x00 || o == 0x10 || o == 0x88
  | none => match arrOf a with
    | some (_, _, _, o) => o == 0x58
    | none => within 0x180000 0x180400 a || (within 0x101000 0x103000 a && a % 0x80 == 0x18) || inMbox a
        || [0x100010, 0x200008, 0x200300, 0x200500].contains a

/-- An alert register or its enable, which drive ALERT# (R551). -/
def alertReg (a : Nat) : Bool := [0x300040, 0x300048, 0x200600, 0x200608].contains a

/-- A COPY that is running with host memory at one end: a bus error on copy data strikes the first of a pair (R382). -/
def copyOnBus (c : Cmd) : Bool :=
  c.started && c.op == 0x1000 && !c.stopped && (bitsN (c.opnd 56 1) 1 0 == 0 || bitsN (c.opnd 56 1) 3 2 == 0)

/-- Every snapshot is kept, with every stored region that one references (R444). -/
abbrev cellarKept (s t : State) : Prop :=
  t.cellar.snaps = s.cellar.snaps ∧ ∀ r ∈ s.cellar.store,
    s.cellar.snaps.any (fun x => x.regions.any (fun e => !e.zero && e.slot == r.slot)) = true → r ∈ t.cellar.store

/-- Field of HUB_BRINGUP that holds the code of stage n (R477). -/
abbrev stageCode (n : Nat) : Fld := ⟨0x10, 0, 4 * n - 1, 4 * n - 4⟩

/-- Stage n of start-up has ended with a code at the present time, and stage `next` runs (none where it is 0; R477). -/
abbrev stageEnds (s t : State) (n code next : Nat) : Prop :=
  t.fld 0 (stageCode n) = code ∧ t.fld 0 HUB_BRINGUP_T_END (n - 1) = s.ts % 2 ^ 64 ∧ t.fld 0 HUB_BRINGUP_CURRENT = next ∧
    (next ≠ 0 → t.fld 0 (stageCode next) = 1)

/-- The code of a stage that can take dies out of service: 4 where no die is left in service, else 3 where it found something
(R478). -/
abbrev dieStageCode (t : State) (found : Bool) : Nat := if t.liveDies = [] then 4 else if found then 3 else 2

/-- Start-up has just begun: the main domain is powered, the time stands at 0 and stage 1 runs (R475). -/
abbrev started (t : State) : Prop :=
  t.power.main = true ∧ t.ts = 0 ∧ t.bit 0 HUB_STATUS_STARTING = true ∧ t.fld 0 HUB_BRINGUP_CURRENT = 1 ∧
    t.fld 0 (stageCode 1) = 1

/-- An access to the unpopulated larder address `x` is reported (R34, Table 1-8). -/
abbrev unpopReported (s t : State) (x : Nat) : Prop :=
  t.bit 0 HUB_BAR2_ERR_UNPOP = true ∧
    t.fld 0 HUB_BAR2_ERR_ADDR = if s.bit 0 HUB_BAR2_ERR_UNPOP then s.fld 0 HUB_BAR2_ERR_ADDR else x / 64 % 2 ^ 31

/-! ## Keager commands in claims -/

/-- Command `c` of pair j, the first that waits and satisfies `p`, may start (R374, R377, R401, R489). -/
abbrev startableBy (s : State) (j : Nat) (p : Cmd → Bool) (c : Cmd) : Prop :=
  s.waitingCmd j p = some c ∧ s.cmd j c.seq = some c ∧ s.qpStopped j = false
    ∧ s.bit 0 KGR_QSTAT_RESETTING j = false ∧ orderOk c.async c.seq (s.qp j).cmds = true ∧ s.dep c = .met
    ∧ (s.pstate = 3 → opInP3 c.op = true)

/-- Command `c` of pair j, the first that waits with opcode `op`, may start. -/
abbrev startable (s : State) (j op : Nat) (c : Cmd) : Prop := startableBy s j (fun x => x.op == op) c

/-- Nothing has happened to the command yet, and it has no deadline. -/
abbrev untouched (c : Cmd) : Prop :=
  c.outcomes = [] ∧ c.deadline = 0 ∧ c.done = false ∧ c.evt = none ∧ c.grazed = false ∧ c.result = 0 ∧
    c.seq < 2 ^ 32

/-- The completion queue of pair j takes an entry now (R372). -/
abbrev cqOpen (s : State) (j : Nat) : Prop := s.cqFree j ≠ 0 ∧ (s.qp j).held = [] ∧ s.qpStopped j = false

/-- Address of the completion entry that pair j writes next. -/
def cqSlot (s : State) (j : Nat) : Nat := (s.qp j).cqBase + s.fld 0 KGR_QSTAT_CQ_TAIL j * 32

/-- The completion of a command stands in host memory (Table 10-4), and the tail has moved past it (R372). -/
abbrev completes (s t : State) (j seq st parts result : Nat) : Prop :=
  t.host.readN (cqSlot s j) 4 = seq ∧ t.host.readN (cqSlot s j + 4) 2 = st
    ∧ t.host.readN (cqSlot s j + 6) 1 = j + (if (s.qp j).cqPhase then 128 else 0)
    ∧ t.host.readN (cqSlot s j + 8) 2 = parts ∧ t.host.readN (cqSlot s j + 24) 8 = result % 2 ^ 64
    ∧ t.fld 0 KGR_QSTAT_CQ_TAIL j = (s.fld 0 KGR_QSTAT_CQ_TAIL j + 1) % 2 ^ (s.qp j).cqLog

/-- Command `c` is gone from pair j, and no other pair has changed. -/
abbrev gone (s t : State) (j : Nat) (c : Cmd) : Prop := t.cmd j c.seq = none ∧ ∀ k, k ≠ j → t.qp k = s.qp k

/-- The prepare of command `c` of pair j has gone to the parts of a mask (R396), and nothing else has happened. -/
abbrev asked (s t : State) (j : Nat) (c : Cmd) (want : Nat) : Prop :=
  (∀ p, p < 5 → Tab.find t.prepared p = if bitN want p then some (j, c.seq, s.ts) else Tab.find s.prepared p)
    ∧ sameMemories s t ∧ t.jobs = s.jobs ∧ t.dies = s.dies ∧ t.cores = s.cores ∧ ∀ k, k ≠ j → t.qp k = s.qp k

/-- Registers in which pair j shows its state and counts its commands. -/
abbrev pairRegs (j a : Nat) : Prop := a = KGR_QSTAT_CQ_TAIL.at 0 j ∨ a = KGR_CNT_CMDS_V.at 0 j

/-- A counter field has advanced by `n`, at its width. -/
abbrev counted (s t : State) (base : Nat) (f : Fld) (i n : Nat) : Prop :=
  t.fld base f i = (s.fld base f i + n) % 2 ^ (f.hi + 1 - f.lo)

/-- No command waits and no job stands in any slot. -/
abbrev atRest (s : State) : Prop := s.qps = [] ∧ s.jobs = []

/-! ## Plan instructions in claims -/

/-- The next instruction of queue q of job j on die d is `i`, at position `pos`, and it issues (R225): neither gated, nor
skipped, nor stopped by a poisoned fetch. -/
abbrev issuable (s : State) (j d q : Nat) (c : Ctx) (pos : Nat) (i : PInstr) : Prop :=
  s.ctx j d q = some c ∧ c.next q = some (pos, i) ∧ s.mayIssue c q pos i = true ∧ s.fetchPoison c = none
    ∧ s.gated c i = false ∧ c.skipped i = false

/-- The tokens of a run after instruction `i` has signalled: its own has advanced, every other stands (R226). -/
abbrev signalled (r t : Run) (i : PInstr) : Prop :=
  ∀ k, Tab.getD t.tokens k 0 = if iFlag i 1 = true ∧ k = iSigDie i * 1024 + iSigTok i then (Tab.getD r.tokens k 0 + 1) % 2 ^ 32
    else Tab.getD r.tokens k 0

/-- Job j's run after an issue from queue q of plan die pd: the queue stands at `pos`, with `fly` in flight. -/
abbrev queueAt (t : State) (j pd q pos : Nat) (fly : List Fly) (r : Run) : Prop :=
  (t.job j).run = some r ∧ (r.queue pd q).pos = pos ∧ (r.queue pd q).fly = fly

/-- The VOP and the command of each beater operation. -/
def vecRows : List (Nat × (Slot → Die → Logical → Instr)) :=
  [(0x01, .convert), (0x02, .add), (0x03, .mul), (0x04, .fma), (0x05, .axpy), (0x06, .measureEntry), (0x08, .gelu),
   (0x09, .silu), (0x0A, .exp), (0x0B, .geluBwd), (0x0C, .siluBwd), (0x10, .sum), (0x11, .max), (0x12, .min), (0x13, .argmax),
   (0x14, .argmin), (0x15, .sumsq), (0x18, .layernorm), (0x19, .rmsnorm), (0x1A, .normBwd), (0x1B, .normPgrad),
   (0x1C, .softmax), (0x1D, .softmaxBwd), (0x1E, .lse), (0x20, .adam), (0x21, .sgd), (0x24, .stashPack), (0x25, .stashUnpack),
   (0x28, .dropout), (0x29, .dropoutBwd), (0x2C, .bs16Pack), (0x2D, .bs16Unpack), (0x30, .scatterAdd), (0x31, .count),
   (0x32, .scatterSwap)]

/-- Does a written operand of a VEC stand in a tier? -/
abbrev vecWrites (s : State) (c : Ctx) (i : PInstr) (tier : Nat) : Prop :=
  ∃ k x, k < 5 ∧ vecDeckle i k = some x ∧ vopWrites (vecOp i) k = true ∧ (s.tile c x).place.tier = tier

/-- The commands of the core queues' instructions, with which instruction each issues. -/
def queueRows : List ((PInstr → Bool) × (Slot → Die → Logical → Instr)) :=
  [(fun i => iOp i == 0x01, .mma), (fun i => iOp i == 0x03, .tbl)]
    ++ vecRows.map (fun r => (fun i => iOp i == 0x02 && vecOp i == r.1, r.2))

/-- The VOP, the inputs, the command and the function of each element-wise operation that takes no parameter block. -/
def elementRows : List (Nat × Nat × (Slot → Die → Logical → Instr) × (Nat → Nat → Nat → Nat)) :=
  [(0x01, 1, .convert, fun x _ _ => x), (0x02, 2, .add, fun x y _ => f32.add x y), (0x03, 2, .mul, fun x y _ => f32.mul x y),
   (0x04, 3, .fma, f32.fma), (0x08, 1, .gelu, fun x _ _ => gelu32 x),
   (0x09, 1, .silu, fun x _ _ => silu32 x), (0x0A, 1, .exp, fun x _ _ => exp32 x),
   (0x0B, 2, .geluBwd, fun x dy _ => f32.mul dy (dgelu32 x)),
   (0x0C, 2, .siluBwd, fun x dy _ => f32.mul dy (dsilu32 x))]

/-- Operand k of a VEC is a larder tile with at least one logical element. -/
abbrev larderOperand (s : State) (c : Ctx) (i : PInstr) (k : Nat) : Prop :=
  ∃ x, vecDeckle i k = some x ∧ (s.tile c x).place.tier = 2 ∧ 0 < (s.tile c x).dk.rowsIn c.run.rtl ∧
    0 < (s.tile c x).dk.colsIn c.run.rtl

/-- FP32 value of element (0, 0) of a larder operand of a VEC. -/
def firstValue (s : State) (c : Ctx) (i : PInstr) (k : Nat) : Nat :=
  match vecDeckle i k with
  | some x => elemF32 (s.tile c x).dk.format (s.book c.die c.phys (s.tile c x).dk.cb) one32 ((s.tile c x).raw s.larder 0 0)
  | none => 0

/-! ## The mailbox in claims -/

/-- The request `r` has been answered on its path: over BAR0 the buffer holds the reply and DONE and STATUS show it, over MCTP the
path has received it; the engine is free. -/
abbrev mboxReplied (t : State) (r : MboxReq) (st : Nat) (payload : List Byte) : Prop :=
  t.mbox.queue = [] ∧ t.bit 0 SEC_MBOX_STAT_BUSY = false ∧ match r.path with
    | .bar0 => t.mbox.buf.read 0 65536 = padTo 65536 (mboxMessage r.msg r.tag st payload) ∧
        t.bit 0 SEC_MBOX_STAT_DONE = true ∧ t.fld 0 SEC_MBOX_STAT_STATUS = st
    | .smbus => t.mbox.replySmb = mboxMessage r.msg r.tag st payload
    | .pcie => t.mbox.replyPci = mboxMessage r.msg r.tag st payload

/-- An engine that may answer takes the request `r` of a code at message `m`: over BAR0 it holds that request alone; over MCTP it
is free and the message brings it (R536 to R538). -/
abbrev mboxTakes (s : State) (m : MboxMsg) (r : MboxReq) (code : Nat) : Prop :=
  r.msg = code ∧ r.path = m.path ∧ s.mboxAnswers r = true ∧
    if m.path = .bar0 then s.mbox.queue = [r] else s.mbox.queue = [] ∧ r.tag = m.tag ∧ r.payload = m.payload

/-- The codes of the mailbox (Table 14-9). -/
def mboxCodes : List Nat := [1, 2, 3, 4, 5, 6, 7, 16, 17, 18]

/-- The codes whose payload has a stated length: the command, and which lengths are right. -/
def mboxLengths : List (Nat × (MboxMsg → Instr) × (Nat → Bool)) :=
  [(2, fun m => .claim m none, fun n => n == 1952), (3, .mboxAttest, fun n => n == 64), (4, .mboxGetCert, fun n => n == 2),
   (5, .mboxNewNonce, fun n => n == 0), (6, .mboxDebugEnter, fun n => n == 3456), (7, .mboxDebugExit, fun n => n == 0),
   (16, .fwWrite, fun n => decide (4 ≤ n) && decide (n ≤ 4100)), (17, .fwVerify, fun n => n == 0),
   (18, .fwActivate, fun n => n == 1)]

end Sys2Proof
end

