-- ==== Sys2Proof/Certificates/Slice0/Obligations.lean ====
section
/-!
DEFINITION. What is claimed of the model: one proposition for each obligation, in the terms of the spec's rules. A statement of
the form "there is a t with exec c s = next t" says under which conditions the command has its own effect.
-/
open Sys2Proof Sys2Proof.Machine

/-! ## The block as a whole -/

/-- With a command at the front of its queue, the block runs that command on the state whose queue is the rest. -/
def Obligations.StepRunsFront : Prop :=
  ∀ (c : Instr) (rest : List Instr) (s : State), step { s with pending := c :: rest } = exec c { s with pending := rest }

/-- On an empty queue a nanosecond passes (log entry 1): HUB_TIMESTAMP counts while the auxiliary domain is powered (R7) and
stands still otherwise; no memory, job or command changes. A die that runs a job is noted as at work now (R496). -/
def Obligations.IdleCounts : Prop :=
  ∀ s : State, s.pending = [] → ∃ t, step s = .next t ∧ t.ts = (if s.power.aux then (s.ts + 1) % 2 ^ 64 else s.ts) ∧
    t.pending = [] ∧ sameMemories s t ∧ sameWork s t ∧
    t.power = { s.power with rest := t.power.rest } ∧ t.pins = s.pins ∧ t.nvm = s.nvm ∧ t.sec = s.sec ∧ t.mbox = s.mbox ∧
    t.cellar = s.cellar ∧ (s.power.aux = true → ∀ d, d < 4 → t.restTs d = if s.runsOn d then t.ts else s.restTs d) ∧
    sameRegs (fun a => a = AGE_POWERED_S_V.at 0 0 ∨ ∃ j, a = KGR_CNT_CQ_WAIT_V.at 0 j) s t

/-- The state right after reset is canonical, has no command waiting, every register reads as its reset value, and the power cap
as its 850 W. -/
def Obligations.ResetCanonical : Prop :=
  canonical State.reset = true ∧ State.reset.pending = [] ∧ (∀ a, State.reset.reg a = regReset a) ∧
    State.reset.fld 0 PWR_CAP_CAP_W = 850

/-- Every step keeps the canonical form of the memories and of the register table. -/
def Obligations.StepKeepsCanonical : Prop := ∀ s t : State, canonical s = true → step s = .next t → canonical t = true

/-- No step unprograms a fuse or lowers SVN_MIN (R515, R519, R520). -/
def Obligations.StepKeepsFuses : Prop := ∀ s t : State, step s = .next t → fusesKept s t

/-- No command touches the queue of the commands that wait: each step takes exactly the one at its front. -/
def Obligations.StepTakesOne : Prop := ∀ s t : State, step s = .next t → t.pending = s.pending.drop 1

/-- A command stops in no case but one: a BAR0 access that ends above 64 MiB (R36) or a BAR2 access that ends outside the
window (R33). No command is refused. -/
def Obligations.StopsOnlyOutsideBars : Prop :=
  ∀ (c : Instr) (s : State), (∃ t, exec c s = .next t) ∨ (exec c s = .fault .outsideBar ∧
    ((∃ a n v, c = .registerWrite a n v ∧ 0x4000000 < a + n) ∨ (∃ a n, c = .bar0HalfRead a n ∧ 0x4000000 < a + n) ∨
     (∃ o n e, c = .bar2Read o n e ∧ 2 ^ (28 + min s.bar2Log 9) < o + n) ∨
     (∃ o d p e, c = .bar2Write o d p e ∧ 2 ^ (28 + min s.bar2Log 9) < o + d.length)))

/-- Reading a byte after writing a string: inside, the string's byte; outside, what stood there. A copy moves bytes, zeroing
reads as zero, and all keep the canonical form. -/
def Obligations.MemoryReadsWhatWasWritten : Prop :=
  ∀ (m src : Mem) (a sa n : Nat) (bs : List Byte),
    (∀ x, (m.write a bs).read1 x = if a ≤ x ∧ x < a + bs.length then bs.getD (x - a) 0 else m.read1 x) ∧
    (∀ x, (m.copyBytes src a sa n).read1 x = if a ≤ x ∧ x < a + n then src.read1 (sa + (x - a)) else m.read1 x) ∧
    (∀ x, (m.scrub a n).read1 x = if a ≤ x ∧ x < a + n then 0 else m.read1 x) ∧
    (∀ x, n ≠ 0 → a ≤ x → x < a + n → (m.scrub a n).poisoned x = false ∧ (m.poisonZero a n).poisoned x = true) ∧
    (m.wf = true → src.wf = true → (m.write a bs).wf = true ∧ (m.copyBytes src a sa n).wf = true ∧ (m.scrub a n).wf = true)

/-! ## Power entry, pins and start-up (R471 to R485) -/

/-- The input enters its range: the auxiliary domain is powered, the storage not yet charged and the sideband registers show the
pins; start-up begins at once where PWRGD and PERST# allow it, and HUB_RESET_CAUSE records a cold start with the trip or power
loss that NVM held. An input out of range only shows its voltage; one already in range changes nothing. Charging completes. A dip
below 44 V for 20 µs or more loses everything but the cellar's snapshots and NVM, which records POWER_LOSS; a lesser dip, or one
with the input out of range, does nothing. A sensor at 115 °C trips the module, once: its main domain is off and NVM records the
trip; a cooler reading does nothing (R471 to R475, R501). -/
def Obligations.PowerEntryAndLoss : Prop :=
  (∀ dv s, s.power.inRange = false → 460 ≤ dv → dv ≤ 580 →
    ∃ t, exec (.powerInputEntry dv) s = .next t ∧ t.power.inRange = true ∧ t.power.aux = true ∧ t.power.inputDv = dv ∧
      t.power.charged = false ∧ t.bit 0 HUB_SB_STAT_PWRGD = s.pins.pwrgd ∧ t.bit 0 HUB_SB_STAT_X0_PRSNT = s.pins.x0Prsnt ∧
      t.bit 0 HUB_SB_STAT_X1_PRSNT = s.pins.x1Prsnt ∧ sameMemories s t ∧ sameWork s t ∧ t.pins = s.pins ∧
      (s.pins.pwrgd = false ∨ s.pins.perst = true → t.nvm = s.nvm ∧ sameRegs (fun a => isSideband a = true) s t) ∧
      (s.pins.pwrgd = true → s.pins.perst = false → s.shutting = false → s.reg 0x10 = 0 → started t ∧
        t.nvm = { s.nvm with trip := false, powerLoss := false } ∧
        t.fld 0 ⟨0x18, 0, 3, 0⟩ = 1 + 4 * b2n s.nvm.trip + 8 * b2n s.nvm.powerLoss)) ∧
  (∀ dv s, s.power.inRange = false → dv < 460 ∨ 580 < dv →
    exec (.powerInputEntry dv) s = .next { s with power := { s.power with inputDv := dv } }) ∧
  (∀ dv s, s.power.inRange = true → exec (.powerInputEntry dv) s = .next s) ∧
  (∀ s, s.power.aux = true → exec .chargeComplete s = .next { s with power := { s.power with charged := true } }) ∧
  (∀ dv us s, s.power.inRange = true → dv < 440 → 20 ≤ us →
    ∃ t, exec (.powerLoss dv us) s = .next t ∧ t.power.aux = false ∧ t.power.main = false ∧ t.power.inRange = false ∧
      t.nvm = { s.nvm with deferred := [], powerLoss := true } ∧ t.qps = [] ∧ t.jobs = [] ∧ t.prepared = [] ∧ t.sec = {} ∧
      cellarKept s t ∧ t.host = s.host ∧ t.attic = s.attic ∧ ∀ a, isSideband a = false → t.reg a = regReset a) ∧
  (∀ dv us s, 440 ≤ dv ∨ us < 20 ∨ s.power.inRange = false → exec (.powerLoss dv us) s = .next s) ∧
  (∀ (r : Reading) s, 115 ≤ r.degC → s.power.aux = true → s.power.tripped = false →
    ∃ t, exec (.thermalTrip r) s = .next t ∧ t.power.tripped = true ∧ t.power.main = false ∧ t.power.aux = true ∧
      t.pins.thermtrip = true ∧ t.nvm = { s.nvm with deferred := [], trip := true } ∧ t.qps = [] ∧ t.jobs = [] ∧
      t.prepared = [] ∧ t.sec = {} ∧ t.host = s.host ∧ t.attic = s.attic ∧ cellarKept s t) ∧
  (∀ (r : Reading) s, r.degC < 115 ∨ s.power.tripped = true → exec (.thermalTrip r) s = .next s)

/-- A level of PWRGD or PERST# that lasts 10 µs is taken, one shorter than 1 µs is ignored and counted, and one between is
either taken or ignored and counted (R550). Taken, PWRGD or the release of PERST# begins start-up where the conditions for it
hold (R475); PWRGD low lowers every level towards power-off (R474); PERST# returns all but the sideband registers to their reset
values and ends every pair and job, memory apart (R482). -/
def Obligations.PinLevels : Prop :=
  (∀ ns s, 10000 ≤ ns → s.pins.pwrgd = false → s.pins.perst = false → s.power.aux = true → s.power.tripped = false →
    s.shutting = false → s.reg 0x10 = 0 →
    ∃ t, exec (.pwrgdAssert ns) s = .next t ∧ t.pins = { s.pins with pwrgd := true } ∧ started t ∧ sameMemories s t ∧
      sameWork s t) ∧
  (∀ ns s, 10000 ≤ ns → s.pins.pwrgd = true → s.pins.perst = true → s.power.aux = true → s.power.tripped = false →
    s.shutting = false → s.reg 0x10 = 0 →
    ∃ t, exec (.perstDeassert ns) s = .next t ∧ t.pins = { s.pins with perst := false, wake := false } ∧ started t ∧
      sameMemories s t ∧ sameWork s t) ∧
  (∀ ns s, 10000 ≤ ns → s.pins.pwrgd = true → s.power.aux = true → s.power.tripped = false →
    s.power.main = true ∨ s.pstate = 3 →
    ∃ t, exec (.pwrgdDeassert ns) s = .next t ∧ t.pins.pwrgd = false ∧ t.ready = false ∧
      (∀ d, d < 4 → t.levelW d = 0) ∧ t.power.ramps.map Ramp.serves = [.off] ∧ sameMemories s t ∧ sameWork s t) ∧
  (∀ ns s, 10000 ≤ ns → s.pins.perst = false → s.pins.pwrgd = true → s.power.aux = true → s.power.tripped = false →
    s.shutting = false →
    ∃ t, exec (.perstAssert ns) s = .next t ∧ t.pins.perst = true ∧ t.qps = [] ∧ t.jobs = [] ∧ t.prepared = [] ∧ t.sec = {} ∧
      t.nvm = { s.nvm with deferred := [] } ∧ cellarKept s t ∧ sameMemories s t ∧
      ∀ a, isSideband a = false → t.reg a = regReset a) ∧
  (∀ ns s, ns < 1000 → s.power.aux = true →
    (s.pins.pwrgd = false → exec (.pwrgdAssert ns) s = .next (s.bump 0 HUB_SB_CNT_GLITCH_V)) ∧
    (s.pins.pwrgd = true → exec (.pwrgdDeassert ns) s = .next (s.bump 0 HUB_SB_CNT_GLITCH_V)) ∧
    (s.pins.perst = false → exec (.perstAssert ns) s = .next (s.bump 0 HUB_SB_CNT_GLITCH_V)) ∧
    (s.pins.perst = true → exec (.perstDeassert ns) s = .next (s.bump 0 HUB_SB_CNT_GLITCH_V))) ∧
  (∀ ns s, 10000 ≤ ns →
    (∃ t, exec (.pwrgdAssert ns) s = .next t ∧ t.pins.pwrgd = true) ∧
    (∃ t, exec (.pwrgdDeassert ns) s = .next t ∧ t.pins.pwrgd = false) ∧
    (∃ t, exec (.perstAssert ns) s = .next t ∧ t.pins.perst = true) ∧
    (∃ t, exec (.perstDeassert ns) s = .next t ∧ t.pins.perst = false)) ∧
  (∀ ns s c, 1000 ≤ ns → ns < 10000 → s.power.aux = true →
    (s.pins.pwrgd = false ∧ c = Instr.pwrgdAssert) ∨ (s.pins.pwrgd = true ∧ c = Instr.pwrgdDeassert) ∨
      (s.pins.perst = false ∧ c = Instr.perstAssert) ∨ (s.pins.perst = true ∧ c = Instr.perstDeassert) →
    exec (c ns) s = .next (s.bump 0 HUB_SB_CNT_GLITCH_V).drawn ∨ exec (c ns) s = exec (c 10000) s.drawn)

/-- STARTUP_STAGE ends the stage that runs with its code and the time, and the next stage runs (Table 13-1, R477, R478). Stage 1
boots copy A or, DEGRADED, copy B; where both fail it ends in FAIL, stage 7 follows and its end sets FATAL. In stage 2 a die
whose microcode fails leaves service; stage 3 leaves every bank of the dies zero; in stage 4 a device that does not train, in
stage 6 a link that fails takes its die out of service; in stage 5 a couch link can go out of service. A stage that leaves no die
in service ends in FAIL, one that found something in DEGRADED. Stage 7 reports a slow host link as DEGRADED; stage 8 is
NOT_PRESENT where neither port has a partner, DEGRADED where a partner fails, and takes the others up. Stage 9 puts every die in
service at its P1 share; with the larders zeroed the module is then in P1 and READY (R479). With no stage running the command
changes nothing. The clauses of stages 3, 4 and 6 are of a module
without pairs and jobs, or one that loses no die.
LARDER_ZEROING_DONE leaves every byte of the larders that were being zeroed zero, and no other die's larder changed; with stage
9 over the module becomes READY (R479). FLR clears READY, sets FLR_ACTIVE, zeroes the banks, resets the pairs' registers and ends
every pair and job; from P2 it ramps, from P3 it trains the dies again. FLR_COMPLETE leaves every larder zero and the module in P1
and READY, unless start-up is still under way (R483). -/
def Obligations.StartUpEnds : Prop :=
  ((∀ (rep : StageReport) s, s.fld 0 HUB_BRINGUP_CURRENT = 0 → s.startDue = false → exec (.startupStage rep) s = .next s) ∧
  (∀ (rep : StageReport) s, s.fld 0 HUB_BRINGUP_CURRENT = 1 →
    ∃ t, exec (.startupStage rep) s = .next t ∧ sameMemories s t ∧ sameWork s t ∧
      (if s.nvm.fwA.boots s.nvm.svnMin = true then stageEnds s t 1 2 2 ∧ t.bit 0 HUB_STATUS_FW_COPY = false
       else if s.nvm.fwB.boots s.nvm.svnMin = true then stageEnds s t 1 3 2 ∧ t.bit 0 HUB_STATUS_FW_COPY = true
       else stageEnds s t 1 4 7)) ∧
  (∀ (rep : StageReport) s, s.fld 0 HUB_BRINGUP_CURRENT = 2 →
    ∃ t, exec (.startupStage rep) s = .next t ∧ t.liveDies = s.liveDies.filter (fun d => !bitN rep.badMicrocode d) ∧
      (∀ d ∈ s.liveDies, bitN rep.badMicrocode d = true → t.dieState d = 1) ∧
      stageEnds s t 2 (dieStageCode t (s.liveDies.any (bitN rep.badMicrocode))) 3 ∧ sameMemories s t ∧ sameWork s t) ∧
  (∀ (rep : StageReport) s, s.fld 0 HUB_BRINGUP_CURRENT = 3 → atRest s →
    ∃ t, exec (.startupStage rep) s = .next t ∧ stageEnds s t 3 (dieStageCode t (s.liveDies.any (fun d =>
        (List.range 816).any (fun k => t.bit (bankAt (d * 816 + k)) BANK_STAT_FAILED)))) 4 ∧
      (∀ d ∈ s.liveDies, (∀ x, x < 524288000 → t.shelf.read1 (shelfKey d 0 0 + x) = 0 ∧
        t.shelf.poisoned (shelfKey d 0 0 + x) = false) ∧ ∀ x, x < 2 ^ 26 → t.store.read1 (storeKey d 0 + x) = 0) ∧
      t.host = s.host ∧ t.attic = s.attic) ∧
  (∀ (rep : StageReport) s, s.fld 0 HUB_BRINGUP_CURRENT = 4 → atRest s ∨ rep.badDevices = 0 →
    ∃ t, exec (.startupStage rep) s = .next t ∧
      stageEnds s t 4 (dieStageCode t (s.liveDies.any (fun d => rep.badDevices / 2 ^ (8 * d) % 256 != 0))) 5 ∧
      t.liveDies = s.liveDies.filter (fun d => rep.badDevices / 2 ^ (8 * d) % 256 == 0) ∧ t.power.zeroing = maskOf t.liveDies ∧
      (∀ d ∈ s.liveDies, ∀ k, k < 8 → t.bit 0 LDR_DEV_STAT_TRAINED (8 * d + k) = !bitN rep.badDevices (8 * d + k)) ∧
      t.host = s.host ∧ t.attic = s.attic) ∧
  (∀ (rep : StageReport) s, s.fld 0 HUB_BRINGUP_CURRENT = 5 →
    ∃ t, exec (.startupStage rep) s = .next t ∧ stageEnds s t 5 (dieStageCode s (rep.badCouch % 16 != 0)) 6 ∧
      (∀ n, n < 4 → if bitN rep.badCouch n || !s.linkOk n then t.linkOk n = false else t.linkUp n = true) ∧ sameMemories s t ∧
      sameWork s t) ∧
  (∀ (rep : StageReport) s, s.fld 0 HUB_BRINGUP_CURRENT = 6 → atRest s ∨ rep.badHub = 0 →
    ∃ t, exec (.startupStage rep) s = .next t ∧
      stageEnds s t 6 (dieStageCode t (rep.badHub % 16 != 0)) (if s.power.leaving = none then 7 else 9) ∧
      t.liveDies = s.liveDies.filter (fun d => !bitN rep.badHub d) ∧ t.host = s.host ∧ t.attic = s.attic) ∧
  (∀ (rep : StageReport) s, s.fld 0 HUB_BRINGUP_CURRENT = 7 → s.fld 0 (stageCode 1) ≠ 4 →
    ∃ t, exec (.startupStage rep) s = .next t ∧ stageEnds s t 7 (if rep.hostSlow then 3 else 2) 8 ∧ t.pins.xPerst = false ∧
      sameMemories s t ∧ sameWork s t ∧ sameRegs (fun a => a = 0x10 ∨ a = HUB_BRINGUP_T_END.at 0 6) s t) ∧
  (∀ (rep : StageReport) s, s.fld 0 HUB_BRINGUP_CURRENT = 7 → s.fld 0 (stageCode 1) = 4 →
    ∃ t, exec (.startupStage rep) s = .next t ∧ stageEnds s t 7 (if rep.hostSlow then 3 else 2) 0 ∧
      t.bit 0 HUB_STATUS_FATAL = true ∧ t.bit 0 HUB_STATUS_STARTING = false ∧ sameMemories s t ∧ sameWork s t) ∧
  (∀ (rep : StageReport) s, s.fld 0 HUB_BRINGUP_CURRENT = 8 →
    ∃ t, exec (.startupStage rep) s = .next t ∧ stageEnds s t 8
        (if s.pins.x0Prsnt = false ∧ s.pins.x1Prsnt = false then 5
         else if (s.pins.x0Prsnt && !rep.x0.ok) || (s.pins.x1Prsnt && !rep.x1.ok) then 3 else 2) 9 ∧
      (s.pins.x0Prsnt = true → rep.x0.ok = true → t.bit 0 ATC_STAT_UP 0 = true) ∧
      (s.pins.x1Prsnt = true → rep.x1.ok = true → t.bit 0 ATC_STAT_UP 1 = true) ∧ sameMemories s t ∧ sameWork s t) ∧
  (∀ (rep : StageReport) s, s.fld 0 HUB_BRINGUP_CURRENT = 9 → s.power.leaving = none →
    ∃ t, exec (.startupStage rep) s = .next t ∧ stageEnds s t 9 2 0 ∧ t.pstate = 1 ∧
      (∀ d, d < 4 → t.levelW d = if s.dieState d = 0 then 60 else 0) ∧
      (s.power.zeroing = 0 → s.bit 0 HUB_STATUS_STARTING = true → s.bit 0 HUB_STATUS_FLR_ACTIVE = false → t.ready = true) ∧
      (s.power.zeroing ≠ 0 → t.ready = s.ready ∧ sameMemories s t ∧ sameWork s t))) ∧
  (∀ s, s.power.zeroing ≠ 0 → ∃ t, exec .larderZeroingDone s = .next t ∧ t.power.zeroing = 0 ∧
    (∀ d x, d < 4 → x < 2 ^ 35 →
      t.larder.read1 (d * 2 ^ 35 + x) = if bitN s.power.zeroing d && s.dieState d == 0 then 0 else s.larder.read1 (d * 2 ^ 35 + x)) ∧
    (s.stagesDone = true → s.power.leaving = none → s.bit 0 HUB_STATUS_STARTING = true →
      s.bit 0 HUB_STATUS_FLR_ACTIVE = false → t.ready = true)) ∧
  (∀ s, s.power.main = true ∨ s.pstate = 3 → s.pins.perst = false → s.shutting = false → s.bit 0 HUB_STATUS_FATAL = false →
    s.bit 0 HUB_STATUS_STARTING = false ∨ 2 ≤ s.fld 0 (stageCode 7) →
    ∃ t, exec .flr s = .next t ∧ t.ready = false ∧ t.bit 0 HUB_STATUS_FLR_ACTIVE = true ∧ t.qps = [] ∧ t.jobs = [] ∧
      t.prepared = [] ∧ t.attics = [] ∧ t.larder = s.larder ∧ t.attic = s.attic ∧ t.host = s.host ∧
      (∀ d x, d < 4 → x < 524288000 → t.shelf.read1 (shelfKey d 0 0 + x) = 0) ∧
      (∀ d x, d < 4 → x < 2 ^ 26 → t.store.read1 (storeKey d 0 + x) = 0) ∧
      (∀ a, within 0x100000 0x200000 a = true → t.reg a = regReset a) ∧
      (s.pstate = 2 → ∃ r ∈ t.power.ramps, r.serves = .flr) ∧
      (s.pstate = 3 → s.power.leaving = none → t.power.leaving = some .flr ∧ t.fld 0 HUB_BRINGUP_CURRENT = 2)) ∧
  (∀ s, s.bit 0 HUB_STATUS_FLR_ACTIVE = true → s.pstate ≤ 1 → s.power.leaving = none → s.power.wakeBanks = none →
    ∃ t, exec .flrComplete s = .next t ∧ t.bit 0 HUB_STATUS_FLR_ACTIVE = false ∧
      (∀ d x, d < 4 → x < 2 ^ 35 → t.larder.read1 (d * 2 ^ 35 + x) = 0 ∧ t.larder.poisoned (d * 2 ^ 35 + x) = false) ∧
      (s.bit 0 HUB_STATUS_STARTING = false → t.ready = true ∧ t.pstate = 1))

/-! ## The governor and ageing (R486 to R508) -/

/-- Every reading of the sensors shows the cold plate's temperatures; an island read at 100 °C or more has its limit lowered
by 25 MHz, not below 1,200 MHz; a release step raises the limit of an island that has cooled by 25 MHz, until it no longer
constrains (R499); for an island that is not limited or not cool, the step changes nothing. No memory, pair or job changes. -/
def Obligations.ThermalLimits : Prop :=
  (∀ rs ci co s, s.power.aux = true → ∃ t, exec (.thermalRead rs ci co) s = .next t ∧
    t.fld 0 PWR_TEMP_COOL_IN_C = ci % 256 ∧ t.fld 0 PWR_TEMP_COOL_OUT_C = co % 256 ∧ sameMemories s t ∧ t.qps = s.qps ∧
    t.jobs = s.jobs ∧ t.prepared = s.prepared ∧ t.nvm = s.nvm ∧ t.sec = s.sec ∧ t.cellar = s.cellar) ∧
  (∀ (r : Reading) ci co s, s.power.aux = true → s.power.main = true → r.die < 4 → r.core < 100 → 100 ≤ r.degC →
    ∃ t, exec (.thermalRead [r] ci co) s = .next t ∧
      (t.core r.die r.core).thermal =
        some (max 1200 (limitBy (s.freqNow r.die r.core) (s.core r.die r.core).thermal - 25)) ∧
      (t.core r.die r.core).cool = false ∧ t.fld 0 PWR_TEMP_HOTTEST_C = r.degC % 256 ∧
      (∀ d p, d * 100 + p ≠ r.die * 100 + r.core → t.core d p = s.core d p) ∧ t.dies = s.dies) ∧
  (∀ (d : Die) (p : Phys) f s, (s.core d p).thermal = some f → (s.core d p).cool = true → (s.die d).cool = true →
    ∃ t, exec (.throttleReleaseStep d p) s = .next t ∧
      (t.core d p).thermal = (if (if s.bit 0 PWR_CTRL_BOOST then s.fMax d p else min 1750 (s.fMax d p)) ≤ f + 25 then none
        else some (f + 25)) ∧
      (∀ e q, e * 100 + q ≠ d.val * 100 + p.val → t.core e q = s.core e q) ∧ sameMemories s t ∧ t.qps = s.qps ∧
      t.jobs = s.jobs) ∧
  (∀ (d : Die) (p : Phys) s, (s.core d p).thermal = none ∨ (s.core d p).cool = false ∨ (s.die d).cool = false →
    exec (.throttleReleaseStep d p) s = .next s)

/-- A die that has run no job for PWR_CTRL.LINGER_US falls to its P1 share of 60 W, and no other die's level changes; before then
nothing changes (R496). A
ramp that completes brings its die's draw to its effective level, and the next one is at the front of the queue (R494). The
ballast loop shows whether some die's work draws less than the die (R493). A module in P0 without work for PWR_CTRL.IDLE_US goes to P1,
not before, and work that waits brings it back at once, nothing else changing (R486, R490); from P2 the wake begins with a ramp of the whole
module; the ramp's end brings the dies to their levels, and the next POWER_WAKE then leaves every bank in RETAIN ON and READY,
with the owners that P2 took away, and the module in P0. -/
def Obligations.LevelsAndStates : Prop :=
  ((∀ (d : Die) s, s.ramps d = true → 60 < s.levelW d → s.runsOn d = false →
    s.restTs d + 1000 * max 100 (s.fld 0 PWR_CTRL_LINGER_US) ≤ s.ts → ∃ t, exec (.lingerExpiry d) s = .next t ∧ t.levelW d = 60 ∧ (∀ e, e < 4 → e ≠ d.val → t.levelW e = s.levelW e) ∧
      sameMemories s t ∧ sameWork s t) ∧
  (∀ (d : Die) s, s.ts < s.restTs d + 1000 * max 100 (s.fld 0 PWR_CTRL_LINGER_US) → exec (.lingerExpiry d) s = .next s) ∧
  (∀ (d : Die) n rest s, s.power.ramps = ⟨some d.val, 0, .none, n⟩ :: rest →
    ∃ t, exec .rampComplete s = .next t ∧ t.drawW d = s.effW d ∧ t.power.ramps = rest ∧
      (∀ e, e < 4 → t.levelW e = s.levelW e) ∧ sameMemories s t ∧ sameWork s t) ∧
  (∀ w s, s.power.main = true → s.pstate ≤ 1 →
    ∃ t, exec (.ballastAdjust w) s = .next t ∧
      (t.bit 0 PWR_STAT_BALLAST = true ↔ ∃ d, d < 4 ∧ s.ramps d = true ∧ w.getD d 0 < s.drawW d) ∧
      sameMemories s t ∧ t.qps = s.qps ∧ t.jobs = s.jobs)) ∧
  ((∀ s, s.pstate = 0 → s.ready = true → s.d2 = false → s.atWork = false → s.power.waking = false → s.sec.d2wait = none →
    s.restTs 4 + 1000 * max 10 (s.fld 0 PWR_CTRL_IDLE_US) ≤ s.ts → ∃ t, exec .idleToP1 s = .next t ∧ t.pstate = 1 ∧ t.fld 0 PWR_STAT_PSTATE = 1 ∧ sameMemories s t ∧ sameWork s t ∧
      sameHub s t ∧ sameRegs (fun a => a = 0 ∨ a = PWR_STAT_PSTATE.at 0 0) s t) ∧
  (∀ s, s.ts < s.restTs 4 + 1000 * max 10 (s.fld 0 PWR_CTRL_IDLE_US) → exec .idleToP1 s = .next s) ∧
  (∀ s, s.power.waking = true → s.power.wakeBanks = none → s.pstate = 1 →
    ∃ t, exec .powerWake s = .next t ∧ t.pstate = 0 ∧ t.fld 0 PWR_STAT_PSTATE = 0 ∧ t.power = { s.power with waking := false } ∧
      t.bit 0 HUB_STATUS_TRANSITION = false ∧ sameMemories s t ∧ sameWork s t) ∧
  (∀ s, s.power.waking = true → s.power.wakeBanks = none → s.pstate = 2 → s.power.ramps.any (fun r => r.die.isNone) = false →
    ∃ t, exec .powerWake s = .next t ∧ t.power.ramps = s.power.ramps ++ [⟨none, 1, .wake, s.ts⟩] ∧
      t.bit 0 HUB_STATUS_TRANSITION = true ∧ t.pstate = 2 ∧ sameMemories s t ∧ sameWork s t) ∧
  (∀ n rest s, s.power.ramps = ⟨none, 1, .wake, n⟩ :: rest →
    ∃ t, exec .rampComplete s = .next t ∧ t.power.wakeBanks = some .wake ∧ t.power.ramps = rest ∧
      (∀ d, d < 4 → t.drawW d = if s.dieState d = 0 then s.effW d else 0) ∧ sameMemories s t ∧ sameWork s t) ∧
  (∀ s, s.power.wakeBanks = some .wake → ∃ t, exec .powerWake s = .next t ∧ t.pstate = 0 ∧
    t.power = { s.power with waking := false, wakeBanks := none, p2owners := [] } ∧ t.bit 0 HUB_STATUS_TRANSITION = false ∧
    (∀ b, b < 3264 → s.dieState (bankDie b) = 0 → s.bankPwr b = 1 →
      t.bankPwr b = 0 ∧ t.bit (bankAt b) BANK_STAT_READY = true) ∧
    (Tab.sorted s.power.p2owners = true → (∀ e ∈ s.power.p2owners, e.1 < 3264) → ∀ b v, Tab.find s.power.p2owners b = some v →
      s.dieState (bankDie b) = 0 → t.fld (bankAt b) BANK_OWN_OWNER = v % 8) ∧
    (s.bankTrans = [] → sameMemories s t) ∧ sameWork s t))

/-- What the ageing monitors record (R503, R505, R506): a ring-oscillator sample, the slack of an island, the minimum voltages
of a bank whose owner is 0, an eye. A slack below 4 % asks for a re-plan, one below 2 % also lowers the frequency by 50 MHz
and is counted; an eye at or above its minimum, or mended by a retraining, changes nothing else, nor does the host link's; below
it and not mended, a larder device or a hub-to-die link takes its die out of service (the clauses are of a module without pairs and
jobs), a couch link and an attic port go out of service (R506, Table 13-8). A re-plan gives each island listed the lowest V(f) that the
prediction and the SRAM minima allow, in steps of 5 mV and at most 800 mV, with the highest frequency that has one as its F_MAX
(R504); it is counted, ends the request, and appends a record of the present time to the ledger (R507). -/
def Obligations.AgeingAndPlans : Prop :=
  ((∀ (d : Die) (p : Phys) v s, s.power.main = true → s.pstate ≠ 3 → ∃ t, exec (.ageingSample d p v) s = .next t ∧
    Tab.find t.power.osc (islOf d p) = some v ∧ t.regs = s.regs ∧ t.nvm = s.nvm ∧ sameMemories s t ∧ sameWork s t) ∧
  (∀ (d : Die) (p : Phys) sl s, s.power.main = true → s.pstate ≤ 1 → ∃ t, exec (.slackMeasure d p sl) s = .next t ∧
    t.fld 0 AGE_ISL_SLACK (islOf d p) = min sl 255 ∧ (sl < 40 → t.bit 0 AGE_STAT_REPLANNING = true) ∧
    (20 ≤ sl → t.cores = s.cores) ∧
    (sl < 20 → (t.core d p).slackCap = some (max 1200 (s.freqNow d p - 50)) ∧
      t.fld 0 AGE_CNT_FAST_DROP_V =
        (s.fld 0 AGE_CNT_FAST_DROP_V + 1) % 2 ^ (AGE_CNT_FAST_DROP_V.hi + 1 - AGE_CNT_FAST_DROP_V.lo)) ∧
    sameMemories s t ∧ t.qps = s.qps ∧ t.jobs = s.jobs ∧ t.nvm = s.nvm) ∧
  (∀ (b : BankNo) op ret s, s.power.main = true → s.pstate ≤ 1 → s.fld (bankAt b) BANK_OWN_OWNER = 0 →
    (s.die (bankDie b)).marches = [] → exec (.sramVminMeasure b op ret) s =
      .next { s with nvm := { s.nvm with vmin := Tab.put s.nvm.vmin b.val (op % 256, ret % 256) } }) ∧
  (∀ q w h mw ok s, s.power.main = true → q ≤ 50 → mw ≤ w ∨ ok = true → exec (.eyeCheck q w h mw ok) s =
      .next { s with nvm := { s.nvm with eyes := Tab.put s.nvm.eyes q (w % 65536, h % 65536, mw % 65536) } }) ∧
  (∀ w h mw s, s.power.main = true → exec (.eyeCheck 48 w h mw false) s =
      .next { s with nvm := { s.nvm with eyes := Tab.put s.nvm.eyes 48 (w % 65536, h % 65536, mw % 65536) } }) ∧
  (∀ q w h mw s, s.power.main = true → w < mw → q < 32 → s.bit 0 LDR_DEV_STAT_TRAINED q = true → s.dieState (q / 8) = 0 →
    atRest s → ∃ t, exec (.eyeCheck q w h mw false) s = .next t ∧ t.bit 0 LDR_DEV_STAT_FAILED q = true ∧
      t.dieState (q / 8) = 2 ∧ t.liveDies = s.liveDies.filter (fun d => d != q / 8)) ∧
  (∀ n e w h mw s, s.power.main = true → w < mw → n < 4 → s.linkOk n = true →
    e = 32 + 2 * n ∨ e = 33 + 2 * ((n + 1) % 4) → ∃ t, exec (.eyeCheck e w h mw false) s = .next t ∧
      t.linkOk n = false ∧ t.linkUp n = false) ∧
  (∀ q w h mw s, s.power.main = true → w < mw → 40 ≤ q → q < 48 → (s.die (q % 4)).cut = false → s.dieState (q % 4) = 0 →
    atRest s → ∃ t, exec (.eyeCheck q w h mw false) s = .next t ∧ (t.die (q % 4)).cut = true ∧ t.dieState (q % 4) = 1 ∧
      t.liveDies = s.liveDies.filter (fun d => d != q % 4)) ∧
  (∀ x w h mw s, s.power.main = true → w < mw → x < 2 → s.bit 0 ATC_STAT_UP x = true →
    ∃ t, exec (.eyeCheck (49 + x) w h mw false) s = .next t ∧ t.bit 0 ATC_STAT_UP x = false ∧
      t.bit 0 ATC_STAT_DOWN_SEEN x = true ∧ bitN t.power.atticOut x = true)) ∧
  ((∀ pred s, s.power.main = true → s.pstate ≤ 1 → s.bit 0 HUB_STATUS_STARTING = false →
    ∃ t, exec (.ageingReplan pred) s = .next t ∧ t.bit 0 AGE_STAT_REPLANNING = false ∧
      counted s t 0 AGE_CNT_REPLANS_V 0 1 ∧
      ((pred.map (fun x => islOf x.die x.phys)).Nodup → ∀ x ∈ pred, x.die < 4 → x.phys < 100 →
        Tab.find t.power.plans (islOf x.die x.phys) = some (planVolts (s.islandFloor x.die x.phys) x.volts) ∧
        t.fMax x.die x.phys = planFmax (planVolts (s.islandFloor x.die x.phys) x.volts)) ∧
      (∃ r, t.nvm.ledger = (s.nvm.ledger ++ [r]).drop (s.nvm.ledger.length + 1 - 4096) ∧ r.ts = s.ts) ∧
      sameMemories s t ∧ t.qps = s.qps ∧ t.jobs = s.jobs) ∧
  (∀ low pred k, k < 29 → (planVolts low pred).getD k 0 = 0 ∨
    ((planVolts low pred).getD k 0 ≤ 800 ∧ (planVolts low pred).getD k 0 % 5 = 0 ∧ pred.getD k 0 ≤ (planVolts low pred).getD k 0 ∧
      low ≤ (planVolts low pred).getD k 0 ∧ (planVolts low pred).getD k 0 < max (pred.getD k 0) low + 5)) ∧
  (∀ vs, planFmax vs = 0 ∨ ∃ k, k < 29 ∧ planFmax vs = 1200 + 25 * k ∧ vs.getD k 0 ≠ 0 ∧
    ∀ i, k < i → i < 29 → vs.getD i 0 = 0))

/-! ## Accesses from outside (R11, R13, R32 to R44, R282, R521) -/

/-- A BAR0 write that is not naturally aligned or not of 4 B or 8 B has no effect (R39). A reserved word reads as zero and a
write to it has no effect (R40); so do all of a die's registers while the die is held in reset (R42) or the module is in P3, and
every register from 0x90 on while FATAL is set. A write to a register without behaviour of its own, whole or half of a 64-bit
one: RW bits take the written value, W1C bits written as 1 become 0, every other bit keeps its value, and nothing else changes
(R11, R13); a write of an alert register or an enable also drives ALERT#, one of PWR_CTRL.BOOST the islands' frequencies. An 8 B
write to two words is two 4 B writes, the lower first. A write to the mailbox buffer stores its bytes. -/
def Obligations.RegisterWriteBits : Prop :=
  (∀ (a n v : Nat) (s : State), a + n ≤ 0x4000000 → (n ≠ 4 ∧ n ≠ 8) ∨ a % n ≠ 0 → exec (.registerWrite a n v) s = .next s) ∧
  (∀ (a v : Nat) (s : State), a + 4 ≤ 0x4000000 → a % 4 = 0 → widthAt a = 0 → widthAt (a - 4) ≠ 64 → inMbox a = false →
    inTrace a = false → exec (.registerWrite a 4 v) s = .next s ∧
    (a % 8 = 0 → widthAt (a + 4) = 0 → exec (.registerWrite a 8 v) s = .next s) ∧
    (s.serves a = true → exec (.bar0HalfRead a 4) s = .next { s.seeQueue a with rd := ⟨zeros 4, false⟩ })) ∧
  (∀ (a n v : Nat) (s : State), a + n ≤ 0x4000000 →
    (∃ d, dieOf a = some d ∧ (s.dieState d = 5 ∨ s.pstate = 3)) ∨ (s.bit 0 HUB_STATUS_FATAL = true ∧ 0x90 ≤ a) →
    exec (.registerWrite a n v) s = .next s ∧ exec (.bar0HalfRead a n) s = .next { s with rd := ⟨zeros n, false⟩ }) ∧
  (∀ (a n o v : Nat) (r : RegRow) (s : State), regRow a = some r → r.width = 32 ∨ r.width = 64 → a % (r.width / 8) = 0 →
    n = r.width / 8 ∧ o = 0 ∨ r.width = 64 ∧ n = 4 ∧ (o = 0 ∨ o = 4 ∧ widthAt (a + 4) = 0) → ownReg a = false →
    s.serves a = true → s.serves (a + o) = true → ∃ t, exec (.registerWrite (a + o) n v) s = .next t ∧
      (∀ i, i < r.width → (t.reg a).getLsbD i = if i < 8 * o ∨ 8 * o + 8 * n ≤ i then (s.reg a).getLsbD i
        else if r.w1c.testBit i && v.testBit (i - 8 * o) then false
        else if r.rw.testBit i then v.testBit (i - 8 * o) else (s.reg a).getLsbD i) ∧
      sameRegs (fun b => b = a ∨ (alertReg a = true ∧ b = HUB_SB_STAT_ALERT.at 0 0) ∨
        (a = 0x300010 ∧ ∃ k, b = AGE_ISL_F_NOW.at 0 k)) s t ∧
      sameMemories s t ∧ sameWork s t ∧ sameHub s t) ∧
  (∀ (a v : Nat) (s t : State), a % 8 = 0 → a + 8 ≤ 0x4000000 → widthAt a ≠ 64 → inMbox a = false → s.serves a = true →
    exec (.registerWrite a 4 v) s = .next t → t.serves (a + 4) = true → inMbox (a + 4) = false →
    exec (.registerWrite a 8 v) s = exec (.registerWrite (a + 4) 4 (v / 2 ^ 32)) t) ∧
  (∀ (a n v : Nat) (s : State), inMbox a = true → n = 4 ∨ n = 8 → a % n = 0 → s.bit 0 HUB_STATUS_FATAL = false →
    ∃ t, exec (.registerWrite a n v) s = .next t ∧ t.mbox.buf = s.mbox.buf.write (a - 0x210000) (bytesLE n v) ∧ t.regs = s.regs ∧
      sameMemories s t ∧ sameWork s t ∧ t.nvm = s.nvm ∧ t.sec = s.sec)

/-- A write over BAR0 of a register with behaviour of its own is the command of that register: a pair's configuration and its
doorbells, the job reset, the nonce, halt and resume, the mailbox, a bank's owner, power request and debug window, an injection;
a read of the debug window is the window's command. At D2 a JTAG write is a BAR0 write, below it acts as BYPASS (R370 to R372,
R402, R521). -/
def Obligations.DoorbellsOverBar0 : Prop :=
  (∀ (j : Slot) (v : Nat) (s : State), v < 2 ^ 32 →
    exec (.registerWrite (0x101018 + j * 0x80) 4 v) s = exec (if v % 2 = 1 then .qpEnable j v else .qpDisable j v) s ∧
    exec (.registerWrite (0x180000 + j * 0x10) 4 v) s = exec (.sqTailDoorbell j v) s ∧
    exec (.registerWrite (0x180004 + j * 0x10) 4 v) s = exec (.cqHeadDoorbell j v) s ∧
    exec (.registerWrite (0x180008 + j * 0x10) 4 v) s = exec (.evtHeadDoorbell j v) s ∧
    exec (.registerWrite 0x100010 4 j.val) s = exec (.keagerJobReset j) s ∧
    exec (.registerWrite 0x200008 4 1) s = exec .newNonce s ∧ exec (.registerWrite 0x200500 4 1) s = exec .mboxGo s ∧
    (v.testBit 10 = true → exec (.registerWrite 0x200300 4 v) s = exec (.halt v) s) ∧
    (v.testBit 11 = true → exec (.registerWrite 0x200300 4 v) s = exec (.resume v) s)) ∧
  (∀ (b : BankNo) (v : Nat) (s : State), v < 2 ^ 32 →
    exec (.registerWrite (bankAt b) 4 v) s = exec (.bankOwnWrite b v) s ∧
    exec (.registerWrite (bankAt b + 0x10) 4 v) s = exec (.bankPwrReqWrite b v) s) ∧
  (∀ (b : BankNo) (v : Nat) (s : State), v < 2 ^ 64 →
    exec (.registerWrite (bankAt b + 0x88) 8 v) s = exec (.bankDbgWrite b v) s ∧
    exec (.bar0HalfRead (bankAt b + 0x88) 8) s = exec (.bankDbgRead b) s) ∧
  (∀ (d : Die) (p : Phys) (k : Arr) (v : Nat) (s : State), v < 2 ^ 32 →
    exec (.registerWrite (arrAt d p k + 0x58) 4 v) s = exec (.arrInject d p k v) s) ∧
  (∀ (a n v : Nat) (s : State), s.power.aux = true →
    (s.d2 = true → a + n ≤ 0x4000000 → exec (.jtagRegWrite a n v) s = exec (.registerWrite a n v) s) ∧
    (s.d2 = true → 0x4000000 < a + n → exec (.jtagRegWrite a n v) s = .next s) ∧
    (s.d2 = false → exec (.jtagRegWrite a n v) s = .next { s with pins := { s.pins with tdo := 2 * a } }))

/-- BAR0 reads. Two 4 B reads of a 64-bit register give one value: the first answers bits [31:0] and latches bits [63:32], which
the second answers whatever has happened between them (R43). An 8 B read of it answers all 64 bits at once and leaves the latch.
A 4 B read of a 32-bit register answers its bits; one of the mailbox buffer its bytes, one of the trace ring zero at D0. A read
of another size, or not naturally aligned, answers zeros (R39). A core's or die queue's registers show the queue as it stands. -/
def Obligations.HalvesOfOneValue : Prop :=
  (∀ (a : Nat) (s : State), a % 8 = 0 → a + 8 ≤ 0x4000000 → widthAt a = 64 → widthAt (a + 4) = 0 → inMbox a = false →
    inMbox (a + 4) = false → inTrace a = false → inTrace (a + 4) = false → s.serves a = true →
    (∃ t, exec (.bar0HalfRead a 4) s = .next t ∧ t.rd.data = bytesLE 4 (((s.seeQueue a).regRead a).2 % 2 ^ 32) ∧
      ∀ u : State, u.latch = t.latch → u.serves (a + 4) = true →
        ∃ w, exec (.bar0HalfRead (a + 4) 4) u = .next w ∧
          w.rd.data = bytesLE 4 (((s.seeQueue a).regRead a).2 / 2 ^ 32) ∧
          w.regs = (u.seeQueue (a + 4)).regs ∧ sameMemories u w ∧ sameWork u w ∧ sameHub u w) ∧
    (∃ t, exec (.bar0HalfRead a 8) s = .next t ∧ t.rd.data = bytesLE 8 ((s.seeQueue a).regRead a).2 ∧ t.latch = s.latch)) ∧
  (∀ (a : Nat) (s : State), a % 4 = 0 → a + 4 ≤ 0x4000000 → widthAt a = 32 → inMbox a = false → inTrace a = false →
    s.serves a = true → exec (.bar0HalfRead a 4) s =
      .next { s.seeQueue a with rd := ⟨bytesLE 4 (((s.seeQueue a).reg a).toNat % 2 ^ 32), false⟩ }) ∧
  (∀ (a : Nat) (s : State), a % 4 = 0 → inMbox a = true → s.bit 0 HUB_STATUS_FATAL = false → exec (.bar0HalfRead a 4) s =
    .next { s with rd := ⟨bytesLE 4 (s.mbox.buf.readN (a - 0x210000) 4), false⟩ }) ∧
  (∀ (a : Nat) (s : State), a % 4 = 0 → inTrace a = true → s.level = 0 →
    exec (.bar0HalfRead a 4) s = .next { s with rd := ⟨zeros 4, false⟩ }) ∧
  (∀ (a n : Nat) (s : State), a + n ≤ 0x4000000 → (n ≠ 4 ∧ n ≠ 8) ∨ a % n ≠ 0 →
    exec (.bar0HalfRead a n) s = .next { s with rd := ⟨zeros n, false⟩ })

/-- A BAR2 write to populated larder addresses stores its bytes and nothing else: a granule written whole takes the poison of
the write, one written in part ORs it with its own (R282). A BAR2 read gives the larder's bytes, all ones where no larder is
populated, and is poisoned exactly where it covers a poisoned granule (R282). A write to an unpopulated address is discarded;
either access to one sets UNPOP, and records the first such granule if UNPOP was 0 (R34). While the dies have no power a write
stores nothing. An error of a burst of the access: a corrected one is counted, an uncorrectable one poisons its granule, and a
read with it is poisoned (R281); retries are counted, and a device that exhausts them fails (R280; that clause is of a module
without pairs and jobs). -/
def Obligations.Bar2Window : Prop :=
  (∀ (off : Nat) (data : List Byte) (p : Bool) (s : State), off + data.length ≤ s.bar2Bytes → s.power.main = true →
    laRange (s.bar2La off) data.length = true →
    ∃ t, exec (.bar2Write off data p []) s = .next t ∧
      (∀ x, t.larder.read1 x = if s.bar2La off ≤ x ∧ x < s.bar2La off + data.length then data.getD (x - s.bar2La off) 0
        else s.larder.read1 x) ∧
      (∀ x, s.bar2La off ≤ x → x < s.bar2La off + data.length → t.larder.poisoned x =
        (p || (s.larder.poisoned x && !(decide (s.bar2La off ≤ x / 64 * 64) &&
          decide (x / 64 * 64 + 64 ≤ s.bar2La off + data.length))))) ∧
      t.host = s.host ∧ t.attic = s.attic ∧ t.shelf = s.shelf ∧ t.store = s.store ∧ sameWork s t ∧ sameHub s t ∧
      sameRegs (fun a => a = 0x400810) s t) ∧
  (∀ (off len : Nat) (s : State), off + len ≤ s.bar2Bytes → s.power.main = true →
    ∃ t, exec (.bar2Read off len []) s = .next t ∧ sameMemories s t ∧ sameWork s t ∧ sameHub s t ∧
      t.rd.data = (List.range len).map (fun i =>
        if laPopulated (s.bar2La off + i) then s.larder.read1 (s.bar2La off + i) else 0xFF) ∧
      (t.rd.poison = true ↔ ∃ x, s.bar2La off ≤ x ∧ x < s.bar2La off + len ∧ laPopulated x = true ∧
        s.larder.poisoned x = true) ∧
      (∀ x, s.bar2La off ≤ x → x < s.bar2La off + len → laPopulated x = false →
        (∀ y, s.bar2La off ≤ y → y < x → laPopulated y = true) → unpopReported s t x)) ∧
  (∀ (off : Nat) (data : List Byte) (p : Bool) (s : State), off + data.length ≤ s.bar2Bytes → s.power.main = true →
    ∃ t, exec (.bar2Write off data p []) s = .next t ∧ t.host = s.host ∧ t.attic = s.attic ∧ t.shelf = s.shelf ∧
      t.store = s.store ∧
      (∀ x, laPopulated x = false → t.larder.read1 x = s.larder.read1 x ∧ t.larder.poisoned x = s.larder.poisoned x) ∧
      (∀ x, s.bar2La off ≤ x → x < s.bar2La off + data.length → laPopulated x = false →
        (∀ y, s.bar2La off ≤ y → y < x → laPopulated y = true) → unpopReported s t x)) ∧
  (∀ (off len : Nat) (data : List Byte) (p : Bool) (es : List BurstErr) (s : State), s.power.main = false →
    (off + len ≤ s.bar2Bytes → ∃ t, exec (.bar2Read off len es) s = .next t ∧ sameMemories s t ∧ sameWork s t ∧ sameHub s t) ∧
    (off + data.length ≤ s.bar2Bytes → ∃ t, exec (.bar2Write off data p es) s = .next t ∧ sameMemories s t ∧ sameWork s t ∧
      sameHub s t)) ∧
  (∀ (off len la : Nat) (s : State), off + len ≤ s.bar2Bytes → s.power.main = true → s.bar2La off ≤ la →
    la < s.bar2La off + len → laPopulated la = true →
    (∃ t, exec (.bar2Read off len [.corrected la]) s = .next t ∧ sameMemories s t ∧
      counted s t 0 LDR_DEV_CNT_CE_V (larderDevice la) 1) ∧
    (∃ t, exec (.bar2Read off len [.uncorrectable la]) s = .next t ∧ t.rd.poison = true ∧ t.larder.poisoned la = true ∧
      (∀ x, t.larder.read1 x = s.larder.read1 x) ∧ t.bit 0 LDR_DEV_STAT_UE (larderDevice la) = true ∧
      counted s t 0 LDR_DEV_CNT_UE_V (larderDevice la) 1) ∧
    (∀ k, k ≤ 16 → ∃ t, exec (.bar2Read off len [.retried la k]) s = .next t ∧ sameMemories s t ∧
      counted s t 0 LDR_DEV_CNT_RETRY_V (larderDevice la) k) ∧
    (atRest s → s.dieState (la / 2 ^ 35) = 0 → ∃ t, exec (.bar2Read off len [.exhausted la]) s = .next t ∧
      t.bit 0 LDR_DEV_STAT_FAILED (larderDevice la) = true ∧ t.dieState (la / 2 ^ 35) = 2 ∧
      counted s t 0 LDR_DEV_CNT_RETRY_V (larderDevice la) 16))

/-- JTAG instructions (R521, R523): IDCODE shifts out the identification code at every level, BYPASS delays by one bit; below
the level that an instruction needs it acts as BYPASS; at D1 and D2 a register is read, an address that no register serves as
zero; at D2 a core is halted, a halted core is scanned, one that is not halted scans as zero, and the boundary cells take what is
shifted in. What is shifted out ahead of BYPASS is the model's choice (log entry 36). -/
def Obligations.JtagInstructions : Prop :=
  ∀ s : State, s.power.aux = true →
    (exec .jtagIdcode s = .next { s with pins := { s.pins with tdo := Config.idcode } }) ∧
    (∀ b, exec (.jtagBypass b) s = .next { s with pins := { s.pins with tdo := 2 * b2n b } }) ∧
    (∀ a n, s.level = 0 → exec (.jtagRegRead a n) s = .next { s with pins := { s.pins with tdo := 2 * a } }) ∧
    (∀ a, s.level ≠ 0 → s.serves a = true → a % 4 = 0 → inMbox a = false → inTrace a = false → widthAt a = 32 →
      ∃ t, exec (.jtagRegRead a 4) s = .next t ∧ t.pins = { s.pins with tdo := ((s.seeQueue a).reg a).toNat % 2 ^ 32 } ∧
        t.regs = (s.seeQueue a).regs ∧ sameMemories s t ∧ sameWork s t) ∧
    (∀ a, s.level ≠ 0 → s.serves a = true → a % 8 = 0 → widthAt a = 64 →
      ∃ t, exec (.jtagRegRead a 8) s = .next t ∧ t.pins = { s.pins with tdo := ((s.seeQueue a).regRead a).2 }) ∧
    (∀ a n, s.level ≠ 0 → s.serves a = false ∨ (n ≠ 4 ∧ n ≠ 8) ∨ a % n ≠ 0 →
      exec (.jtagRegRead a n) s = .next { s with pins := { s.pins with tdo := 0 } }) ∧
    (∀ (d : Die) (p : Phys), s.d2 = false →
      exec (.jtagScan d p) s = .next { s with pins := { s.pins with tdo := 2 * (d.val * 128 + p.val) } } ∧
      exec (.jtagHalt d p) s = .next { s with pins := { s.pins with tdo := 2 * (d.val * 128 + p.val) } }) ∧
    (∀ (d : Die) (p : Phys), s.d2 = true →
      ((s.core d p).halted = false → exec (.jtagScan d p) s = .next { s with pins := { s.pins with tdo := 0 } }) ∧
      (∃ t, exec (.jtagHalt d p) s = .next t ∧ (t.core d p).halted = true ∧
        (∀ e q, e * 100 + q ≠ d.val * 100 + p.val → t.core e q = s.core e q) ∧ sameMemories s t ∧ t.jobs = s.jobs ∧ t.qps = s.qps)) ∧
    (∀ (d : Die) (p : Phys), s.d2 = true → (s.core d p).halted = true → ∃ t, exec (.jtagScan d p) s = .next t ∧
      t.regs = s.regs ∧ sameMemories s t ∧ sameWork s t) ∧
    (∀ v, s.d2 = true → ∃ t u, exec (.jtagSamplePreload v) s = .next t ∧ exec (.jtagExtest v) s = .next u ∧
      t.pins.boundary = v ∧ u.pins.boundary = v ∧ t.regs = s.regs ∧ u.regs = s.regs ∧ sameMemories s t ∧ sameMemories s u ∧
      sameWork s t ∧ sameWork s u) ∧
    (∀ v, s.d2 = false → exec (.jtagSamplePreload v) s = .next { s with pins := { s.pins with tdo := 2 * v } } ∧
      exec (.jtagExtest v) s = .next { s with pins := { s.pins with tdo := 2 * v } })

/-! ## Queue pairs (R370 to R375, R402) -/

/-- EN = 1 written to a disabled pair enables it with empty rings, at its own configuration, and EN = 0 leaves it disabled with
the fields written; EN = 0 written to an enabled pair disables it, unless a command is outstanding or a run is in progress, when
only EN_REFUSED is set; while the pair is enabled, a write keeps the sizes (R370). -/
def Obligations.PairsEnableAndDisable : Prop :=
  ∀ (j : Slot) (cfg : Nat) (s : State), s.bit 0 HUB_STATUS_FATAL = false →
    (s.bit 0 KGR_QSTAT_ENABLED j = false → ∃ t, exec (.qpEnable j cfg) s = .next t ∧ t.bit 0 KGR_QSTAT_ENABLED j = true ∧
      t.fld 0 KGR_QSTAT_SQ_HEAD j = 0 ∧ t.fld 0 KGR_QSTAT_CQ_TAIL j = 0 ∧ t.fld 0 KGR_QSTAT_EVT_TAIL j = 0 ∧
      t.fld 0 KGR_SEQ_NEXT_V j = s.fld 0 KGR_SEQ_START_V j ∧ t.fld 0 KGR_QCFG_VECTOR j = bitsN cfg 20 14 ∧
      (t.qp j).cmds = [] ∧ (t.qp j).cqPhase = true ∧ (t.qp j).evtPhase = true ∧
      (t.qp j).sqBase = s.fld 0 KGR_SQ_BASE_ADDR j * 4096 ∧ (t.qp j).cqBase = s.fld 0 KGR_CQ_BASE_ADDR j * 4096 ∧
      (t.qp j).sqLog = min (max (t.fld 0 KGR_QCFG_SQ_LOG2 j) 6) 12 ∧ (t.qp j).cqLog = min (max (t.fld 0 KGR_QCFG_CQ_LOG2 j) 6) 12 ∧
      (∀ k, k ≠ j.val → t.qp k = s.qp k) ∧ sameMemories s t ∧ t.jobs = s.jobs ∧ sameHub s t ∧
      sameRegs (fun a => a = KGR_QCFG_VECTOR.at 0 j ∨ a = KGR_QSTAT_ENABLED.at 0 j ∨ a = KGR_SEQ_NEXT_V.at 0 j) s t) ∧
    (s.bit 0 KGR_QSTAT_ENABLED j = false → ∃ t, exec (.qpDisable j cfg) s = .next t ∧ t.bit 0 KGR_QSTAT_ENABLED j = false ∧
      t.fld 0 KGR_QCFG_VECTOR j = bitsN cfg 20 14 ∧ t.fld 0 KGR_QCFG_SQ_LOG2 j = bitsN cfg 4 1 ∧
      t.fld 0 KGR_QCFG_CQ_LOG2 j = bitsN cfg 8 5 ∧ t.fld 0 KGR_QCFG_EVT_LOG2 j = bitsN cfg 13 9 ∧
      sameRegs (fun a => a = KGR_QCFG_VECTOR.at 0 j) s t ∧ sameMemories s t ∧ sameWork s t ∧ sameHub s t) ∧
    (s.bit 0 KGR_QSTAT_ENABLED j = true → s.fld 0 KGR_QSTAT_OUTSTANDING j = 0 → s.running j = false →
      ∃ t, exec (.qpDisable j cfg) s = .next t ∧ t.bit 0 KGR_QSTAT_ENABLED j = false ∧ t.fld 0 KGR_SQ_TAIL_V j = 0 ∧
        t.fld 0 KGR_CQ_HEAD_V j = 0 ∧ t.fld 0 KGR_EVT_HEAD_V j = 0 ∧ sameMemories s t ∧ sameWork s t ∧ sameHub s t) ∧
    (s.bit 0 KGR_QSTAT_ENABLED j = true → s.fld 0 KGR_QSTAT_OUTSTANDING j ≠ 0 ∨ s.running j = true →
      exec (.qpDisable j cfg) s = .next (s.setFld 0 KGR_QSTAT_EN_REFUSED 1 j)) ∧
    (s.bit 0 KGR_QSTAT_ENABLED j = true → ∃ t, exec (.qpEnable j cfg) s = .next t ∧
      t.fld 0 KGR_QCFG_VECTOR j = bitsN cfg 20 14 ∧ t.fld 0 KGR_QCFG_SQ_LOG2 j = s.fld 0 KGR_QCFG_SQ_LOG2 j ∧
      t.fld 0 KGR_QCFG_CQ_LOG2 j = s.fld 0 KGR_QCFG_CQ_LOG2 j ∧ t.fld 0 KGR_QCFG_EVT_LOG2 j = s.fld 0 KGR_QCFG_EVT_LOG2 j ∧
      sameMemories s t ∧ sameWork s t ∧ sameHub s t)

/-- A head doorbell stores the value written; one that does not pass the tail frees the entries before it, one that does sets
ERROR with its cause and frees none. A tail beyond the queue sets ERROR with cause 1 and fetches nothing; before READY a tail is
accepted and nothing is fetched; on a disabled pair a doorbell does nothing (R371, R372, R402, R479). A bus error on a fetch or
on a completion or event write stops the pair with the cause of its access (R374), on a parameter block it completes the command
with 0x2044 (R376), on copy data it stops the COPY with 0x2044 (R382); where no such access is under way it does nothing. A bus
error replaces a lesser cause and keeps an equal or greater one: the model's reading (log entry 44). -/
def Obligations.DoorbellsMoveHeads : Prop :=
  ∀ (j : Slot) (v : Nat) (s : State), s.bit 0 HUB_STATUS_FATAL = false →
    (s.bit 0 KGR_QSTAT_ENABLED j = false → exec (.sqTailDoorbell j v) s = .next s ∧ exec (.cqHeadDoorbell j v) s = .next s ∧
      exec (.evtHeadDoorbell j v) s = .next s ∧ exec (.hostBusError j .sqFetch) s = .next s) ∧
    (s.bit 0 KGR_QSTAT_ENABLED j = true → v < 4096 →
      headOk (2 ^ (s.qp j).cqLog) (s.qp j).cqHead (s.fld 0 KGR_QSTAT_CQ_TAIL j) v = true →
      ∃ t, exec (.cqHeadDoorbell j v) s = .next t ∧ t.fld 0 KGR_CQ_HEAD_V j = v ∧ t.qp j = { s.qp j with cqHead := v } ∧
        (∀ k, k ≠ j.val → t.qp k = s.qp k) ∧ sameMemories s t ∧ t.jobs = s.jobs ∧
        sameRegs (fun a => a = KGR_CQ_HEAD_V.at 0 j) s t) ∧
    (s.bit 0 KGR_QSTAT_ENABLED j = true → v < 4096 →
      headOk (2 ^ (s.qp j).cqLog) (s.qp j).cqHead (s.fld 0 KGR_QSTAT_CQ_TAIL j) v = false → s.bit 0 KGR_QSTAT_ERROR j = false →
      ∃ t, exec (.cqHeadDoorbell j v) s = .next t ∧ t.bit 0 KGR_QSTAT_ERROR j = true ∧ t.fld 0 KGR_QSTAT_ERR_CAUSE j = 2 ∧
        t.fld 0 KGR_CQ_HEAD_V j = v ∧ sameMemories s t ∧ sameWork s t ∧
        sameRegs (fun a => a = KGR_CQ_HEAD_V.at 0 j ∨ a = KGR_QSTAT_ERROR.at 0 j) s t) ∧
    (s.bit 0 KGR_QSTAT_ENABLED j = true → v < 65536 →
      headOk (2 ^ (s.qp j).evtLog) (s.qp j).evtHead (s.fld 0 KGR_QSTAT_EVT_TAIL j) v = true →
      ∃ t, exec (.evtHeadDoorbell j v) s = .next t ∧ t.fld 0 KGR_EVT_HEAD_V j = v ∧ t.qp j = { s.qp j with evtHead := v } ∧
        (∀ k, k ≠ j.val → t.qp k = s.qp k) ∧ sameMemories s t ∧ t.jobs = s.jobs ∧
        sameRegs (fun a => a = KGR_EVT_HEAD_V.at 0 j) s t) ∧
    (s.bit 0 KGR_QSTAT_ENABLED j = true → v < 65536 →
      headOk (2 ^ (s.qp j).evtLog) (s.qp j).evtHead (s.fld 0 KGR_QSTAT_EVT_TAIL j) v = false → s.bit 0 KGR_QSTAT_ERROR j = false →
      ∃ t, exec (.evtHeadDoorbell j v) s = .next t ∧ t.bit 0 KGR_QSTAT_ERROR j = true ∧ t.fld 0 KGR_QSTAT_ERR_CAUSE j = 3 ∧
        t.fld 0 KGR_EVT_HEAD_V j = v ∧ sameMemories s t ∧ sameWork s t ∧
        sameRegs (fun a => a = KGR_EVT_HEAD_V.at 0 j ∨ a = KGR_QSTAT_ERROR.at 0 j) s t) ∧
    (s.bit 0 KGR_QSTAT_ENABLED j = true → v < 4096 → 2 ^ (s.qp j).sqLog ≤ v → s.bit 0 KGR_QSTAT_ERROR j = false →
      ∃ t, exec (.sqTailDoorbell j v) s = .next t ∧ t.bit 0 KGR_QSTAT_ERROR j = true ∧ t.fld 0 KGR_QSTAT_ERR_CAUSE j = 1 ∧
        t.fld 0 KGR_SQ_TAIL_V j = v ∧ sameMemories s t ∧ sameWork s t ∧ sameHub s t) ∧
    (s.bit 0 KGR_QSTAT_ENABLED j = true → v < 4096 → v < 2 ^ (s.qp j).sqLog → s.ready = false →
      ∃ t, exec (.sqTailDoorbell j v) s = .next t ∧ t.fld 0 KGR_SQ_TAIL_V j = v ∧ sameMemories s t ∧ sameWork s t ∧
        sameRegs (fun a => a = KGR_SQ_TAIL_V.at 0 j) s t) ∧
    (s.bit 0 KGR_QSTAT_ENABLED j = true → ∀ p cause, (p, cause) ∈ [(.sqFetch, 4), (.cqWrite, 5), (.evtWrite, 6)] →
      (s.bit 0 KGR_QSTAT_ERROR j = false ∨ s.fld 0 KGR_QSTAT_ERR_CAUSE j < 4 →
        ∃ t, exec (.hostBusError j p) s = .next t ∧ t.bit 0 KGR_QSTAT_ERROR j = true ∧ t.fld 0 KGR_QSTAT_ERR_CAUSE j = cause ∧
          t.qpStopped j = true ∧ sameMemories s t ∧ sameWork s t ∧ sameRegs (fun a => a = KGR_QSTAT_ERROR.at 0 j) s t) ∧
      (s.bit 0 KGR_QSTAT_ERROR j = true → 4 ≤ s.fld 0 KGR_QSTAT_ERR_CAUSE j → exec (.hostBusError j p) s = .next s)) ∧
    (s.waitingCmd j (fun c => c.hasParam && c.param.isSome) = none → exec (.hostBusError j .paramRead) s = .next s) ∧
    (∀ c, s.waitingCmd j (fun c => c.hasParam && c.param.isSome) = some c → s.cmd j c.seq = some c → untouched c → cqOpen s j →
      ∃ t, exec (.hostBusError j .paramRead) s = .next t ∧ completes s t j c.seq 0x2044 0 0 ∧ gone s t j c ∧
        hostApart (cqSlot s j) 32 s t ∧ sameModule s t ∧ t.jobs = s.jobs) ∧
    ((s.qp j).cmds.find? copyOnBus = none → exec (.hostBusError j .copyData) s = .next s) ∧
    (∀ c, (s.qp j).cmds.find? copyOnBus = some c → s.cmd j c.seq = some c → ∃ t, exec (.hostBusError j .copyData) s = .next t ∧
      t.cmd j c.seq = some { c with outcomes := c.outcomes ++ [0x2044], stopped := true } ∧ t.regs = s.regs ∧
      sameMemories s t ∧ t.jobs = s.jobs ∧ ∀ k, k ≠ j.val → t.qp k = s.qp k)

/-- A tail doorbell that makes one command available fetches it: the head and the expected SEQ advance; the command that
passes the checks of Table 10-2 waits at the end of the pair's list, one that fails a check completes at once with the status
of the first check that fails, PART_MASK 0 (R371, R375, R380). -/
def Obligations.OneCommandFetched : Prop :=
  ∀ (j : Slot) (v : Nat) (s : State), s.bit 0 KGR_QSTAT_ENABLED j = true → s.bit 0 KGR_QSTAT_ERROR j = false →
    s.bit 0 KGR_QSTAT_RESETTING j = false → s.ready = true → s.bit 0 HUB_STATUS_FATAL = false → v < 4096 →
    s.fld 0 KGR_QSTAT_SQ_HEAD j < 2 ^ (s.qp j).sqLog → v = (s.fld 0 KGR_QSTAT_SQ_HEAD j + 1) % 2 ^ (s.qp j).sqLog →
    v ≠ s.fld 0 KGR_QSTAT_SQ_HEAD j →
    let bs := s.host.read ((s.qp j).sqBase + s.fld 0 KGR_QSTAT_SQ_HEAD j * 64) 64
    ∃ t, exec (.sqTailDoorbell j v) s = .next t ∧ t.fld 0 KGR_QSTAT_SQ_HEAD j = v ∧
      t.fld 0 KGR_SEQ_NEXT_V j = (leAt bs 8 4 + 1) % 2 ^ 32 ∧ (∀ k, k ≠ j.val → t.qp k = s.qp k) ∧ t.jobs = s.jobs ∧
      sameModule s t ∧
      (fetchCheck s j { bytes := bs, seq := leAt bs 8 4 } = none → t.host = s.host ∧
        (t.qp j).cmds.map (fun c => (c.seq, c.bytes)) = (s.qp j).cmds.map (fun c => (c.seq, c.bytes)) ++ [(leAt bs 8 4, bs)] ∧
        t.fld 0 KGR_QSTAT_OUTSTANDING j = (s.fld 0 KGR_QSTAT_OUTSTANDING j + 1) % 2 ^ 13) ∧
      (∀ st, fetchCheck s j { bytes := bs, seq := leAt bs 8 4 } = some st → cqOpen s j →
        completes s t j (leAt bs 8 4) st 0 0 ∧ hostApart (cqSlot s j) 32 s t)

/-- The oldest completion that waits for space is written once there is some: its bytes, with the phase of the queue, stand at
the tail, which moves (R372, R379). -/
def Obligations.HeldCompletionPosted : Prop :=
  ∀ (j : Slot) (s : State) (e : List Byte) (irq : Bool) (rest : List (List Byte × Bool)), (s.qp j).held = (e, irq) :: rest →
    e.length = 32 → s.qpStopped j = false → s.cqFree j ≠ 0 →
    ∃ t, exec (.completionPost j) s = .next t ∧ (t.qp j).held = rest ∧ (t.qp j).cmds = (s.qp j).cmds ∧
      (∀ k, k < 32 → k ≠ 6 → t.host.read1 (cqSlot s j + k) = e.getD k 0) ∧
      (t.host.read1 (cqSlot s j + 6)).toNat / 128 = b2n (s.qp j).cqPhase ∧ hostApart (cqSlot s j) 32 s t ∧
      t.fld 0 KGR_QSTAT_CQ_TAIL j = (s.fld 0 KGR_QSTAT_CQ_TAIL j + 1) % 2 ^ (s.qp j).cqLog ∧
      (∀ k, k ≠ j.val → t.qp k = s.qp k) ∧ sameModule s t ∧ t.jobs = s.jobs ∧ sameRegs (pairRegs j) s t

/-- Of the outcomes that a command gathers, it reports one of least rank, and success where there is none (R390). -/
def Obligations.OneStatusReported : Prop :=
  pickStatus [] = 0 ∧ ∀ (o : Nat) (os : List Nat), pickStatus (o :: os) ∈ o :: os ∧
    (∀ x ∈ o :: os, statusRank (pickStatus (o :: os)) ≤ statusRank x) ∧
    (0x1007 ∈ o :: os → pickStatus (o :: os) = 0x1007) ∧
    (0x1007 ∉ o :: os → 0x1010 ∈ o :: os → pickStatus (o :: os) = 0x1010)

/-! ## Keager commands (R357, R377 to R399, R450 to R463) -/

/-- NOP, IDENTIFY, WATERMARK_NOW, READ_DIGESTS and READ_AGEING complete with success, PART_MASK naming the hub, and the RESULT
that their rules give; IDENTIFY, READ_DIGESTS and READ_AGEING write their page to the bus address that the command names,
WATERMARK_NOW makes the watermark due, and nothing else of the module changes (R381, R383, R507; the mask of a command of the
hub alone is the model's reading, log entry 16). -/
def Obligations.HubCommandsComplete : Prop :=
  ∀ (j : Slot) (c : Cmd) (s : State), untouched c → cqOpen s j →
    (startable s j 0x0000 c → ∃ t, exec (.nop j) s = .next t ∧ completes s t j c.seq 0 16 0 ∧ gone s t j c ∧
      hostApart (cqSlot s j) 32 s t ∧ sameModule s t ∧ t.jobs = s.jobs ∧ sameHub s t ∧ sameRegs (pairRegs j) s t) ∧
    (startable s j 0x0001 c → ∃ t, exec (.identify j) s = .next t ∧ completes s t j c.seq 0 16 0xB0 ∧ gone s t j c ∧
      (∀ x, x < cqSlot s j ∨ cqSlot s j + 32 ≤ x → t.host.read1 x =
        if c.opnd 32 8 ≤ x ∧ x < c.opnd 32 8 + 4096 then s.identityPage.getD (x - c.opnd 32 8) 0 else s.host.read1 x) ∧
      sameModule s t ∧ t.jobs = s.jobs ∧ sameHub s t ∧ sameRegs (pairRegs j) s t) ∧
    (startable s j 0x4001 c → ∃ t, exec (.watermarkNow j) s = .next t ∧ completes s t j c.seq 0 16 0 ∧ gone s t j c ∧
      t.job j = { s.job j with wmDue := true } ∧ (∀ k, k ≠ j.val → t.job k = s.job k) ∧ hostApart (cqSlot s j) 32 s t ∧
      sameModule s t ∧ sameHub s t ∧ sameRegs (pairRegs j) s t) ∧
    (startable s j 0x6001 c → ∃ t, exec (.readDigests j) s = .next t ∧
      completes s t j c.seq 0 16 (min 16 (s.job j).digests.length) ∧ gone s t j c ∧
      (∀ x, x < cqSlot s j ∨ cqSlot s j + 32 ≤ x → t.host.read1 x =
        if c.opnd 32 8 ≤ x ∧ x < c.opnd 32 8 + 5120 then
          (padTo 5120 (((s.job j).digests.take 16).flatMap DigestRec.bytes)).getD (x - c.opnd 32 8) 0 else s.host.read1 x) ∧
      sameModule s t ∧ t.jobs = s.jobs ∧ sameHub s t ∧ sameRegs (pairRegs j) s t) ∧
    (startable s j 0x6002 c → ∃ t, exec (.readAgeing j) s = .next t ∧ completes s t j c.seq 0 16 0 ∧ gone s t j c ∧
      (∀ x, x < cqSlot s j ∨ cqSlot s j + 32 ≤ x → t.host.read1 x =
        if c.opnd 32 8 ≤ x ∧ x < c.opnd 32 8 + 16384 then s.ageingPage.getD (x - c.opnd 32 8) 0 else s.host.read1 x) ∧
      sameModule s t ∧ t.jobs = s.jobs ∧ sameHub s t ∧ sameRegs (pairRegs j) s t)

/-- SET_POWER_CAP sets the cap between 850 W and 1,500 W and refuses any other with 0x1021; every die's effective level follows,
a ramp is queued for each die under the governor that then draws another power, and the command completes at once where there is
none, else it waits for the last (R494, R497). POLICY_LOAD of a table that passes its checks makes it the job's policy, at once
or, while the steward has still to run at the present boundary, at the next one; a table that fails one is refused with its
status and changes nothing (R173, R174). -/
def Obligations.CapAndPolicy : Prop :=
  ∀ (j : Slot) (c : Cmd) (s : State), untouched c → cqOpen s j →
    (startable s j 0x0003 c → 850 ≤ c.opnd 32 4 → c.opnd 32 4 ≤ 1500 → ∃ t, exec (.setPowerCap j) s = .next t ∧
      t.fld 0 PWR_CAP_CAP_W = c.opnd 32 4 ∧ sameModule s t ∧ t.jobs = s.jobs ∧
      (∀ d, d < 4 → t.levelW d = s.levelW d ∧ t.fld 0 PWR_DIE_EFFECTIVE d = t.effW d) ∧
      t.power.ramps.map Ramp.die = s.power.ramps.map Ramp.die ++
        (allDies.filter (fun d => s.ramps d && t.effW d != s.drawW d)).map some ∧
      ((∀ d, d < 4 → s.ramps d = true → t.effW d = s.drawW d) →
        completes s t j c.seq 0 16 0 ∧ gone s t j c ∧ hostApart (cqSlot s j) 32 s t) ∧
      ((∃ d, d < 4 ∧ s.ramps d = true ∧ t.effW d ≠ s.drawW d) → (∃ k, t.cmd j c.seq = some k ∧ k.waiting = true) ∧
        t.host = s.host)) ∧
    (startable s j 0x0003 c → c.opnd 32 4 < 850 ∨ 1500 < c.opnd 32 4 → ∃ t, exec (.setPowerCap j) s = .next t ∧
      t.fld 0 PWR_CAP_CAP_W = s.fld 0 PWR_CAP_CAP_W ∧ completes s t j c.seq 0x1021 0 0 ∧ gone s t j c ∧
      hostApart (cqSlot s j) 32 s t ∧ sameModule s t ∧ sameRegs (pairRegs j) s t) ∧
    (startable s j 0x0005 c → polReject (c.param.getD []) c.paramLen (s.policyPlan j) = none →
      ∃ t, exec (.policyLoad j) s = .next t ∧ completes s t j c.seq 0 16 0 ∧ gone s t j c ∧
        (if s.stewardDue.any (fun x => (s.job x.2).run.any (fun r => r.members.contains j)) then
          t.job j = { s.job j with policyNew := some (c.param.getD []), policyRipe := false }
         else t.job j = { s.job j with policy := some (c.param.getD []), policyNew := none, policyRipe := false }) ∧
        (∀ k, k ≠ j.val → t.job k = s.job k) ∧ hostApart (cqSlot s j) 32 s t ∧ sameModule s t ∧ sameHub s t) ∧
    (∀ st, startable s j 0x0005 c → polReject (c.param.getD []) c.paramLen (s.policyPlan j) = some st →
      ∃ t, exec (.policyLoad j) s = .next t ∧ completes s t j c.seq st 0 0 ∧ gone s t j c ∧ t.jobs = s.jobs ∧
        hostApart (cqSlot s j) 32 s t ∧ sameModule s t ∧ sameHub s t ∧ sameRegs (pairRegs j) s t)

/-- A two-phase command that starts sends its prepare to each of its parts, and nothing else happens before they answer
(R396): SET_WINDOWS, PLAN_BIND, PLAN_UNBIND and SET_POWER_STATE to every die in service and the hub, ERRMEM_CLEAR to the dies
in service of the home set and the hub, DIE_READMIT and DIE_RESET to the die and the hub, SNAP_DELETE to the hub, SNAP_RESTORE
to the dies of the target set and the hub. A SET_POWER_STATE whose target is the present state completes at once (R487); one that
needs a die waits in P1 and P2 for P0, asking for power (R486, R490). -/
def Obligations.TwoPhaseAsks : Prop :=
  ∀ (j : Slot) (c : Cmd) (s : State), c.asked = 0 → (∀ p, p < 5 → Tab.find s.prepared p = none) →
    (startable s j 0x0002 c → c.blk 80 48 = 0 → ∃ t, exec (.setWindows j) s = .next t ∧ asked s t j c s.allParts ∧ t.regs = s.regs ∧
      sameHub s t) ∧
    (startable s j 0x2000 c → c.blk 128 128 = 0 → ∃ t, exec (.planBind j) s = .next t ∧ asked s t j c s.allParts ∧ t.regs = s.regs ∧
      sameHub s t) ∧
    (startable s j 0x2001 c → ∃ t, exec (.planUnbind j) s = .next t ∧ asked s t j c s.allParts ∧ t.regs = s.regs ∧ sameHub s t) ∧
    (startable s j 0x0004 c → c.opnd 32 1 ≠ s.pstate → ∃ t, exec (.setPowerState j) s = .next t ∧ asked s t j c s.allParts ∧
      t.regs = s.regs ∧ sameHub s t) ∧
    (startable s j 0x4000 c → ∃ t, exec (.errmemClear j) s = .next t ∧
      asked s t j c ((s.fld 0 HUB_FLT_JOB_HOME j &&& s.serviceMask) + 16) ∧ t.regs = s.regs ∧ sameHub s t) ∧
    (startable s j 0x0006 c → s.pstate = 0 → ∃ t, exec (.dieReadmit j) s = .next t ∧ asked s t j c c.dieParts ∧ t.regs = s.regs ∧
      sameHub s t) ∧
    (startable s j 0x0007 c → s.pstate = 0 → ∃ t, exec (.dieReset j) s = .next t ∧ asked s t j c c.dieParts ∧ t.regs = s.regs ∧
      sameHub s t) ∧
    (startable s j 0x3003 c → ∃ t, exec (.snapDelete j) s = .next t ∧ asked s t j c 16 ∧ t.regs = s.regs ∧ sameHub s t) ∧
    (startable s j 0x3001 c → s.pstate = 0 → ∃ t, exec (.snapRestore j) s = .next t ∧
      asked s t j c (maskOf (s.homeGroup j) + 16) ∧ t.bit 0 CLR_JOB_RESTORING j = true ∧ sameHub s t) ∧
    (startable s j 0x0004 c → c.opnd 32 1 = s.pstate → untouched c → cqOpen s j → ∃ t, exec (.setPowerState j) s = .next t ∧
      completes s t j c.seq 0 16 0 ∧ gone s t j c ∧ hostApart (cqSlot s j) 32 s t ∧ sameModule s t ∧ t.jobs = s.jobs) ∧
    (s.pstate = 1 ∨ s.pstate = 2 → ∀ op i, (op, i) ∈ [(0x0006, Instr.dieReadmit j), (0x0007, .dieReset j), (0x3001, .snapRestore j)] →
      s.waitingCmd j (fun x => x.op == op) = some c → exec i s = .next { s with power := { s.power with waking := true } })

/-- A part's reply to a prepare is noted, and the command waits for the other parts (R396). A part that gives none within
10 ms counts as lost, one that fails it has its status: the command aborts, and once every other part has answered it completes
with that status, PART_MASK naming the parts that prepared (R397, R424; that a reply takes 2 or 3 ns to be judged is the model's
reading, log entry 15). The clauses on failures are of a module in which no other two-phase command is under way. -/
def Obligations.PrepareReplies : Prop :=
  ∀ (j : Slot) (part : Part) (c : Cmd) (since : Nat) (s : State),
    Tab.find s.prepared part.val = some (j.val, c.seq, since) → s.cmd j c.seq = some c → c.done = false →
    bitN c.replied part = false →
    (s.ts + 3 < since + 10000000 → s.prepareWaits c part = false → (s.prepare j c part).2 = none → c.op ≠ 0x3001 →
      orBit c.replied part ≠ c.want →
      ∃ t, exec (.prepareReply j part true) s = .next t ∧ t.prepared = s.prepared ∧
        t.cmd j c.seq = some { c with replied := orBit c.replied part, prepared := orBit c.prepared part } ∧
        (∀ k, k ≠ j.val → t.qp k = s.qp k) ∧ sameMemories s t ∧ t.jobs = s.jobs ∧ sameHub s t ∧ t.regs = s.regs) ∧
    (∀ i st, (i = Instr.prepareTimeout j part ∧ since + 10000000 ≤ s.ts ∧ st = 0x2053) ∨
        (i = .prepareReply j part false ∧ s.ts + 3 < since + 10000000 ∧ s.prepareWaits c part = false ∧ st = 0x2053) ∨
        (i = .prepareReply j part true ∧ s.ts + 3 < since + 10000000 ∧ s.prepareWaits c part = false ∧
          (s.prepare j c part).2 = some st) →
      untouched c → cqOpen s j → c.op ≠ 0x3001 → orBit c.replied part = c.want → c.prepared ≠ c.want →
      c.prepared < 32 → (∀ q ∈ s.qps, ∀ x ∈ q.2.cmds, x.want = 0 ∨ (q.1 = j.val ∧ x = c)) →
      ∃ t, exec i s = .next t ∧ completes s t j c.seq st c.prepared 0 ∧ gone s t j c ∧
        hostApart (cqSlot s j) 32 s t ∧ sameModule s t ∧ t.jobs = s.jobs) ∧
    (s.ts < since + 10000000 → exec (.prepareTimeout j part) s = .next s)

/-- The last reply of a two-phase command, with no part failing, is the decision: the command completes with success, PART_MASK
naming its parts, and commits (R398, R399). SET_WINDOWS gives the job the windows of its block (R384), PLAN_BIND its binding, not
yet loaded, a job key, and no hold (R385, R436), PLAN_UNBIND takes binding and key away, ERRMEM_CLEAR empties the error memories
of its bucket or of all (R357), SNAP_DELETE takes the snapshot out of the directory (R460), DIE_READMIT puts the die in service
(R438), DIE_RESET resets it (R484; that clause and SET_POWER_STATE's are of a module without jobs). SET_POWER_STATE to P0 or P1
completes when it is there, which from P0 and P1 is at once, to P2 and P3 after its ramp (R487). -/
def Obligations.WindowsDecided : Prop :=
  ∀ (j : Slot) (part : Part) (c : Cmd) (since : Nat) (s : State),
    s.prepared = [(part.val, j.val, c.seq, since)] → (s.qp j).cmds = [c] → s.qps.map Prod.fst = [j.val] →
    c.want < 32 → c.started = true → untouched c → c.waiting = false → cqOpen s j → bitN c.replied part = false →
    orBit c.replied part = c.want → orBit c.prepared part = c.want → s.ts + 3 ≤ since + 10000000 →
    s.hubCheck j c = none → s.prepareWaits c part = false →
    (c.op ≠ 0x0006 → c.op ≠ 0x0007 → ∀ d, d < 4 → bitN c.want d = true → s.dieState d = 0) →
    (c.op = 0x0002 → ∃ t, exec (.prepareReply j part true) s = .next t ∧ completes s t j c.seq 0 c.want 0 ∧ t.prepared = [] ∧
      (t.job j).ldrBase = allDies.map (fun d => c.blk (16 * d) 8) ∧
      (t.job j).ldrBytes = allDies.map (fun d => c.blk (16 * d + 8) 8) ∧ (t.job j).atcBase = c.blk 64 8 ∧
      (t.job j).atcBytes = c.blk 72 8 ∧ (∀ k, k ≠ j.val → t.job k = s.job k) ∧ hostApart (cqSlot s j) 32 s t ∧ sameModule s t) ∧
    (c.op = 0x2000 → ∃ t, exec (.prepareReply j part true) s = .next t ∧ completes s t j c.seq 0 c.want 0 ∧ t.prepared = [] ∧
      (∃ b, (t.job j).binding = some b ∧ b.imageLa = c.blk 0 8 ∧ b.imageBytes = c.blk 8 8 ∧ b.loaded = false ∧
        b.area = allDies.map (fun d => c.blk (16 + 8 * d) 8) ∧ b.atcBase = c.blk 80 8 ∧ b.rkey = c.blk 120 8) ∧
      (t.job j).jobKey.isSome = true ∧ (t.job j).run = none ∧ (t.job j).step = 0 ∧ t.bit 0 HUB_FLT_JOB_HOLD j = false ∧
      (∀ k, k ≠ j.val → t.job k = s.job k) ∧ sameModule s t) ∧
    (c.op = 0x2001 → ∃ t, exec (.prepareReply j part true) s = .next t ∧ completes s t j c.seq 0 c.want 0 ∧ t.prepared = [] ∧
      (t.job j).binding = none ∧ (t.job j).jobKey = none ∧ (∀ k, k ≠ j.val → t.job k = s.job k) ∧ sameModule s t) ∧
    (c.op = 0x4000 → ∃ t, exec (.prepareReply j part true) s = .next t ∧ completes s t j c.seq 0 c.want 0 ∧ t.prepared = [] ∧
      t.job j = { s.job j with compress := if c.opnd 32 2 = 0xFFFF then []
        else (s.job j).compress.filter (fun e => e.1 % 65536 != c.opnd 32 2) } ∧
      (∀ k, k ≠ j.val → t.job k = s.job k) ∧ sameModule s t) ∧
    (c.op = 0x3003 → ∃ t, exec (.prepareReply j part true) s = .next t ∧ completes s t j c.seq 0 c.want 0 ∧ t.prepared = [] ∧
      t.cellar.snaps = s.cellar.snaps.filter (fun x => x.id != c.opnd 32 8) ∧ t.jobs = s.jobs ∧ sameModule s t) ∧
    (c.op = 0x0006 → ∃ t, exec (.prepareReply j part true) s = .next t ∧
      completes s t j c.seq 0 c.want 0 ∧ t.prepared = [] ∧
      t.dieState (c.opnd 32 1) = 0 ∧ bitN (t.fld 0 HUB_STATUS_DIES) (c.opnd 32 1) = true ∧ t.levelW (c.opnd 32 1) = 60 ∧
      t.jobs = s.jobs ∧ sameModule s t) ∧
    (c.op = 0x0007 → s.jobs = [] → ∃ t, exec (.prepareReply j part true) s = .next t ∧
      completes s t j c.seq 0 c.want 0 ∧ t.prepared = [] ∧ t.dieState (c.opnd 32 1) = 5 ∧
      t.liveDies = s.liveDies.filter (fun d => d != c.opnd 32 1)) ∧
    (c.op = 0x0004 → c.opnd 32 1 ≤ 1 → s.pstate ≤ 1 → s.jobs = [] → ∃ t, exec (.prepareReply j part true) s = .next t ∧
      completes s t j c.seq 0 c.want 0 ∧ t.prepared = [] ∧ t.pstate = c.opnd 32 1 ∧ sameModule s t) ∧
    (c.op = 0x0004 → 2 ≤ c.opnd 32 1 → c.opnd 32 1 ≤ 3 → s.pstate ≤ 1 → s.jobs = [] →
      ∃ t, exec (.prepareReply j part true) s = .next t ∧ t.prepared = [] ∧ t.bit 0 HUB_STATUS_TRANSITION = true ∧
      t.pstate = s.pstate ∧ (∃ k, t.cmd j c.seq = some k ∧ k.waiting = true) ∧
      t.power.ramps = s.power.ramps ++ [⟨none, c.opnd 32 1, .pstate j, s.ts⟩] ∧ t.host = s.host ∧ sameModule s t)

/-- COPY and FILL start by taking a DMA engine of each die in service that they touch, and move nothing yet; one with an end in
the attic has a request for each 64 B issued, reads where its source is the attic, else writes (R285, R289, R382; these clauses
are of attic ports that are up). One that breaks R382 is refused with its status and changes nothing. -/
def Obligations.CopiesTakeEngines : Prop :=
  ∀ (j : Slot) (c : Cmd) (s : State) (op : Nat) (i : Instr) (es : List BurstErr),
    op = 0x1000 ∧ i = .copy j es ∨ op = 0x1001 ∧ i = .fill j → s.pstate = 0 →
    startableBy s j (fun x => x.op == op && x.copyDies.all (fun d => (s.freeEngine d).isSome || !s.inService d)) c →
    (s.copyCheck j c = none → (∀ d ∈ c.copyDies, s.inService d = true) →
      (c.copyEnds.any (fun e => e.1 == 2) = true → es = [] ∧ s.bit 0 ATC_STAT_UP 0 = true ∧ s.bit 0 ATC_STAT_UP 1 = true) →
      ∃ t, exec i s = .next t ∧
        (∀ d ∈ c.copyDies, ∃ e, s.freeEngine d = some e ∧ t.bit (dieAt d) DIE_DMA_STAT_BUSY e = true ∧
          t.fld (dieAt d) DIE_DMA_STAT_JOB e = j) ∧
        t.cmd j c.seq = some { c with started := true, want := c.copyParts, parts := c.copyParts } ∧
        t.attics.map (fun q => (q.aa, q.write, q.slot, q.cmd)) = s.attics.map (fun q => (q.aa, q.write, q.slot, q.cmd)) ++
          (if c.copyEnds.any (fun e => e.1 == 2) then (List.range (c.copyLen / 64)).map (fun k =>
            ((if op = 0x1000 ∧ c.copySrc.1 = 2 then c.copySrc.2 else c.copyDst.2) + 64 * k,
              !decide (op = 0x1000 ∧ c.copySrc.1 = 2), j.val, some c.seq)) else []) ∧
        sameMemories s t ∧ t.jobs = s.jobs ∧ sameHub s t ∧ ∀ k, k ≠ j.val → t.qp k = s.qp k) ∧
    (∀ st, s.copyCheck j c = some st → untouched c → cqOpen s j → ∃ t, exec i s = .next t ∧ completes s t j c.seq st 0 0 ∧
      gone s t j c ∧ hostApart (cqSlot s j) 32 s t ∧ sameModule s t ∧ t.jobs = s.jobs ∧ sameRegs (pairRegs j) s t)

/-- COPY_COMPLETE of a FILL of the larder: every byte of the range is the pattern's, its poison clear; of a COPY from host
memory or from the same die's larder to the larder: every byte and every granule's poison is the source's; of a COPY from the
larder to host memory: every byte is the source's, and a poisoned granule of it is consumed, so that the command reports 0x2041,
with an event in the pair's ring (R282, R292, R294, R382). The other bytes keep their values, and the command completes, with success where nothing was consumed.
A FILL that was stopped completes with its status; which of its granules were written is open, and each byte of the range is
the pattern's or as before (R382, R392). -/
def Obligations.CopiesMoveBytes : Prop :=
  ∀ (j : Slot) (c : Cmd) (s : State),
    (s.qp j).cmds.find? (fun x => x.seq == c.seq && x.started && !x.done && (x.op == 0x1000 || x.op == 0x1001)) = some c →
    s.cmd j c.seq = some c → untouched { c with outcomes := [] } → cqOpen s j → c.asked = 0 →
    s.attics.any (fun q => q.slot == j.val && q.cmd == some c.seq) = false → c.copyDst.2 % 64 = 0 →
    c.copyLen % 64 = 0 → c.parts < 65536 →
    (c.op = 0x1001 → c.outcomes = [] → c.stopped = false → c.copyDst.1 = 1 →
      ∃ t, exec (.copyComplete j c.seq []) s = .next t ∧ completes s t j c.seq 0 c.parts c.result ∧
      (∀ x, t.larder.read1 x = if c.copyDst.2 ≤ x ∧ x < c.copyDst.2 + c.copyLen then
        BitVec.ofNat 8 (c.opnd 52 4 / 256 ^ ((x - c.copyDst.2) % 4)) else s.larder.read1 x) ∧
      (∀ x, t.larder.poisoned x = if c.copyDst.2 ≤ x ∧ x < c.copyDst.2 + c.copyLen then false else s.larder.poisoned x) ∧
      t.attic = s.attic ∧ t.shelf = s.shelf ∧ t.store = s.store ∧ t.jobs = s.jobs ∧ hostApart (cqSlot s j) 32 s t) ∧
    (∀ m : Mem, c.op = 0x1000 → c.outcomes = [] → c.stopped = false → c.copyDst.1 = 1 → c.copySrc.2 % 64 = 0 →
      (c.copySrc.1 = 0 ∧ m = s.host) ∨ (c.copySrc.1 = 1 ∧ m = s.larder ∧ c.copySrc.2 / 2 ^ 35 = c.copyDst.2 / 2 ^ 35) →
      ∃ t, exec (.copyComplete j c.seq []) s = .next t ∧ completes s t j c.seq 0 c.parts c.result ∧
      (∀ x, t.larder.read1 x = if c.copyDst.2 ≤ x ∧ x < c.copyDst.2 + c.copyLen then
        m.read1 (c.copySrc.2 + (x - c.copyDst.2)) else s.larder.read1 x) ∧
      (∀ x, t.larder.poisoned x = if c.copyDst.2 ≤ x ∧ x < c.copyDst.2 + c.copyLen then
        m.poisoned (c.copySrc.2 + (x - c.copyDst.2)) else s.larder.poisoned x) ∧
      t.attic = s.attic ∧ t.shelf = s.shelf ∧ t.store = s.store ∧ t.jobs = s.jobs ∧ hostApart (cqSlot s j) 32 s t) ∧
    (c.op = 0x1000 → c.outcomes = [] → c.stopped = false → c.copyDst.1 = 0 → c.copySrc.1 = 1 → c.copySrc.2 % 64 = 0 →
      ∃ t st, exec (.copyComplete j c.seq []) s = .next t ∧ completes s t j c.seq st c.parts c.result ∧
      (st = if (List.range c.copyLen).any (fun x => s.larder.poisoned (c.copySrc.2 + x)) then 0x2041 else 0) ∧
      (∀ x, x < cqSlot s j ∨ cqSlot s j + 32 ≤ x → st = 0 ∨ x < (s.qp j).evtBase → t.host.read1 x =
        if c.copyDst.2 ≤ x ∧ x < c.copyDst.2 + c.copyLen then s.larder.read1 (c.copySrc.2 + (x - c.copyDst.2))
        else s.host.read1 x) ∧ sameModule s t ∧ t.jobs = s.jobs) ∧
    (c.op = 0x1001 → c.stopped = true → c.copyDst.1 = 1 → ∃ t, exec (.copyComplete j c.seq []) s = .next t ∧
      completes s t j c.seq (pickStatus c.outcomes) c.parts c.result ∧
      (∀ x, x < c.copyDst.2 ∨ c.copyDst.2 + c.copyLen ≤ x → t.larder.read1 x = s.larder.read1 x) ∧
      (∀ x, c.copyDst.2 ≤ x → x < c.copyDst.2 + c.copyLen → t.larder.read1 x = s.larder.read1 x ∨
        t.larder.read1 x = BitVec.ofNat 8 (c.opnd 52 4 / 256 ^ ((x - c.copyDst.2) % 4))) ∧
      t.attic = s.attic ∧ t.shelf = s.shelf ∧ t.store = s.store ∧ t.jobs = s.jobs ∧ hostApart (cqSlot s j) 32 s t)

/-- A RUN whose group is ready, with a loaded plan that has a section for its bucket and the dies of its set, starts the step:
the job's step counter advances, the run holds the members and the section, and the start writes no memory (R386, R387). A RUN
whose lead's job is on hold completes with 0x2001 as soon as it is ready itself, one whose dependency failed with 0x1006, and no
job changes (R378, R436). -/
def Obligations.RunStartsStep : Prop :=
  (∀ (j : Slot) (c : Cmd) (g : List (Nat × Cmd)) (b : Binding) (sect : Nat) (s : State), s.waitingCmd j isRun = some c →
    s.pairRuns j = true → s.runOrder j c = true → s.dep c = .met → c.leadSlot = j → s.pstate = 0 →
    s.bit 0 HUB_FLT_JOB_HOLD j = false → c.runReserved = false → s.slotsBad (c.runSlots j) = false → s.groupOf j = some g →
    s.printFree j (s.nextPrint j c) = true → s.mustResume j = false → s.picked j (s.nextPrint j c) = true → (s.job j).binding = some b → b.loaded = true →
    planMembers b.plan = g.length → s.tileCheck j c = none → sizeCheck b.plan c = none →
    (runBucket b.plan c).bind (fun k => sectionFor b.plan k (s.runMap j).length) = some sect →
    ∃ t, exec (.run j) s = .next t ∧ (t.job j).step = ((s.job j).step + 1) % 2 ^ 64 ∧
      (∃ r, (t.job j).run = some r ∧ r.step = (s.job j).step ∧ r.members = g.map Prod.fst ∧ r.sect = sect ∧ r.phase = 0 ∧
        r.ended = false ∧ r.map = s.runMap j) ∧ sameMemories s t ∧ sameHub s t) ∧
  (∀ (j : Slot) (c : Cmd) (s : State), s.waitingCmd j isRun = some c → s.cmd j c.seq = some c → s.pairRuns j = true →
    s.runOrder j c = true → untouched c → cqOpen s j →
    (s.dep c = .met → s.bit 0 HUB_FLT_JOB_HOLD c.leadSlot = true → ∃ t, exec (.run j) s = .next t ∧
      completes s t j c.seq 0x2001 0 0 ∧ t.cmd j c.seq = none ∧ t.jobs = s.jobs ∧ sameModule s t) ∧
    (s.dep c = .failed → ∃ t, exec (.run j) s = .next t ∧ completes s t j c.seq 0x1006 0 0 ∧ gone s t j c ∧ t.jobs = s.jobs ∧
      hostApart (cqSlot s j) 32 s t ∧ sameModule s t) ∧
    (s.dep c = .waits → exec (.run j) s = .next s))

/-- SNAP_TAKE that passes its checks waits for its point with TAKING set; one that fails one is refused with its status. SNAP_SEAL
of a capture whose freeze is over appends its snapshot, the regions as captured, to the directory, stores the regions that are not
stored yet, and completes the command with the snapshot's number; a die of the set that left service meanwhile fails the command
with 0x2040, and no snapshot is added; without such a capture the command does nothing. SNAP_LIST of a ready cellar writes the
entries that fit, of the job's plan or of all, and answers how many there are (R444, R450, R451, R454, R459). -/
def Obligations.SnapshotsTakenAndListed : Prop :=
  (∀ (j : Slot) (c : Cmd) (s : State), startable s j 0x3000 c → directlyBefore c.seq (s.qp j).cmds = none →
    (s.takeCheck j c = none → ∃ t, exec (.snapTake j) s = .next t ∧ t.bit 0 CLR_JOB_TAKING j = true ∧
      (t.job j).capture = some { seq := c.seq, entry := c.blk 9 1 == 1, waits := false } ∧ sameMemories s t ∧
      t.cellar = s.cellar ∧ ∀ k, k ≠ j.val → t.job k = s.job k) ∧
    (∀ st, s.takeCheck j c = some st → untouched c → cqOpen s j → ∃ t, exec (.snapTake j) s = .next t ∧
      completes s t j c.seq st 0 0 ∧ gone s t j c ∧ t.jobs = s.jobs ∧ sameModule s t)) ∧
  (∀ (j : Slot) (c : Cmd) (cap : Capture) (x : Snap) (s : State), (s.job j).capture = some cap → cap.snap = some x →
    cap.frozen = false → cap.seq = c.seq → s.cmd j c.seq = some c → untouched c → cqOpen s j → x.set < 16 →
    (cap.lost = false →
      ∃ t y, exec (.snapSeal j) s = .next t ∧ t.cellar.snaps = s.cellar.snaps ++ [y] ∧ (t.job j).capture = none ∧
      y.id = x.id ∧ y.slot = x.slot ∧ y.plan = x.plan ∧ y.dataPos = x.dataPos ∧
      y.regions.map (fun e => (e.addr, e.digest, e.spans)) = x.regions.map (fun e => (e.addr, e.digest, e.spans)) ∧
      (cap.torn = [] → ∀ r ∈ cap.fresh, x.regions.any (fun e => !e.zero && e.slot == 0 && e.digest == r.1) = true →
        ∃ q ∈ t.cellar.store, q.digest = r.1) ∧
      (∀ r ∈ s.cellar.store, s.cellar.snaps.any (fun v => v.regions.any (fun e => !e.zero && e.slot == r.slot)) = true →
        r ∈ t.cellar.store) ∧
      t.bit 0 CLR_JOB_TAKING j = false ∧ completes s t j c.seq (pickStatus (cap.notes ++ [0])) (x.set + 16) x.id ∧ gone s t j c ∧
      hostApart (cqSlot s j) 32 s t ∧ sameModule s t) ∧
    (cap.lost = true → ∃ t, exec (.snapSeal j) s = .next t ∧ t.cellar.snaps = s.cellar.snaps ∧ (t.job j).capture = none ∧
      t.bit 0 CLR_JOB_TAKING j = false ∧ completes s t j c.seq 0x2040 c.parts c.result ∧ gone s t j c ∧ sameModule s t)) ∧
  (∀ (j : Slot) (s : State), (∀ cap x, (s.job j).capture = some cap → cap.snap = some x → cap.frozen = true) →
    exec (.snapSeal j) s = .next s) ∧
  (∀ (j : Slot) (c : Cmd) (s : State), startable s j 0x3002 c → untouched c → cqOpen s j → s.bit 0 CLR_STAT_READY = true →
    c.opnd 40 4 ≠ 0 → c.opnd 40 4 % 64 = 0 → ∃ t l, exec (.snapList j) s = .next t ∧
      l = s.cellar.snaps.filter (fun x => bitN (c.opnd 44 1) 0 || s.planId j == some x.plan) ∧
      completes s t j c.seq 0 16 l.length ∧ gone s t j c ∧
      (∀ x, x < cqSlot s j ∨ cqSlot s j + 32 ≤ x → t.host.read1 x =
        if c.opnd 32 8 ≤ x ∧ x < c.opnd 32 8 + 64 * min (c.opnd 40 4 / 64) l.length then
          ((l.take (c.opnd 40 4 / 64)).flatMap s.snapEntry).getD (x - c.opnd 32 8) 0 else s.host.read1 x) ∧
      t.cellar = s.cellar ∧ sameModule s t ∧ t.jobs = s.jobs)

/-- SNAP_FREEZE of a capture at its point, with room in the cellar, begins the freeze: the capture holds a snapshot under the next
number and epoch, of every region of the job's windows, each with the digest of what it holds, and no memory outside the staging
areas changes. An ENTRY take whose next command is no RUN fails with 0x1069 instead (R450). The next SNAP_FREEZE ends the freeze;
where no region that it read was written meanwhile, the snapshot stands as it was captured (R451, R453). CELLAR_RECOVERY of a
charged and unlocked module loads the registers from the directory, reports the captures that the power loss cut off, and sets
READY; otherwise it does nothing (R466, R467). -/
def Obligations.FreezeAndRecovery : Prop :=
  (∀ (j : Slot) (c : Cmd) (cap : Capture) (plan : List Byte) (s : State), (s.job j).capture = some cap → cap.snap = none →
    (cap.entry = true → s.nextIsRun j cap.seq ≠ some false) → s.atPoint j cap = true → s.cmd j cap.seq = some c →
    s.planId j = some plan → s.cellar.snaps.length < 4096 →
    s.slotsHeld + (s.snapItems j c).length + (48 * (s.snapItems j c).length + 1056768) / 2097152 + 1 + s.cellar.used ≤
      s.fld 0 CLR_CAP_DATA_SLOTS →
    ∃ t, exec (.snapFreeze j) s = .next t ∧ (∃ k x, (t.job j).capture = some k ∧ k.snap = some x ∧ k.frozen = true ∧
        x.id = s.cellar.nextId ∧ x.epoch = s.cellar.epoch + 1 ∧ x.slot = j ∧ x.ts = s.ts ∧ x.plan = plan ∧ x.set = s.jobSet j ∧
        x.regions.map (fun e => (e.die, e.attic, e.addr)) = (s.snapItems j c).map (fun i => (i.1, i.2.1, i.2.2.1)) ∧
        (bitN (c.blk 8 1) 0 = false → x.regions.map SnapRegion.digest = (s.snapItems j c).map (fun i =>
          shake256 ((s.grab i.2.1 i.2.2.1 i.2.2.2).read 0 2097152) 32))) ∧
      t.cellar.nextId = s.cellar.nextId + 1 ∧ t.cellar.snaps = s.cellar.snaps ∧
      t.host = s.host ∧ t.attic = s.attic ∧ t.shelf = s.shelf ∧ t.store = s.store ∧
      (bitN (c.blk 8 1) 4 = false → t.larder = s.larder)) ∧
  (∀ (j : Slot) (c : Cmd) (cap : Capture) (s : State), (s.job j).capture = some cap → cap.snap = none → cap.entry = true →
    s.nextIsRun j cap.seq = some false → cap.seq = c.seq → s.cmd j c.seq = some c → untouched c → cqOpen s j →
    ∃ t, exec (.snapFreeze j) s = .next t ∧ (t.job j).capture = none ∧ completes s t j c.seq 0x1069 c.parts c.result ∧
      gone s t j c ∧ sameModule s t) ∧
  (∀ (j : Slot) (cap : Capture) (x : Snap) (s : State), (s.job j).capture = some cap → cap.snap = some x → cap.frozen = true →
    ∃ t, exec (.snapFreeze j) s = .next t ∧ sameMemories s t ∧ t.cellar = s.cellar ∧ (∀ k, k ≠ j.val → t.job k = s.job k) ∧
      (∃ k y, (t.job j).capture = some k ∧ k.snap = some y ∧ k.frozen = false ∧
        k.torn.map Prod.fst = cap.reads.filter (fun i => (x.regions[i]?).any (s.tornNow x)) ∧
        (k.torn = [] → y = x ∧ k.fresh = cap.fresh.filter (fun r => x.regions.any (fun e => e.digest == r.1))))) ∧
  (∀ (j : Slot) (s : State), (s.job j).capture = none → exec (.snapFreeze j) s = .next s) ∧
  (∀ s, s.bit 0 CLR_STAT_RECOVERING = true → s.bit 0 CLR_STAT_LOCKED = false → s.power.charged = true →
    ∃ t, exec .cellarRecovery s = .next t ∧ t.bit 0 CLR_STAT_READY = true ∧ t.bit 0 CLR_STAT_RECOVERING = false ∧
      t.cellar = { s.cellar with lost := 0, holdup := false } ∧ t.fld 0 CLR_EPOCH_V = s.cellar.epoch % 2 ^ 64 ∧
      t.fld 0 CLR_NEXT_ID_V = s.cellar.nextId % 2 ^ 64 ∧
      (s.cellar.lost ≠ 0 → t.bit 0 CLR_STAT_RECOVERY_DISCARD = true) ∧
      (s.cellar.holdup = true → t.bit 0 CLR_STAT_HOLDUP_SEEN = true) ∧ sameMemories s t ∧ sameWork s t) ∧
  (∀ s, s.bit 0 CLR_STAT_RECOVERING = false ∨ s.bit 0 CLR_STAT_LOCKED = true ∨ s.power.charged = false →
    exec .cellarRecovery s = .next s)

/-- A deadline that has passed before a command started completes it with 0x1010, PART_MASK 0, and is counted; one of a COPY or FILL
that runs is counted and stops it (R391, R392). A deadline that has not passed, or of a command that is internally complete, does
nothing. -/
def Obligations.DeadlineWins : Prop :=
  ∀ (j : Slot) (c : Cmd) (s : State), s.cmd j c.seq = some c → s.bit 0 KGR_QSTAT_RESETTING j = false →
    (c.deadline ≠ 0 → c.deadline ≤ s.ts → c.done = false → c.outcomes = [] → c.started = false → c.seq < 2 ^ 32 → cqOpen s j →
      ∃ t, exec (.deadlineExpiry j c.seq) s = .next t ∧ completes s t j c.seq 0x1010 0 0 ∧ gone s t j c ∧ sameModule s t ∧
        counted s t 0 KGR_CNT_DEADLINE_V j 1 ∧ t.jobs = s.jobs) ∧
    (c.deadline ≠ 0 → c.deadline ≤ s.ts → c.done = false → 0x1010 ∉ c.outcomes → c.started = true →
      c.op = 0x1000 ∨ c.op = 0x1001 → ∃ t k, exec (.deadlineExpiry j c.seq) s = .next t ∧ t.cmd j c.seq = some k ∧
        k.stopped = true ∧ 0x1010 ∈ k.outcomes ∧ counted s t 0 KGR_CNT_DEADLINE_V j 1 ∧ sameModule s t ∧ t.jobs = s.jobs) ∧
    (c.deadline = 0 ∨ s.ts < c.deadline ∨ c.done = true → exec (.deadlineExpiry j c.seq) s = .next s)

/-- A job reset of a pair without a run, a capture or a two-phase command under way marks every command of the pair that has not
ended, those fetched and those it consumes, with 0x1007, and changes no job and no memory; one of a pair that is resetting does
nothing (R400, R401). Its end returns the pair: RESETTING and ERROR clear, the step counter of the job is 0, its steering and
run are gone, and the banks that it held take OWNER 0; before the pair is resetting the end does nothing. -/
def Obligations.JobResetAndEnd : Prop :=
  (∀ (j : Slot) (s : State), s.bit 0 HUB_STATUS_FATAL = false → s.bit 0 KGR_QSTAT_RESETTING j = false →
    (∀ c ∈ (s.qp j).cmds, opTwo c.op = true → c.want = 0) →
    s.bit 0 HUB_FLT_JOB_ROLLING j = false → (s.job j).capture = none → s.runOf j = none →
    ∃ t l, exec (.keagerJobReset j) s = .next t ∧ t.bit 0 KGR_QSTAT_RESETTING j = true ∧
      (∀ c ∈ (t.qp j).cmds, c.done = false → 0x1007 ∈ c.outcomes) ∧
      (t.qp j).cmds.map Cmd.seq = (s.qp j).cmds.map Cmd.seq ++ l ∧ t.jobs = s.jobs ∧ sameMemories s t) ∧
  (∀ (j : Slot) (s : State), s.bit 0 KGR_QSTAT_RESETTING j = true → exec (.keagerJobReset j) s = .next s) ∧
  (∀ (j : Slot) (s : State), s.bit 0 KGR_QSTAT_RESETTING j = true → s.runOf j = none →
    ∃ t, exec (.jobResetDone j) s = .next t ∧ t.bit 0 KGR_QSTAT_RESETTING j = false ∧ t.bit 0 KGR_QSTAT_ERROR j = false ∧
      (t.job j).step = 0 ∧ (t.job j).run = none ∧ (t.job j).capture = none ∧ (t.job j).digests = [] ∧ (t.job j).ls = none ∧
      (t.job j).layers = [] ∧ (t.job j).tensors = [] ∧
      (∀ b, b < 3264 → s.bit (bankAt b) BANK_OWN_JOB_VALID = true → s.fld (bankAt b) BANK_OWN_JOB = j →
        t.fld (bankAt b) BANK_OWN_OWNER = 0)) ∧
  (∀ (j : Slot) (s : State), s.bit 0 KGR_QSTAT_RESETTING j = false → exec (.jobResetDone j) s = .next s)

/-- ATTEST that passes its checks writes the evidence to the address of its block and answers 4,096; GET_CERT writes the chain
if it fits and answers what it needs either way, with 0x1021 and nothing written where it does not (R534, R535; the RESULT of
a chain that does not fit is the model's reading, log entry 33). A scope that cannot be served refuses either with its status. -/
def Obligations.EvidenceAndCertificates : Prop :=
  ∀ (j : Slot) (c : Cmd) (seed : Option (List Byte)) (s : State), untouched c → cqOpen s j → c.parts = 0 →
    (startable s j 0x5000 c → c.blk 34 6 = 0 → c.blk 48 16 = 0 → s.attestScope (c.blk 32 1) (c.blk 33 1) = .ok seed →
      c.blk 40 8 % 4096 = 0 → ∃ t, exec (.attest j) s = .next t ∧ completes s t j c.seq 0 16 4096 ∧ gone s t j c ∧
      (∀ x, x < cqSlot s j ∨ cqSlot s j + 32 ≤ x → t.host.read1 x =
        if c.blk 40 8 ≤ x ∧ x < c.blk 40 8 + 4096 then
          (s.evidence ((c.param.getD []).take 32) (c.blk 33 1) seed).getD (x - c.blk 40 8) 0 else s.host.read1 x) ∧
      sameModule s t ∧ t.jobs = s.jobs ∧ sameHub s t) ∧
    (startable s j 0x5004 c → c.blk 14 50 = 0 → s.attestScope (c.blk 12 1) (c.blk 13 1) = .ok seed →
      ∃ t, exec (.getCert j) s = .next t ∧ gone s t j c ∧ sameModule s t ∧ t.jobs = s.jobs ∧ sameHub s t ∧
      (if c.blk 8 4 < (s.chain (c.blk 13 1) seed).length then
        completes s t j c.seq 0x1021 0 (s.chain (c.blk 13 1) seed).length ∧ hostApart (cqSlot s j) 32 s t
       else completes s t j c.seq 0 16 (s.chain (c.blk 13 1) seed).length ∧
        (∀ x, x < cqSlot s j ∨ cqSlot s j + 32 ≤ x → t.host.read1 x =
          if c.blk 0 8 ≤ x ∧ x < c.blk 0 8 + (s.chain (c.blk 13 1) seed).length then
            (s.chain (c.blk 13 1) seed).getD (x - c.blk 0 8) 0 else s.host.read1 x))) ∧
    (∀ st, startable s j 0x5000 c → c.blk 34 6 = 0 → c.blk 48 16 = 0 → s.attestScope (c.blk 32 1) (c.blk 33 1) = .error st →
      ∃ t, exec (.attest j) s = .next t ∧ completes s t j c.seq st 0 0 ∧ gone s t j c ∧ hostApart (cqSlot s j) 32 s t ∧
        sameModule s t ∧ sameRegs (pairRegs j) s t) ∧
    (∀ st, startable s j 0x5004 c → c.blk 14 50 = 0 → s.attestScope (c.blk 12 1) (c.blk 13 1) = .error st →
      ∃ t, exec (.getCert j) s = .next t ∧ completes s t j c.seq st 0 0 ∧ gone s t j c ∧ hostApart (cqSlot s j) 32 s t ∧
        sameModule s t ∧ sameRegs (pairRegs j) s t)

/-- A DEBUG_ENTER for D1 whose token passes every check but the signature starts the session exactly where the signature
verifies, and is refused with 0x3003 otherwise; either way the nonce is used up. One for D2 in P0 zeroises CK and the job keys
before its session starts, or waits while the cellar does not rest (R527). DEBUG_EXIT ends the session, or is refused with
0x3007 where there is none. ENTER_RETURN programs the return fuses and the seed lock, discards every binding and every
snapshot; one that loses power after RETURNED is programmed keeps that fuse and erases the cellar, and before it programs nothing
(R520, R524 to R528). -/
def Obligations.DebugAndReturn : Prop :=
  ∀ (j : Slot) (c : Cmd) (s : State), untouched c →
    (startable s j 0x5001 c → s.sec.d2wait = none → tokenForm (c.param.getD []) 1 = true → leAt (c.param.getD []) 7 1 = 1 →
      leAt (c.param.getD []) 72 1 = s.signer → s.level = 0 → s.tokenBound (c.param.getD []) = true →
      ∃ t, exec (.debugEnter j) s = .next t ∧ t.cmd j c.seq = none ∧ t.bit 0 SEC_STAT_NONCE_VALID = false ∧
        t.level = (if s.tokenSigned (c.param.getD []) then 1 else 0) ∧ sameModule s t ∧ t.jobs = s.jobs ∧ t.nvm = s.nvm ∧
        (s.tokenSigned (c.param.getD []) = false → cqOpen s j → completes s t j c.seq 0x3003 0 0)) ∧
    (startable s j 0x5001 c → s.sec.d2wait = none → tokenForm (c.param.getD []) 1 = true → leAt (c.param.getD []) 7 1 = 2 →
      leAt (c.param.getD []) 72 1 = s.signer → s.level = 0 → s.tokenBound (c.param.getD []) = true →
      s.tokenSigned (c.param.getD []) = true → s.pstate = 0 → s.lowPower = false → s.outstanding isWork = false →
      (s.qp j).cmds = [c] → ∃ t, exec (.debugEnter j) s = .next t ∧ sameModule s t ∧ t.nvm = s.nvm ∧
        t.bit 0 SEC_STAT_NONCE_VALID = false ∧
        (if s.cellarRests then t.level = 2 ∧ t.cmd j c.seq = none ∧ t.sec.ck = none ∧ t.sec.ckCellar = none ∧
          t.bit 0 SEC_STAT_KEYS_ZEROISED = true ∧ t.bit 0 CLR_STAT_LOCKED = true ∧ (∀ k, (t.job k).jobKey = none) ∧
          (cqOpen s j → completes s t j c.seq 0 16 0)
         else t.level = 0 ∧ t.sec.d2wait = some (.keager j) ∧ t.host = s.host)) ∧
    (startable s j 0x5001 c → s.sec.d2wait = none → tokenForm (c.param.getD []) 1 = false →
      ∃ t, exec (.debugEnter j) s = .next t ∧ t.cmd j c.seq = none ∧ t.level = s.level ∧
        t.bit 0 SEC_STAT_NONCE_VALID = s.bit 0 SEC_STAT_NONCE_VALID ∧ (cqOpen s j → completes s t j c.seq 0x3002 0 0)) ∧
    (startable s j 0x5002 c → s.level ≠ 0 → ∃ t, exec (.debugExit j) s = .next t ∧ t.cmd j c.seq = none ∧ t.level = 0 ∧
      t.fld 0 SEC_STAT_SESSION_PATH = 0 ∧ sameModule s t ∧ t.nvm = s.nvm ∧ (cqOpen s j → completes s t j c.seq 0 16 0)) ∧
    (startable s j 0x5002 c → s.level = 0 → ∃ t, exec (.debugExit j) s = .next t ∧ t.cmd j c.seq = none ∧
      (cqOpen s j → completes s t j c.seq 0x3007 0 0 ∧ sameRegs (pairRegs j) s t) ∧ sameModule s t) ∧
    (startable s j 0x5003 c → tokenForm (c.param.getD []) 2 = true → leAt (c.param.getD []) 72 1 = s.signer →
      s.lowPower = false → s.outstanding isWork = false → s.tokenBound (c.param.getD []) = true →
      (∃ t, exec (.enterReturn j none) s = .next t ∧ t.cmd j c.seq = none ∧ sameModule s t ∧
        (if s.tokenSigned (c.param.getD []) then t.secState = 3 ∧ t.nvm = { s.nvm with returned := true, seedLock := true } ∧
          t.sec.ors = none ∧ t.sec.ck = none ∧ t.sec.ckCellar = none ∧ t.cellar.snaps = [] ∧ t.cellar.store = [] ∧
          (∀ k, (t.job k).binding = none ∧ (t.job k).jobKey = none) else t.nvm = s.nvm ∧ t.cellar = s.cellar)) ∧
      (∀ past dv, dv < 440 → s.tokenSigned (c.param.getD []) = true → s.nvm.returned = false →
        ∃ t, exec (.enterReturn j (some (past, dv))) s = .next t ∧ t.power.aux = false ∧ t.nvm.returned = past ∧
        t.nvm.seedLock = s.nvm.seedLock ∧ t.cellar.snaps = (if past then [] else s.cellar.snaps)))

/-- MARCH_PRESERVING of a bank without an owner gives it to the march engine, OWNER code 5; of an owned bank it is refused with
0x1020, of a bank or mode that is none with 0x1021. MARCH_DONE frees the bank, records a repair for each failing row while usable
spare rows are left, and completes the command with their number (R276, R277); with rows left over the bank is marked FAILED
(R278; that clause is of a shelf bank that serves no core of its die). Without a march of the bank, a self-test or stage 3 it
does nothing. -/
def Obligations.MarchOwnsBank : Prop :=
  (∀ (j : Slot) (c : Cmd) (s : State), s.pstate = 0 → startableBy s j (fun x => x.op == 0x6000 && s.marchFree x) c →
    (∀ b, c.opnd 32 1 < 4 → c.opnd 36 1 ≤ 1 → s.inService (c.opnd 32 1) = true →
      s.bankOfCode (c.opnd 32 1) (c.opnd 34 2) = some b →
      (s.fld (bankAt b) BANK_OWN_OWNER = 0 → ∃ t, exec (.marchPreserving j) s = .next t ∧ t.fld (bankAt b) BANK_OWN_OWNER = 5 ∧
        (t.die (c.opnd 32 1)).marches = (s.die (c.opnd 32 1)).marches ++ [⟨b, j, c.seq⟩] ∧
        (s.bit (bankAt b) BANK_STAT_READY = true → sameMemories s t) ∧ t.jobs = s.jobs ∧ t.nvm = s.nvm) ∧
      (s.fld (bankAt b) BANK_OWN_OWNER ≠ 0 → untouched c → cqOpen s j → ∃ t, exec (.marchPreserving j) s = .next t ∧
        completes s t j c.seq 0x1020 0 0 ∧ gone s t j c ∧ sameModule s t ∧ sameRegs (pairRegs j) s t)) ∧
    (3 < c.opnd 32 1 ∨ 1 < c.opnd 36 1 ∨ s.inService (c.opnd 32 1) = false ∨
      s.bankOfCode (c.opnd 32 1) (c.opnd 34 2) = none → untouched c → cqOpen s j → ∃ t, exec (.marchPreserving j) s = .next t ∧
      completes s t j c.seq 0x1021 0 0 ∧ gone s t j c ∧ sameModule s t ∧ sameRegs (pairRegs j) s t)) ∧
  (∀ (d : Die) (j : Slot) (c : Cmd) (rep : MarchReport) (s : State),
    (s.die d).marches.find? (fun m => m.bank == rep.bank) = some ⟨rep.bank, j, c.seq⟩ →
    bankDie rep.bank = d → s.fld (bankAt rep.bank) BANK_OWN_OWNER = 5 → (failingRows rep).length ≤ (s.usable rep).length →
    (s.qp j).cmds.find? (fun x => x.started && x.op == 0x6000 && x.seq == c.seq) = some c → s.cmd j c.seq = some c →
    untouched c → cqOpen s j →
    ∃ t, exec (.marchDone d rep) s = .next t ∧ t.fld (bankAt rep.bank) BANK_OWN_OWNER = 0 ∧
      (t.die d).marches = (s.die d).marches.filter (fun m => m.bank != rep.bank) ∧
      t.nvm = { s.nvm with repairs := s.nvm.repairs ++ s.repairsBy rep } ∧
      completes s t j c.seq 0 16 (failingRows rep).length ∧ gone s t j c ∧ hostApart (cqSlot s j) 32 s t ∧ sameModule s t ∧
      t.jobs = s.jobs) ∧
  (∀ (d : Die) (rep : MarchReport) (s : State), bankDie rep.bank = d → (s.die d).marches = [] →
    ((s.die d).testing = false → s.fld 0 HUB_BRINGUP_CURRENT ≠ 3 → exec (.marchDone d rep) s = .next s) ∧
    ((s.die d).testing = true ∨ s.fld 0 HUB_BRINGUP_CURRENT = 3 → bankIsStore rep.bank = false →
      s.spareSlot d (rep.bank % 816 / 8) = none → s.bit (bankAt rep.bank) BANK_STAT_FAILED = false →
      ∃ t, exec (.marchDone d rep) s = .next t ∧ t.nvm.repairs = s.nvm.repairs ++ s.repairsBy rep ∧
        t.bit (bankAt rep.bank) BANK_STAT_FAILED = decide ((s.usable rep).length < (failingRows rep).length) ∧
        t.nvm.failedBanks = s.nvm.failedBanks ++ (if (s.usable rep).length < (failingRows rep).length then [rep.bank] else []) ∧
        sameMemories s t ∧ t.jobs = s.jobs ∧ t.qps = s.qps))

/-! ## Banks, the larder's scrub and the attic (R254 to R299) -/

/-- A host write of BANK_OWN clears REFUSED where bit 4 is 1, and acts on OWNER under D2 only, for codes 0 and 6 (R264); an
ownership write while accesses are pending is refused, recorded and counted (R260). The handover logic of a run in progress
writes the code that its timeline gives at the latest boundary reached, with the job's slot for codes 1 to 3; a refusal is
counted as a wait and the boundary stays due; with none due it does nothing (R262). The debug window of a bank whose OWNER is
HOST reads and writes the 8 B that WORD names, and wakes the bank; beyond a shelf bank's end it reads zero and writes nothing;
of a bank of another owner too, with a non-owner access (R263, R264). ARR_INJECT arms an injection under D2 only (R96). A
die that takes no accesses changes nothing at any of them and reads as zero (R42, R478). -/
def Obligations.BankAccess : Prop :=
  (∀ (b : BankNo) (v : Nat) (s : State),
    (s.serves (bankAt b) = false → exec (.bankOwnWrite b v) s = .next s) ∧
    (s.serves (bankAt b) = true → ∃ t, exec (.bankOwnWrite b v) s = .next t ∧ sameMemories s t ∧ sameWork s t ∧
      (s.d2 = false ∨ (v % 8 ≠ 0 ∧ v % 8 ≠ 6) → t.bit (bankAt b) BANK_OWN_REFUSED = (s.bit (bankAt b) BANK_OWN_REFUSED && !bitN v 4) ∧
        t.fld (bankAt b) BANK_OWN_OWNER = s.fld (bankAt b) BANK_OWN_OWNER ∧ sameHub s t ∧
        sameRegs (fun a => a = BANK_OWN_OWNER.at (bankAt b) 0) s t) ∧
      (s.d2 = true → v % 8 = 0 ∨ v % 8 = 6 → s.bit (bankAt b) BANK_OWN_PENDING = false →
        t.fld (bankAt b) BANK_OWN_OWNER = v % 8 ∧ t.bit (bankAt b) BANK_OWN_JOB_VALID = false ∧
        t.bit (bankAt b) BANK_OWN_REFUSED = (s.bit (bankAt b) BANK_OWN_REFUSED && !bitN v 4) ∧
        sameRegs (fun a => a = BANK_OWN_OWNER.at (bankAt b) 0 ∨ a = SEC_TRACE_STAT_WR_INDEX.at 0 0) s t) ∧
      (s.d2 = true → v % 8 = 0 ∨ v % 8 = 6 → s.bit (bankAt b) BANK_OWN_PENDING = true →
        t.fld (bankAt b) BANK_OWN_OWNER = s.fld (bankAt b) BANK_OWN_OWNER ∧ t.bit (bankAt b) BANK_OWN_REFUSED = true ∧
        t.fld (bankAt b) BANK_OWN_REFUSED_CODE = v % 8 ∧ counted s t (bankAt b) BANK_CNT_REFUSED_V 0 1 ∧ sameHub s t))) ∧
  (∀ (j : Slot) (b : BankNo) (r : Run) (bi : Binding) (s : State), (s.job j).run = some r → (s.job j).binding = some bi →
    r.parked = false → r.spilled = false → r.posted = false → r.map.contains (bankDie b) = true →
    bitN r.failed (bankDie b) = false →
    (∀ top code, s.due r bi.plan b = some (top, code) → code < 8 → Tab.getD r.handed (s.planBank r b) 0 < top →
      (s.mayOwn b code = true → ∃ t, exec (.handoverWrite j b) s = .next t ∧ t.fld (bankAt b) BANK_OWN_OWNER = code ∧
        (1 ≤ code → code ≤ 3 → t.fld (bankAt b) BANK_OWN_JOB = j ∧ t.bit (bankAt b) BANK_OWN_JOB_VALID = true) ∧
        (t.job j).run = some { r with handed := Tab.put r.handed (s.planBank r b) top } ∧ (∀ k, k ≠ j.val → t.job k = s.job k) ∧
        sameMemories s t ∧ t.qps = s.qps ∧ t.dies = s.dies ∧ t.cores = s.cores) ∧
      (s.mayOwn b code = false → ∃ t, exec (.handoverWrite j b) s = .next t ∧
        t.fld (bankAt b) BANK_OWN_OWNER = s.fld (bankAt b) BANK_OWN_OWNER ∧ t.bit (bankAt b) BANK_OWN_REFUSED = true ∧
        t.fld (bankAt b) BANK_OWN_REFUSED_CODE = code ∧ counted s t (bankAt b) BANK_CNT_HANDOVER_WAIT_V 0 1 ∧
        sameMemories s t ∧ sameWork s t)) ∧
    ((∀ top code, s.due r bi.plan b = some (top, code) → top ≤ Tab.getD r.handed (s.planBank r b) 0) →
      exec (.handoverWrite j b) s = .next s)) ∧
  (∀ (b : BankNo) (s : State),
    (s.serves (bankAt b) = false → exec (.bankDbgRead b) s = .next { s with rd := ⟨zeros 8, false⟩ } ∧
      ∀ v, exec (.bankDbgWrite b v) s = .next s) ∧
    (s.serves (bankAt b) = true → s.dbgAt b = none → (∀ v, exec (.bankDbgWrite b v) s = .next s) ∧
      ∃ t, exec (.bankDbgRead b) s = .next t ∧ t.rd.data = zeros 8 ∧ sameMemories s t ∧ sameWork s t ∧ sameHub s t) ∧
    (∀ o, s.serves (bankAt b) = true → s.dbgAt b = some o → s.fld (bankAt b) BANK_OWN_OWNER = 6 →
      (∃ t, exec (.bankDbgRead b) s = .next t ∧ t.rd.data = t.bankRead b o 8 ∧
        t.bit (bankAt b) BANK_DBG_ADDR_POISON = t.bankPoisoned b o 8 ∧ t.bit (bankAt b) BANK_STAT_READY = true ∧
        sameWork s t ∧ sameHub s t ∧ (s.bit (bankAt b) BANK_STAT_READY = true → sameMemories s t ∧
          sameRegs (fun a => a = BANK_DBG_ADDR_WORD.at (bankAt b) 0) s t)) ∧
      (∀ v, ∃ t, exec (.bankDbgWrite b v) s = .next t ∧ t.bankRead b o 8 = bytesLE 8 v ∧
        t.bit (bankAt b) BANK_STAT_READY = true ∧ t.host = s.host ∧ t.larder = s.larder ∧ t.attic = s.attic ∧
        t.qps = s.qps ∧ t.jobs = s.jobs ∧ t.cores = s.cores ∧ sameHub s t ∧
        (if bankIsStore b then t.shelf = s.shelf else t.store = s.store) ∧
        (s.bit (bankAt b) BANK_STAT_READY = true → t.regs = s.regs ∧ ∀ x, x < bankKey b + o ∨ bankKey b + o + 8 ≤ x →
          t.shelf.read1 x = s.shelf.read1 x ∧ t.store.read1 x = s.store.read1 x))) ∧
    (∀ o, s.serves (bankAt b) = true → s.dbgAt b = some o → s.fld (bankAt b) BANK_OWN_OWNER ≠ 6 →
      (∃ t, exec (.bankDbgRead b) s = .next t ∧ t.rd.data = zeros 8 ∧ t.bit (bankAt b) BANK_STAT_NONOWNER = true ∧
        counted s t (bankAt b) BANK_CNT_NONOWNER_V 0 1 ∧ sameMemories s t ∧ sameWork s t ∧ sameHub s t) ∧
      (∀ v, ∃ t, exec (.bankDbgWrite b v) s = .next t ∧ t.bit (bankAt b) BANK_STAT_NONOWNER = true ∧
        counted s t (bankAt b) BANK_CNT_NONOWNER_V 0 1 ∧ sameMemories s t ∧ sameWork s t ∧ sameHub s t))) ∧
  (∀ (d : Die) (p : Phys) (a : Arr) (v : Nat) (s : State),
    (s.serves (arrAt d p a) = false ∨ s.d2 = false ∨ v % 2 = 0 → exec (.arrInject d p a v) s = .next s) ∧
    (s.serves (arrAt d p a) = true → s.d2 = true → v % 2 = 1 → ∃ t, exec (.arrInject d p a v) s = .next t ∧
      Tab.find (t.core d p).armed a = some (v % 512) ∧ t.regs = s.regs ∧ sameMemories s t ∧ t.jobs = s.jobs ∧ t.qps = s.qps ∧
      ∀ e q, e * 100 + q ≠ d.val * 100 + p.val → t.core e q = s.core e q))

/-- A power request of the host is held under D2 only, and not for the reserved code 3 (R271). The bank leaves its state for the
transition to it where it has one to make and no transition, access or write-back is under way (R272); otherwise the request
waits, and begins its transition later under the same conditions. The transition that ends shows the new state and begins the
next where the request has changed; a bank that went through OFF has lost its contents, any other keeps them (R273). -/
def Obligations.BankPower : Prop :=
  ∀ (b : BankNo) (s : State),
    (∀ v, s.serves (bankAt b) = false ∨ s.d2 = false ∨ v % 4 = 3 → exec (.bankPwrReqWrite b v) s = .next s) ∧
    (∀ v, s.serves (bankAt b) = true → s.d2 = true → v % 4 ≠ 3 → ∃ t, exec (.bankPwrReqWrite b v) s = .next t ∧
      t.fld (bankAt b) BANK_CTRL_PWR_REQ = v % 4 ∧ sameMemories s t ∧ sameWork s t ∧ sameHub s t ∧
      (Tab.find s.bankTrans b = none → s.bankPwr b ≠ v % 4 → s.bit (bankAt b) BANK_OWN_PENDING = false →
        s.backPending b = false → t.bankPwr b = 3 ∧ t.bit (bankAt b) BANK_STAT_READY = false ∧
          Tab.find t.bankTrans b = some (s.bankPwr b * 4 + v % 4)) ∧
      (Tab.find s.bankTrans b ≠ none ∨ s.bankPwr b = v % 4 ∨ s.bit (bankAt b) BANK_OWN_PENDING = true ∨
        s.backPending b = true → t.bankPwr b = s.bankPwr b ∧ t.bit (bankAt b) BANK_STAT_READY = s.bit (bankAt b) BANK_STAT_READY ∧
          t.bankTrans = s.bankTrans)) ∧
    (Tab.find s.bankTrans b = none → s.bankPwr b ≠ s.fld (bankAt b) BANK_CTRL_PWR_REQ → s.fld (bankAt b) BANK_CTRL_PWR_REQ ≠ 3 →
      s.bit (bankAt b) BANK_OWN_PENDING = false → s.backPending b = false → ∃ t, exec (.bankPowerTransition b) s = .next t ∧
        t.bankPwr b = 3 ∧ t.bit (bankAt b) BANK_STAT_READY = false ∧ sameMemories s t ∧ sameWork s t ∧ sameHub s t) ∧
    (∀ tr, Tab.find s.bankTrans b = some tr → ∃ t, exec (.bankPowerTransition b) s = .next t ∧
      (s.fld (bankAt b) BANK_CTRL_PWR_REQ = tr % 4 → t.bankPwr b = tr % 4 ∧
        t.bit (bankAt b) BANK_STAT_READY = (tr % 4 == 0) ∧ Tab.find t.bankTrans b = none) ∧
      (s.fld (bankAt b) BANK_CTRL_PWR_REQ ≠ tr % 4 → s.fld (bankAt b) BANK_CTRL_PWR_REQ ≠ 3 →
        s.bit (bankAt b) BANK_OWN_PENDING = false → s.backPending b = false → t.bankPwr b = 3 ∧
          Tab.find t.bankTrans b = some (tr % 4 * 4 + s.fld (bankAt b) BANK_CTRL_PWR_REQ)) ∧
      (if tr / 4 = 2 ∨ tr % 4 = 2 then
        ∀ i, i < bankBytes b → t.bankRead b i 1 = [0] ∧ t.bankPoisoned b i 1 = false else sameMemories s t) ∧
      t.host = s.host ∧ t.larder = s.larder ∧ t.attic = s.attic ∧ sameWork s t ∧ sameHub s t)

/-- A read of a bank that is ON and meets a corrected error counts it, loses nothing and leaves a write-back of the 8 B pending;
one that meets an uncorrectable error poisons the granule, records and counts it, and leaves a write-back pending; of three
poison copies the majority counts, and one that differs is a corrected error; the write-back that is made is pending no more.
A bank that is not READY has none of these, nor an offset beyond it (R257, R258; the granule of the statement on the copies
has no write-back pending). The patrol scrub counts a corrected error of the larder for its device, poisons the granule of an
uncorrectable one, logs a granule that it finds poisoned, and does nothing while it is disabled or beyond the larder (R281). -/
def Obligations.MemoryErrors : Prop :=
  (∀ (b : BankNo) (off : Nat) (s : State), s.bit (bankAt b) BANK_STAT_READY = true → off < bankBytes b →
    (∃ t, exec (.eccWriteback b (.corrected off)) s = .next t ∧ t.bit (bankAt b) BANK_ECC_CE = true ∧
      counted s t (bankAt b) BANK_CNT_CE_V 0 1 ∧
      (t.die (bankDie b)).backs.any (fun w => w.bank == b.val && w.off == off / 8 * 8) = true ∧
      sameMemories s t ∧ t.qps = s.qps ∧ t.jobs = s.jobs ∧ t.cores = s.cores ∧ sameHub s t) ∧
    ((s.die (bankDie b)).backs = [] → ∃ t, exec (.eccWriteback b (.uncorrectable off)) s = .next t ∧
      t.bankPoisoned b off 1 = true ∧ (t.die (bankDie b)).backs.any (fun w => w.bank == b.val && w.off == off / 8 * 8 && w.ue) = true ∧
      (∀ x, t.shelf.read1 x = s.shelf.read1 x ∧ t.store.read1 x = s.store.read1 x) ∧ t.bit (bankAt b) BANK_ECC_UE = true ∧
      (s.bit (bankAt b) BANK_ECC_UE = false → t.fld (bankAt b) BANK_ECC_GRANULE = off / 64) ∧
      counted s t (bankAt b) BANK_CNT_UE_V 0 1 ∧ t.host = s.host ∧ t.larder = s.larder ∧ t.attic = s.attic ∧
      t.qps = s.qps ∧ t.jobs = s.jobs ∧ t.cores = s.cores ∧ sameHub s t) ∧
    (∀ mask, (∀ d, (s.die d).backs = []) → ∃ t, exec (.eccWriteback b (.copies off mask)) s = .next t ∧
      t.bankPoisoned b off 1 = xor (s.bankPoisoned b off 1) (decide (2 ≤ (maskBits 3 mask).length)) ∧
      counted s t (bankAt b) BANK_CNT_CE_V 0
        (if (maskBits 3 mask).length = 1 ∨ (maskBits 3 mask).length = 2 then 1 else 0) ∧
      (∀ x, t.shelf.read1 x = s.shelf.read1 x ∧ t.store.read1 x = s.store.read1 x) ∧
      t.host = s.host ∧ t.larder = s.larder ∧ t.attic = s.attic ∧ sameWork s t ∧ sameHub s t) ∧
    (∃ t, exec (.eccWriteback b (.writeBack off)) s = .next t ∧
      (t.die (bankDie b)).backs.any (fun w => w.bank == b.val && w.off == off / 8 * 8) = false ∧ t.regs = s.regs ∧
      sameMemories s t ∧ t.qps = s.qps ∧ t.jobs = s.jobs ∧ t.cores = s.cores ∧ sameHub s t)) ∧
  (∀ (b : BankNo) (off mask : Nat) (s : State), s.bit (bankAt b) BANK_STAT_READY = false ∨ bankBytes b ≤ off →
    exec (.eccWriteback b (.corrected off)) s = .next s ∧ exec (.eccWriteback b (.uncorrectable off)) s = .next s ∧
    exec (.eccWriteback b (.copies off mask)) s = .next s ∧ exec (.eccWriteback b (.writeBack off)) s = .next s) ∧
  (∀ (g : Nat) (s : State), s.bit 0 LDR_SCRUB_EN = true → laPopulated (g * 64) = true →
    (∃ t, exec (.patrolScrub g .corrected) s = .next t ∧ counted s t 0 LDR_DEV_CNT_CE_V (larderDevice (g * 64)) 1 ∧
      sameMemories s t ∧ sameWork s t ∧ sameHub s t ∧
      sameRegs (fun a => a = LDR_DEV_CNT_CE_V.at 0 (larderDevice (g * 64))) s t) ∧
    (s.larder.poisoned (g * 64) = false → exec (.patrolScrub g .clean) s = .next s) ∧
    (s.larder.poisoned (g * 64) = true → ∃ t, exec (.patrolScrub g .clean) s = .next t ∧
      t.bit 0 LDR_POISON_LOG_VALID = true ∧ sameMemories s t ∧ sameWork s t ∧ sameHub s t) ∧
    (∃ t, exec (.patrolScrub g .uncorrectable) s = .next t ∧ t.larder.poisoned (g * 64) = true ∧
      (∀ x, x / 64 ≠ g → t.larder.poisoned x = s.larder.poisoned x) ∧ (∀ x, t.larder.read1 x = s.larder.read1 x) ∧
      t.bit 0 LDR_DEV_STAT_UE (larderDevice (g * 64)) = true ∧ t.bit 0 LDR_POISON_LOG_VALID = true ∧
      counted s t 0 LDR_DEV_CNT_UE_V (larderDevice (g * 64)) 1 ∧ t.host = s.host ∧ t.attic = s.attic ∧ t.shelf = s.shelf ∧
      t.store = s.store ∧ sameWork s t ∧ sameHub s t)) ∧
  (∀ (g : Nat) (found : ScrubFind) (s : State), s.bit 0 LDR_SCRUB_EN = false ∨ laPopulated (g * 64) = false →
    exec (.patrolScrub g found) s = .next s)

/-- The answer to an outstanding attic request that comes before the request's evaluation edge ends the request: a write has
stored its bytes with its poison and counts them; a read for the larder has put them there, poisoned where the answer or the
granule was, unless its owner denied it; one that comes after the edge has timed out. A request past its time ends: a read puts
poisoned zeros, a write is recorded as lost and leaves every other granule alone; before its time nothing happens (R285, R286,
R288). A port whose link goes down is down, has been seen down, and holds no request; those of the other port stand; a lone
outstanding read counts as timed out, a lone outstanding write as lost only. A port that retrains with its capacity is up again;
one that fails to, or changes its capacity, stays out of service, whatever later trainings give (R287). -/
def Obligations.AtticTraffic : Prop :=
  (∀ (k : Nat) (q : AtticReq) (s : State), s.attics.find? (fun x => x.id == k && x.sent) = some q → q.slot < 64 → q.port < 2 →
    (∀ p, q.write = true → s.ts + 3 ≤ q.ts + s.atticLimit q.port → ∃ t, exec (.atticResponse k p) s = .next t ∧
      t.attics.map AtticReq.id = (s.attics.map AtticReq.id).filter (fun x => x != k) ∧
      (∀ x, t.attic.read1 x = if q.aa ≤ x ∧ x < q.aa + q.data.length then q.data.getD (x - q.aa) 0 else s.attic.read1 x) ∧
      (q.data.length % 64 = 0 → ∀ x, q.aa ≤ x → x < q.aa + q.data.length → t.attic.poisoned x = q.poison) ∧
      (q.data.length % 64 ≠ 0 → ∀ x, q.aa ≤ x → x < q.aa + q.data.length →
        t.attic.poisoned x = (q.poison || s.attic.anyPoison q.aa q.data.length)) ∧
      counted s t 0 ATC_CNT_WR_BYTES_V q.port q.data.length ∧ t.host = s.host ∧ t.larder = s.larder ∧ t.shelf = s.shelf ∧
      t.store = s.store ∧ t.qps = s.qps ∧ t.jobs = s.jobs ∧ sameHub s t) ∧
    (∀ p, q.write = false → q.tier = 2 → s.ts + 3 ≤ q.ts + s.atticLimit q.port → ∃ t, exec (.atticResponse k p) s = .next t ∧
      t.attics.map AtticReq.id = (s.attics.map AtticReq.id).filter (fun x => x != k) ∧
      (q.denied = true → t.larder = s.larder) ∧
      (q.denied = false → (∀ x, t.larder.read1 x = if q.addr ≤ x ∧ x < q.addr + q.bytes then
          s.attic.read1 (q.aa + (x - q.addr)) else s.larder.read1 x) ∧
        (q.bytes % 64 = 0 → ∀ x, q.addr ≤ x → x < q.addr + q.bytes → t.larder.poisoned x = (p || s.attic.poisoned q.aa))) ∧
      counted s t 0 ATC_CNT_RD_BYTES_V q.port q.bytes ∧ t.host = s.host ∧ t.attic = s.attic ∧ t.shelf = s.shelf ∧
      t.store = s.store ∧ t.qps = s.qps ∧ t.jobs = s.jobs ∧ sameHub s t) ∧
    (∀ p, q.write = true ∨ q.tier = 2 → q.ts + s.atticLimit q.port < s.ts + 2 → ∃ t, exec (.atticResponse k p) s = .next t ∧
      t.attics.map AtticReq.id = (s.attics.map AtticReq.id).filter (fun x => x != k) ∧
      t.bit 0 ATC_ERR_TIMEOUT q.port = true ∧ counted s t 0 ATC_CNT_TIMEOUT_V q.port 1) ∧
    (s.ts < q.ts + s.atticLimit q.port → exec (.atticTimeout k) s = .next s) ∧
    (q.write = false → q.tier = 2 → q.ts + s.atticLimit q.port ≤ s.ts → ∃ t, exec (.atticTimeout k) s = .next t ∧
      t.attics.map AtticReq.id = (s.attics.map AtticReq.id).filter (fun x => x != k) ∧
      t.bit 0 ATC_ERR_TIMEOUT q.port = true ∧ counted s t 0 ATC_CNT_TIMEOUT_V q.port 1 ∧
      (q.denied = true → t.larder = s.larder) ∧
      (q.denied = false → (∀ x, t.larder.read1 x = if q.addr ≤ x ∧ x < q.addr + q.bytes then 0 else s.larder.read1 x) ∧
        (∀ x, q.addr ≤ x → x < q.addr + q.bytes → t.larder.poisoned x = true)) ∧ t.host = s.host ∧ t.attic = s.attic ∧
      t.shelf = s.shelf ∧ t.store = s.store ∧ t.qps = s.qps ∧ t.jobs = s.jobs ∧ sameHub s t) ∧
    (q.write = true → q.ts + s.atticLimit q.port ≤ s.ts → ∃ t, exec (.atticTimeout k) s = .next t ∧
      t.attics.map AtticReq.id = (s.attics.map AtticReq.id).filter (fun x => x != k) ∧
      t.bit 0 ATC_ERR_TIMEOUT q.port = true ∧ t.bit 0 ATC_ERR_LOST q.port = true ∧ counted s t 0 ATC_CNT_TIMEOUT_V q.port 1 ∧
      (∀ x, x / 64 ≠ q.aa / 64 → t.attic.read1 x = s.attic.read1 x) ∧ t.larder = s.larder ∧ t.shelf = s.shelf ∧
      t.store = s.store)) ∧
  (∀ (x : Port) (s : State), (s.bit 0 ATC_STAT_UP x = false → exec (.atticLinkDown x) s = .next s) ∧
    (s.bit 0 ATC_STAT_UP x = true → (∀ q ∈ s.attics, q.slot < 64) → ∃ t, exec (.atticLinkDown x) s = .next t ∧
      t.bit 0 ATC_STAT_UP x = false ∧ t.bit 0 ATC_STAT_DOWN_SEEN x = true ∧
      (∀ q ∈ t.attics, q.port ≠ x.val) ∧ (∀ q ∈ s.attics, q.port ≠ x.val → q ∈ t.attics) ∧
      (∀ q, s.attics = [q] → q.port = x.val → q.sent = true →
        if q.write then t.bit 0 ATC_ERR_LOST x = true ∧ t.fld 0 ATC_CNT_TIMEOUT_V x = s.fld 0 ATC_CNT_TIMEOUT_V x
        else q.tier = 2 → t.bit 0 ATC_ERR_TIMEOUT x = true ∧ counted s t 0 ATC_CNT_TIMEOUT_V x 1) ∧
      (s.attics = [] → sameMemories s t ∧ sameWork s t ∧ sameHub s t ∧ sameRegs (fun a => a = ATC_STAT_UP.at 0 x) s t))) ∧
  (∀ (x : Port) (ok : Bool) (bytes : Nat) (s : State),
    (s.bit 0 ATC_STAT_UP x = true ∨ s.fld 0 ATC_CAP_BYTES x = 0 → exec (.atticPortRetrain x ok bytes) s = .next s) ∧
    (s.bit 0 ATC_STAT_UP x = false → s.fld 0 ATC_CAP_BYTES x ≠ 0 → s.power.atticOut / 2 ^ x.val % 2 = 0 →
      (ok = true → bytes = s.fld 0 ATC_CAP_BYTES x → ∃ t, exec (.atticPortRetrain x ok bytes) s = .next t ∧
        t.bit 0 ATC_STAT_UP x = true ∧ sameMemories s t ∧ sameWork s t ∧ sameHub s t ∧
        sameRegs (fun a => a = ATC_STAT_UP.at 0 x) s t) ∧
      (ok = false ∨ bytes ≠ s.fld 0 ATC_CAP_BYTES x → ∃ t, exec (.atticPortRetrain x ok bytes) s = .next t ∧
        t.regs = s.regs ∧ sameMemories s t ∧ sameWork s t ∧
        ∀ ok' bytes', exec (.atticPortRetrain x ok' bytes') t = .next t)))

/-! ## Links, cores and dies (R334 to R339, R409 to R437) -/

/-- Flits and handshakes of a link that runs (R335, R339): a flit that passes its CRC ends its replays, one that fails is
replayed and counted, and after sixteen replays the link goes down; a handshake that does not arrive is a replay, one that
arrives late counts. A link that does not run has none of these. A link that is down and retrains is up again; a couch link that
does not is out of service and, no job standing, nothing else changes but that the ring is degraded (R336); a link that is not
down does not retrain. -/
def Obligations.LinkLayer : Prop :=
  (∀ (k : LinkEnd) (s : State), s.linkRuns k.link = true →
    (∃ t, exec (.linkFlitReceive k true) s = .next t ∧ (t.linkSt (linkKey k)).replays = 0 ∧ t.regs = s.regs ∧
      sameMemories s t ∧ sameWork s t ∧ sameHub s t) ∧
    ((s.linkSt (linkKey k)).replays < 16 → ∃ t, exec (.linkFlitReceive k false) s = .next t ∧
      (t.linkSt (linkKey k)).replays = (s.linkSt (linkKey k)).replays + 1 ∧ t.linkRuns k.link = true ∧
      (k.link.val < 4 → counted s t (dieAt (linkSender k).1) RING_LINK_CNT_REPLAY_V (linkSender k).2 1) ∧
      sameMemories s t ∧ sameWork s t ∧ sameHub s t) ∧
    (16 ≤ (s.linkSt (linkKey k)).replays → ∃ t, exec (.linkFlitReceive k false) s = .next t ∧ t.linkRuns k.link = false ∧
      t.linkDown k.link = true ∧ (k.link.val < 4 → t.linkUp k.link = false ∧
        t.bit (dieAt k.link) RING_LINK_STAT_DOWN_SEEN 0 = true) ∧ sameMemories s t ∧ sameWork s t ∧ sameHub s t) ∧
    (exec (.linkHandshakeTimeout k false) s = exec (.linkFlitReceive k false) s) ∧
    (∃ t, exec (.linkHandshakeTimeout k true) s = .next t ∧ t.links = s.links ∧ sameMemories s t ∧ sameWork s t ∧ sameHub s t ∧
      (if k.link.val < 4 then counted s t (dieAt (linkSender k).1) RING_LINK_CNT_LATE_V (linkSender k).2 1
       else counted s t 0 HUB_FLT_CNT_LATE_V 0 1))) ∧
  (∀ (k : LinkEnd) (ok : Bool) (s : State), s.linkRuns k.link = false →
    exec (.linkFlitReceive k ok) s = .next s ∧ exec (.linkHandshakeTimeout k ok) s = .next s) ∧
  (∀ (k : LinkNo) (s : State), (∀ ok, s.linkDown k = false → exec (.linkRetrain k ok) s = .next s) ∧
    (s.linkDown k = true →
      (∃ t, exec (.linkRetrain k true) s = .next t ∧ t.linkDown k = false ∧ (t.linkSt (k.val * 2)).replays = 0 ∧
        (t.linkSt (k.val * 2 + 1)).replays = 0 ∧
        (k.val < 4 → t.linkUp k = true ∧ t.bit (dieAt k) RING_LINK_STAT_TRAINED 0 = true ∧
          t.bit (dieAt ((k.val + 1) % 4)) RING_LINK_STAT_UP 1 = true) ∧ sameMemories s t ∧ sameWork s t ∧ sameHub s t) ∧
      (k.val < 4 → s.jobs = [] → ∃ t, exec (.linkRetrain k false) s = .next t ∧ t.linkOk k = false ∧ t.linkUp k = false ∧
        t.bit (dieAt ((k.val + 1) % 4)) RING_LINK_STAT_OUT_OF_SERVICE 1 = true ∧
        (∀ d, d < 4 → t.bit (dieAt d) RING_STAT_DEGRADED = true) ∧ sameMemories s t ∧ sameWork s t ∧ sameHub s t)))

/-- After a ring timeout of a run on it, a die whose links fail leaves service with cause HUB_LINK, one whose heartbeats alone
fail with cause DIE_FAULT; one with good beats and links is left alone, and so is a die of no such run (R430; the two causes are
the model's reading, log entry 20). A hub-to-die link that fails to retrain takes its die out of service with cause HUB_LINK
(R409). A die that leaves service, with no pair holding a command and no job bound, shows its state and cause, has left
HUB_STATUS.DIES and is counted; nothing of the other dies changes (R427). The self-test of a diagnosing or reset die clears
its banks, powers those of the store room and of mapped cores, and turns the others off; its end shows PASSED or FAILED; with
no self-test to begin or to end nothing happens (R437). -/
def Obligations.DiesLeaveAndTest : Prop :=
  (∀ (j : Slot) (d : Die) (beats links : Bool) (s : State),
    (s.silentPeer j d = false ∨ (beats = true ∧ links = true) → exec (.peerCheck j d beats links) s = .next s) ∧
    (s.silentPeer j d = true → exec (.peerCheck j d beats false) s =
        .next ((s.modDie d (fun x => { x with cut := true })).leaveService d 3 1) ∧
      exec (.peerCheck j d false true) s = .next (s.leaveService d 2 2))) ∧
  (∀ (k : LinkNo) (s : State), s.linkDown k = true → 4 ≤ k.val → exec (.linkRetrain k false) s = .next
    ((({ s with links := (Tab.erase s.links (k.val * 2)).filter (fun e => e.1 != k.val * 2 + 1) } : State).modDie (k.val - 4)
      (fun x => { x with cut := true })).leaveService (k.val - 4) 3 1)) ∧
  (∀ (d : Die) (cause st : Nat) (s : State), cause < 8 → st < 8 →
    (s.dieState d ≠ 0 → s.leaveService d cause st = s) ∧
    (s.inService d = true → s.qps = [] → (∀ k, (s.job k).binding = none) → ∀ t, s.leaveService d cause st = t →
      t.dieState d = st ∧ t.fld 0 HUB_DIE_STATE_CAUSE d = cause ∧ bitN (t.fld 0 HUB_STATUS_DIES) d = false ∧
      (∀ e, e < 4 → e ≠ d.val → t.dieState e = s.dieState e ∧ t.inService e = s.inService e) ∧
      counted s t 0 HUB_FLT_CNT_DIE_OUT_V 0 1 ∧
      (∀ x, x < d.val * 2 ^ 35 ∨ d.val * 2 ^ 35 + 32000000000 ≤ x → t.larder.read1 x = s.larder.read1 x) ∧
      t.host = s.host ∧ t.attic = s.attic)) ∧
  (∀ (d : Die) (s : State),
    (s.dieState d ≠ 2 → s.dieState d ≠ 5 → exec (.dieSelfTest d) s = .next s) ∧
    (s.dieState d = 2 ∨ s.dieState d = 5 → (s.die d).testing = false → (s.die d).marches = [] → s.power.main = true →
      ∃ t, exec (.dieSelfTest d) s = .next t ∧ (t.die d).testing = true ∧ t.dieState d = 2 ∧
        t.fld (dieAt d) DIE_MARCH_STAT_MODE = 1 ∧
        (∀ k, k < 816 → t.fld (bankAt (d.val * 816 + k)) BANK_OWN_OWNER = 0 ∧
          if 800 ≤ k ∨ (s.logicalOf d (k / 8)).isSome then t.bit (bankAt (d.val * 816 + k)) BANK_STAT_READY = true
          else t.bankPwr (d.val * 816 + k) = 2) ∧
        (∀ x, x < 524288000 → t.shelf.read1 (shelfKey d 0 0 + x) = 0 ∧ t.shelf.poisoned (shelfKey d 0 0 + x) = false) ∧
        (∀ x, x < 2 ^ 26 → t.store.read1 (storeKey d 0 + x) = 0) ∧
        (∀ x, x < shelfKey d 0 0 ∨ shelfKey d 0 0 + 524288000 ≤ x → t.shelf.read1 x = s.shelf.read1 x) ∧
        t.host = s.host ∧ t.larder = s.larder ∧ t.attic = s.attic ∧ t.qps = s.qps ∧ t.jobs = s.jobs)) ∧
  (∀ (d : Die) (ok : Bool) (s : State), ((s.die d).testing = false → exec (.dieSelfTestDone d ok) s = .next s) ∧
    ((s.die d).testing = true → ∃ t, exec (.dieSelfTestDone d ok) s = .next t ∧
      (t.die d).testing = false ∧ t.dieState d = (if ok then 3 else 4) ∧ t.fld (dieAt d) DIE_MARCH_STAT_MODE = 0 ∧
      sameMemories s t ∧ t.qps = s.qps ∧ t.jobs = s.jobs ∧ ∀ e, e < 4 → e ≠ d.val → t.dieState e = s.dieState e))

/-- A watched core whose heartbeat is lost is FAILED for cause 2 and its fill waits (R410, R414); a toggle that is there at the
edge counts as late; the spare under fill that loses its heartbeat fails, and the fill starts again (R423). A core that meets a
condition of R411 retires for that cause, its fill ready once it has no instruction in flight (R412); a core that fails the
self-test is replaced by a map change (R437). The fill, no access pending in the failed core's banks, copies every byte to the
spare, which the check then passes; a failed core that stops giving data leaves the granules not copied poisoned (R416 to R418).
The map switch, no job standing, gives the logical place to the spare, marks the old core FAILED, and turns its banks off (R24,
R271, R421, R422). All but the lateness of a heartbeat stand for dies whose spares suffice. -/
def Obligations.CoresAndFills : Prop :=
  (∀ (d : Die) (p : Phys) (s : State),
    (∀ arrived, s.watched d p = false → exec (.heartbeatTimeout d p arrived) s = .next s) ∧
    (s.watched d p = true → ∃ t, exec (.heartbeatTimeout d p true) s = .next t ∧ counted s t 0 HUB_FLT_CNT_LATE_V 0 1 ∧
      sameMemories s t ∧ sameWork s t ∧ sameHub s t) ∧
    (∀ l : Nat, s.watched d p = true → (s.die d).fills = [] → s.logicalOf d p = some l → (∃ q, q < 4 ∧ s.spareReady d q = true) →
      ∃ t, exec (.heartbeatTimeout d p false) s = .next t ∧ t.bit (coreAt d p) CORE_HEALTH_HB_LOST = true ∧
        t.fld (coreAt d p) CORE_HEALTH_CAUSE = 2 ∧ counted s t 0 HUB_FLT_CNT_FAILED_V 0 1 ∧
        (t.die d).fills = [{ logical := l, source := p, cause := 2 }] ∧ t.bit 0 HUB_DIE_STATE_FILL_ACTIVE d = true ∧
        t.dieState d = 0 ∧ sameMemories s t ∧ t.qps = s.qps ∧ t.nvm = s.nvm) ∧
    (∀ (f : FillSt) (q : Nat), s.watched d p = true → (s.die d).fills = [f] → f.stage ≠ 0 → f.target = p.val →
      s.spareSlot d p = some q → (∃ q', q' < 4 ∧ q' ≠ q ∧ s.spareReady d q' = true) →
      ∃ t, exec (.heartbeatTimeout d p false) s = .next t ∧ t.bit (coreAt d p) CORE_HEALTH_HB_LOST = true ∧
        t.fld (dieAt d) DIE_SPARE_Q_STATE q = 3 ∧ counted s t (dieAt d) DIE_FILL_CNT_RESTART_V 0 1 ∧
        (t.die d).fills = [{ f with stage := 0, target := 127, poisoned := 0, restarts := f.restarts + 1 }] ∧
        t.dieState d = 0 ∧ sameMemories s t ∧ t.qps = s.qps ∧ t.jobs = s.jobs)) ∧
  (∀ (d : Die) (p : Phys) (l : Nat) (s : State), s.logicalOf d p = some l →
    (∀ cause, s.inService d = true → s.fld (coreAt d p) CORE_HEALTH_STATE = 0 → (s.die d).fills = [] →
      s.retireDue d p cause = true → (∃ q, q < 4 ∧ s.spareReady d q = true) →
      ∃ t, exec (.coreRetire d p cause) s = .next t ∧ t.fld (coreAt d p) CORE_HEALTH_STATE = 2 ∧
        t.fld (coreAt d p) CORE_HEALTH_CAUSE = cause ∧ counted s t 0 HUB_FLT_CNT_RETIRED_V 0 1 ∧
        (t.die d).fills = (if s.coreBusy d l then [] else [{ logical := l, source := p, cause := cause }]) ∧ t.dieState d = 0 ∧
        sameMemories s t ∧ t.qps = s.qps ∧ t.jobs = s.jobs) ∧
    (∀ cause, cause ≠ 8 → s.inService d = true → s.fld (coreAt d p) CORE_HEALTH_STATE = 2 → (s.die d).fills = [] →
      s.coreBusy d l = false → (∃ q, q < 4 ∧ s.spareReady d q = true) → ∃ t, exec (.coreRetire d p cause) s = .next t ∧
        (t.die d).fills = [{ logical := l, source := p, cause := s.fld (coreAt d p) CORE_HEALTH_CAUSE }] ∧ t.dieState d = 0 ∧
        sameMemories s t ∧ t.qps = s.qps ∧ t.jobs = s.jobs) ∧
    (∀ q, (s.die d).testing = true → s.spareFor d p = some q → s.fld (dieAt d) DIE_SPARE_Q_PHYS q ≠ p →
      s.fld (dieAt d) DIE_SPARE_Q_PHYS q < 100 → ∃ t, exec (.coreRetire d p 8) s = .next t ∧
        t.phys d l = s.fld (dieAt d) DIE_SPARE_Q_PHYS q ∧ t.bit (dieAt d) DIE_CORE_MAP_REPLACED l = true ∧
        t.fld (dieAt d) DIE_SPARE_Q_STATE q = 2 ∧ t.fld (coreAt d p) CORE_HEALTH_STATE = 3 ∧
        t.fld (coreAt d p) CORE_HEALTH_CAUSE = 8 ∧ (∀ k, k < 8 → t.bankPwr (shelfBank d p k) = 2) ∧
        t.host = s.host ∧ t.larder = s.larder ∧ t.attic = s.attic ∧ t.store = s.store ∧ t.qps = s.qps ∧ t.jobs = s.jobs)) ∧
  (∀ (d : Die) (f : FillSt) (q p : Nat) (s : State), s.dieState d = 0 → (s.die d).fills = [f] → f.stage = 0 → f.source < 100 →
    f.logical < 96 → s.spareFor d f.source = some q → s.fld (dieAt d) DIE_SPARE_Q_PHYS q = p → p < 100 → p ≠ f.source →
    s.fillWaits d f.source = false →
    (∃ t, exec (.coreFill d true) s = .next t ∧ (∃ g, (t.die d).fills = [g] ∧ g.stage = 3 ∧ g.target = p ∧ g.logical = f.logical) ∧
      t.bit (dieAt d) DIE_CORE_MAP_FILLING f.logical = true ∧ t.fld (dieAt d) DIE_SPARE_Q_STATE q = 1 ∧
      (∀ x, x < 5242880 → t.shelf.read1 (shelfKey d p x) = t.shelf.read1 (shelfKey d f.source x)) ∧
      ((∀ b ∈ coreBanks d f.source, s.bit (bankAt b) BANK_STAT_READY = true) →
        ∀ x, x < shelfKey d p 0 ∨ shelfKey d p 0 + 5242880 ≤ x → t.shelf.read1 x = s.shelf.read1 x) ∧
      (∀ k, k < 8 → t.fld (bankAt (shelfBank d p k)) BANK_OWN_OWNER = 4) ∧
      t.host = s.host ∧ t.larder = s.larder ∧ t.attic = s.attic ∧ t.store = s.store ∧ t.qps = s.qps ∧ t.jobs = s.jobs) ∧
    (∃ t n, exec (.fillReadTimeout d false) s = .next t ∧ n < 81920 ∧
      (∃ g, (t.die d).fills = [g] ∧ g.stage = 2 ∧ g.target = p ∧ g.logical = f.logical) ∧
      (∀ x, x < n * 64 → t.shelf.read1 (shelfKey d p x) = t.shelf.read1 (shelfKey d f.source x)) ∧
      (∀ x, n * 64 ≤ x → x < 5242880 → t.shelf.poisoned (shelfKey d p x) = true) ∧
      ((∀ b ∈ coreBanks d f.source, s.bit (bankAt b) BANK_STAT_READY = true) →
        ∀ x, x < shelfKey d p 0 ∨ shelfKey d p 0 + 5242880 ≤ x → t.shelf.read1 x = s.shelf.read1 x) ∧
      t.host = s.host ∧ t.larder = s.larder ∧ t.attic = s.attic ∧ t.store = s.store ∧ t.qps = s.qps ∧ t.jobs = s.jobs) ∧
    (∃ t, exec (.fillReadTimeout d true) s = .next t ∧ counted s t 0 HUB_FLT_CNT_LATE_V 0 1 ∧ sameMemories s t ∧
      t.qps = s.qps ∧ t.jobs = s.jobs)) ∧
  (∀ (d : Die) (f : FillSt) (rest : List FillSt) (q : Nat) (s : State), s.dieState d = 0 → (s.die d).fills = f :: rest →
    f.stage = 3 → f.logical < 96 → f.source < 100 → f.target < 100 → s.spareSlot d f.target = some q →
    s.phys d f.logical = f.source → f.source ≠ f.target → s.spareSlot d f.source = none → s.jobs = [] →
    ∃ t, exec (.fillMapSwitch d) s = .next t ∧ t.phys d f.logical = f.target ∧
      t.bit (dieAt d) DIE_CORE_MAP_FILLING f.logical = false ∧ t.bit (dieAt d) DIE_CORE_MAP_REPLACED f.logical = true ∧
      t.fld (dieAt d) DIE_SPARE_Q_STATE q = 2 ∧ t.fld (coreAt d f.source) CORE_HEALTH_STATE = 3 ∧
      t.fld (coreAt d f.target) CORE_HEALTH_STATE = 0 ∧ (t.die d).fills = rest ∧ counted s t (dieAt d) DIE_FILL_CNT_DONE_V 0 1 ∧
      counted s t 0 HUB_FLT_CNT_FILLS_V 0 1 ∧ Tab.find t.nvm.replaced (d.val * 96 + f.logical) = some f.target ∧
      (∀ k, k < 8 → t.bankPwr (shelfBank d f.source k) = 2 ∧ t.bit (bankAt (shelfBank d f.source k)) BANK_STAT_READY = false ∧
        t.fld (bankAt (shelfBank d f.source k)) BANK_OWN_OWNER = 0) ∧
      (∀ x, x < shelfKey d f.source 0 ∨ shelfKey d f.source 0 + 5242880 ≤ x → t.shelf.read1 x = s.shelf.read1 x) ∧
      t.host = s.host ∧ t.larder = s.larder ∧ t.attic = s.attic ∧ t.store = s.store ∧ t.qps = s.qps)

/-! ## Security and management (R514 to R538, R551, R552) -/

/-- While FATAL is 0, NEW_NONCE draws a nonce from the generator and makes it valid (R525; what the generator gives is open, log
entry 2), and under D2 a write of SEC_HALT halts or resumes the core that it names, or every mapped core of the die, and leaves
every other core as it is; without D2 it does nothing (R523). While FATAL is 1 none of them does anything (R478). -/
def Obligations.NonceHaltResume : Prop :=
  (∀ s : State, s.bit 0 HUB_STATUS_FATAL = false → ∃ t, exec .newNonce s = .next t ∧ t.bit 0 SEC_STAT_NONCE_VALID = true ∧
    (∀ k, k < 4 → t.fld 0 SEC_NONCE_V k = (Config.freeBits (s.fresh + k)).toNat) ∧ sameMemories s t ∧ sameWork s t ∧ sameHub s t ∧
    sameRegs (fun a => a = 0x200000 ∨ (0x200010 ≤ a ∧ a < 0x200030)) s t) ∧
  (∀ s : State, s.bit 0 HUB_STATUS_FATAL = true → exec .newNonce s = .next s) ∧
  (∀ (w : Nat) (s : State), s.d2 = false ∨ s.bit 0 HUB_STATUS_FATAL = true →
    exec (.halt w) s = .next s ∧ exec (.resume w) s = .next s) ∧
  (∀ (w : Nat) (s : State), s.d2 = true → s.bit 0 HUB_STATUS_FATAL = false →
    (bitN w 11 = false → ∃ t, exec (.halt w) s = .next t ∧
      (∀ p ∈ s.haltCores w, (t.core (bitsN w 1 0) p).halted = true) ∧
      (∀ e q, (∀ p ∈ s.haltCores w, e * 100 + q ≠ bitsN w 1 0 * 100 + p) → t.core e q = s.core e q) ∧ sameMemories s t ∧
      t.qps = s.qps ∧ t.jobs = s.jobs ∧ t.dies = s.dies ∧ sameHub s t) ∧
    (bitN w 10 = false → ∃ t, exec (.resume w) s = .next t ∧
      (∀ p ∈ s.haltCores w, (t.core (bitsN w 1 0) p).halted = false) ∧
      (∀ e q, (∀ p ∈ s.haltCores w, e * 100 + q ≠ bitsN w 1 0 * 100 + p) → t.core e q = s.core e q) ∧ sameMemories s t ∧
      t.qps = s.qps ∧ t.jobs = s.jobs ∧ t.dies = s.dies ∧ sameHub s t) ∧
    (bitN w 9 = false → bitsN w 8 2 < 100 → s.haltCores w = [bitsN w 8 2]) ∧
    (bitN w 9 = true → ∀ l, l < 96 → s.bit (dieAt (bitsN w 1 0)) DIE_CORE_MAP_MAPPED l = true →
      s.phys (bitsN w 1 0) l ∈ s.haltCores w))

/-- A GO submits the message of the buffer: a free engine takes one of a listed code and is BUSY, and answers one of no listed code
at once, with a status that is open; an engine that serves a request takes one more of the BAR0 path, and answers a further one
with 0x300F (R537); without auxiliary power or with FATAL it takes none. On every path GET_STATE, NEW_NONCE, ATTEST and GET_CERT
are answered with status 0 and what Table 14-9 gives, or the status of what forbids it; a message of a wrong length is answered
0x1008 and changes nothing. Where a reply stands in the buffer, and that ATTEST carries 64 B, are the model's choice (log entry
34). -/
def Obligations.MailboxAnswers : Prop :=
  (∀ s : State, s.power.aux = false ∨ s.bit 0 HUB_STATUS_FATAL = true → exec .mboxGo s = .next s) ∧
  (∀ s : State, s.power.aux = true → s.bit 0 HUB_STATUS_FATAL = false →
    (s.mbox.queue = [] → s.mbox.buf.readN 0 2 ∈ mboxCodes → ∃ t, exec .mboxGo s = .next t ∧
      t.mbox.queue = [⟨.bar0, s.mbox.buf.readN 0 2, s.mbox.buf.readN 6 2,
        s.mbox.buf.read 16 (min (s.mbox.buf.readN 2 4) 65520)⟩] ∧ t.bit 0 SEC_MBOX_STAT_BUSY = true ∧ sameMemories s t ∧
      sameWork s t ∧ t.nvm = s.nvm ∧ t.sec = s.sec) ∧
    (s.mbox.queue = [] → s.mbox.buf.readN 0 2 ∉ mboxCodes → ∃ t, exec .mboxGo s = .next t ∧ t.mbox.queue = [] ∧
      t.bit 0 SEC_MBOX_STAT_DONE = true ∧ t.bit 0 SEC_MBOX_STAT_BUSY = false ∧ counted s t 0 SEC_CNT_MBOX_V 0 1 ∧
      sameMemories s t ∧ sameWork s t ∧ t.nvm = s.nvm ∧ t.sec = s.sec) ∧
    (∀ a, s.mbox.queue = [a] → a.path = .bar0 → a.msg ∈ mboxCodes → ∃ t, exec .mboxGo s = .next t ∧
      t.mbox.queue = [a, ⟨.bar0, s.mbox.buf.readN 0 2, s.mbox.buf.readN 6 2,
        s.mbox.buf.read 16 (min (s.mbox.buf.readN 2 4) 65520)⟩] ∧ sameMemories s t ∧ sameWork s t ∧ t.nvm = s.nvm ∧
      t.sec = s.sec) ∧
    (∀ a b, s.mbox.queue = [a, b] → a.path = .bar0 → b.path = .bar0 → a.msg ∈ mboxCodes →
      ∃ t, exec .mboxGo s = .next t ∧ t.mbox.queue = [a, b] ∧ t.bit 0 SEC_MBOX_STAT_DONE = true ∧
      t.fld 0 SEC_MBOX_STAT_STATUS = 0x300F ∧ sameMemories s t ∧ sameWork s t ∧ t.nvm = s.nvm ∧ t.sec = s.sec)) ∧
  (∀ (m : MboxMsg) (r : MboxReq) (s : State),
    (mboxTakes s m r 1 → ∃ t, exec (.getState m) s = .next t ∧
      mboxReplied t r 0 (bytesLE 4 (s.reg 0x200000).toNat ++ s.deviceIdBytes ++ padTo 8 (Config.fwVersion.take 4)) ∧
      counted s t 0 SEC_CNT_MBOX_V 0 1 ∧ sameMemories s t ∧ sameWork s t ∧ t.nvm = s.nvm ∧ t.sec = s.sec) ∧
    (mboxTakes s m r 5 → r.payload = [] → ∃ t, exec (.mboxNewNonce m) s = .next t ∧ t.bit 0 SEC_STAT_NONCE_VALID = true ∧
      mboxReplied t r 0 ((List.range 4).flatMap (fun k => bytesLE 8 (t.fld 0 SEC_NONCE_V k))) ∧ sameMemories s t ∧
      sameWork s t ∧ t.nvm = s.nvm ∧ t.sec = s.sec) ∧
    (mboxTakes s m r 3 → r.payload.length = 64 → ∃ t, exec (.mboxAttest m) s = .next t ∧
      (if leAt r.payload 34 30 ≠ 0 then mboxReplied t r 0x1002 []
       else match s.attestScope (leAt r.payload 32 1) (leAt r.payload 33 1) with
        | .error st => mboxReplied t r st []
        | .ok seed => mboxReplied t r 0 (s.evidence (r.payload.take 32) (leAt r.payload 33 1) seed)) ∧
      sameMemories s t ∧ sameWork s t ∧ t.nvm = s.nvm ∧ t.sec = s.sec) ∧
    (mboxTakes s m r 4 → r.payload.length = 2 → ∃ t, exec (.mboxGetCert m) s = .next t ∧
      (match s.attestScope (leAt r.payload 0 1) (leAt r.payload 1 1) with
        | .error st => mboxReplied t r st []
        | .ok seed => if 65520 < (s.chain (leAt r.payload 1 1) seed).length then mboxReplied t r 0x1021 []
            else mboxReplied t r 0 (s.chain (leAt r.payload 1 1) seed)) ∧ sameMemories s t ∧ sameWork s t ∧
      t.nvm = s.nvm ∧ t.sec = s.sec) ∧
    (∀ e ∈ mboxLengths, mboxTakes s m r e.1 → s.sec.d2wait = none → e.2.2 r.payload.length = false →
      ∃ t, exec (e.2.1 m) s = .next t ∧ mboxReplied t r 0x1008 [] ∧ sameMemories s t ∧ sameWork s t ∧ t.nvm = s.nvm ∧
      t.sec = s.sec))

/-- On every path: CLAIM of an unclaimed module ends a session, programs the owner's key, its digest and CLAIMED, and the module is
in FIELD; one that loses power before CLAIMED is programmed leaves the module unclaimed and the claim spoiled; on a module that is
not unclaimed, or after a spoiled claim, it is refused with 0x300C and programs nothing (R518, R519). A DEBUG_ENTER whose
token passes every check but the signature uses up the nonce; where the signature does not verify it is answered 0x3003; where it
does, a D1 session starts, and a D2 session once the cellar rests, the cellar's key and the job keys gone, or else the request
stays at the engine; DEBUG_EXIT ends a session, or is answered 0x3007 (R524 to R528). -/
def Obligations.MailboxSessions : Prop :=
  ∀ (m : MboxMsg) (r : MboxReq) (s : State),
    (mboxTakes s m r 2 → r.payload.length = 1952 → s.secState = 0 → s.bit 0 SEC_STAT_CLAIM_SPOILED = false →
      (∃ t, exec (.claim m none) s = .next t ∧ mboxReplied t r 0 [] ∧ t.secState = 1 ∧ t.nvm.claimed = true ∧ t.level = 0 ∧
        t.nvm.ownerKey = r.payload ∧ t.nvm.ownerDigest = shake256 r.payload 32 ∧ t.nvm.svnMin = s.nvm.svnMin ∧
        sameMemories s t ∧ t.qps = s.qps ∧ t.jobs = s.jobs ∧ (s.level = 0 → sameWork s t)) ∧
      (∀ dv, dv < 440 → s.nvm.claimed = false → ∃ t, exec (.claim m (some dv)) s = .next t ∧ t.power.aux = false ∧
        t.nvm.claimed = false ∧ t.nvm.spoiled = true ∧ t.nvm.returned = s.nvm.returned ∧ t.nvm.svnMin = s.nvm.svnMin)) ∧
    (∀ cut, mboxTakes s m r 2 → r.payload.length = 1952 → s.secState ≠ 0 ∨ s.bit 0 SEC_STAT_CLAIM_SPOILED = true →
      ∃ t, exec (.claim m cut) s = .next t ∧ mboxReplied t r 0x300C [] ∧ t.nvm = s.nvm ∧ t.sec = s.sec ∧ sameMemories s t ∧
        sameWork s t) ∧
    (mboxTakes s m r 6 → s.sec.d2wait = none → r.payload.length = 3456 → tokenForm r.payload 1 = true →
      leAt r.payload 72 1 = s.signer → s.tokenState 1 (leAt r.payload 7 1) = none → s.tokenBound r.payload = true →
      (s.tokenSigned r.payload = false → ∃ t, exec (.mboxDebugEnter m) s = .next t ∧ t.bit 0 SEC_STAT_NONCE_VALID = false ∧
        mboxReplied t r 0x3003 [] ∧ t.level = 0 ∧ t.nvm = s.nvm ∧ t.sec = s.sec ∧ sameMemories s t ∧ sameWork s t) ∧
      (s.tokenSigned r.payload = true → leAt r.payload 7 1 = 1 → ∃ t, exec (.mboxDebugEnter m) s = .next t ∧
        t.bit 0 SEC_STAT_NONCE_VALID = false ∧ mboxReplied t r 0 [] ∧ t.level = 1 ∧ t.fld 0 SEC_STAT_SESSION_PATH = 1 ∧
        t.nvm = s.nvm ∧ t.sec = s.sec ∧ sameMemories s t ∧ sameWork s t) ∧
      (s.tokenSigned r.payload = true → leAt r.payload 7 1 = 2 → s.pstate = 0 → s.cellarRests = true →
        ∃ t, exec (.mboxDebugEnter m) s = .next t ∧ t.bit 0 SEC_STAT_NONCE_VALID = false ∧ mboxReplied t r 0 [] ∧
        t.level = 2 ∧ t.fld 0 SEC_STAT_SESSION_PATH = 1 ∧ t.sec.ck = none ∧ (∀ k, (t.job k).jobKey = none) ∧
        t.bit 0 SEC_STAT_KEYS_ZEROISED = true ∧ t.nvm = s.nvm ∧ sameMemories s t ∧ t.qps = s.qps ∧ t.cores = s.cores) ∧
      (s.tokenSigned r.payload = true → leAt r.payload 7 1 = 2 → s.pstate = 0 → s.cellarRests = false →
        ∃ t, exec (.mboxDebugEnter m) s = .next t ∧ t.bit 0 SEC_STAT_NONCE_VALID = false ∧ t.mbox.queue = [r] ∧
        t.level = 0 ∧ t.sec.d2wait = some (.mailbox r.path r.tag) ∧ t.nvm = s.nvm ∧ sameMemories s t ∧ sameWork s t)) ∧
    (mboxTakes s m r 7 → r.payload = [] → s.level = 0 → ∃ t, exec (.mboxDebugExit m) s = .next t ∧ mboxReplied t r 0x3007 [] ∧
      t.nvm = s.nvm ∧ t.sec = s.sec ∧ sameMemories s t ∧ sameWork s t) ∧
    (mboxTakes s m r 7 → r.payload = [] → s.level ≠ 0 → ∃ t, exec (.mboxDebugExit m) s = .next t ∧ mboxReplied t r 0 [] ∧
      t.level = 0 ∧ t.fld 0 SEC_STAT_SESSION_PATH = 0 ∧ t.nvm = s.nvm ∧ sameMemories s t ∧ t.qps = s.qps ∧ t.jobs = s.jobs)

/-- On every path that the engine answers: FW_WRITE puts its image bytes into the staging area and touches nothing else; FW_VERIFY
writes the staged image to copy B, with FATAL to both copies, exactly where it verifies and its SVN is not below SVN_MIN;
FW_ACTIVATE makes copy B copy A, and with LOCK raises SVN_MIN to its SVN; its reserved bits are answered 0x1002 (R515, R538). A
write beyond the staging area is answered 0x1005 by the model's choice (log entry 34). -/
def Obligations.MailboxFirmware : Prop :=
  ∀ (m : MboxMsg) (r : MboxReq) (s : State),
    (mboxTakes s m r 0x10 → 4 ≤ r.payload.length → r.payload.length ≤ 4100 →
      leAt r.payload 0 4 + (r.payload.length - 4) ≤ 16777216 → ∃ t, exec (.fwWrite m) s = .next t ∧ mboxReplied t r 0 [] ∧
      (∀ x, t.mbox.staging.read1 x = if leAt r.payload 0 4 ≤ x ∧ x < leAt r.payload 0 4 + (r.payload.length - 4) then
        r.payload.getD (x - leAt r.payload 0 4 + 4) 0 else s.mbox.staging.read1 x) ∧ t.nvm = s.nvm ∧ t.sec = s.sec ∧
      sameMemories s t ∧ sameWork s t) ∧
    (mboxTakes s m r 0x10 → 4 ≤ r.payload.length → r.payload.length ≤ 4100 →
      16777216 < leAt r.payload 0 4 + (r.payload.length - 4) → ∃ t, exec (.fwWrite m) s = .next t ∧ mboxReplied t r 0x1005 [] ∧
      t.mbox.staging = s.mbox.staging ∧ t.nvm = s.nvm ∧ sameMemories s t ∧ sameWork s t) ∧
    (mboxTakes s m r 0x11 → r.payload = [] → ∃ t, exec (.fwVerify m) s = .next t ∧
      (if s.staged.sigOk = false ∨ s.staged.stepping ≠ 0xB0 then mboxReplied t r 0x300D [] ∧ t.nvm = s.nvm
       else if s.staged.svn < s.fld 0 SEC_STAT_SVN_MIN then mboxReplied t r 0x300E [] ∧ t.nvm = s.nvm
       else mboxReplied t r 0 [] ∧ t.nvm = { s.nvm with
         fwB := s.staged, fwA := if s.bit 0 HUB_STATUS_FATAL then s.staged else s.nvm.fwA }) ∧ t.sec = s.sec ∧
      sameMemories s t ∧ sameWork s t) ∧
    (∀ x : Byte, mboxTakes s m r 0x12 → r.payload = [x] → ∃ t, exec (.fwActivate m) s = .next t ∧
      (if 2 ≤ x.toNat then mboxReplied t r 0x1002 [] ∧ t.nvm = s.nvm
       else mboxReplied t r 0 [] ∧ t.nvm = { s.nvm with
           fwA := s.nvm.fwB, svnMin := if x = 1 then max s.nvm.svnMin s.nvm.fwB.svn else s.nvm.svnMin } ∧
         t.fld 0 SEC_STAT_SVN_MIN = t.nvm.svnMin % 64) ∧ t.sec = s.sec ∧ sameMemories s t ∧ sameWork s t)

/-- MCTP control messages on either path, and the SMBus alert response: an endpoint identifier is taken unless it is 0 or 0xFF,
and read back; the version and message type queries are answered; each over SMBus counts. While ALERT# is asserted the alert
response gives the module's address. Without auxiliary power, or with FATAL for the control messages, none is answered (R536,
R551, R552). The bytes of the replies are presumed from the transport's own specifications (log entry 35). -/
def Obligations.ManagementTransport : Prop :=
  (∀ (e : Nat) (s : State), s.power.aux = true → s.bit 0 HUB_STATUS_FATAL = false →
    (e ≠ 0 → e < 255 →
      (∃ t, exec (.setEndpointId .smbus e) s = .next t ∧ t.mbox.eidSmb = e ∧ t.mbox.eidPci = s.mbox.eidPci ∧
        t.mbox.replySmb = [0, 0, BitVec.ofNat 8 e, 0] ∧ counted s t 0 HUB_SB_CNT_SMB_V 0 1 ∧ sameMemories s t ∧ sameWork s t) ∧
      (∃ t, exec (.setEndpointId .pcie e) s = .next t ∧ t.mbox.eidPci = e ∧ t.mbox.eidSmb = s.mbox.eidSmb ∧
        t.mbox.replyPci = [0, 0, BitVec.ofNat 8 e, 0] ∧ t.regs = s.regs ∧ sameMemories s t ∧ sameWork s t)) ∧
    (e = 0 ∨ 255 ≤ e → ∀ p, ∃ t, exec (.setEndpointId p e) s = .next t ∧ t.mbox.eidSmb = s.mbox.eidSmb ∧
      t.mbox.eidPci = s.mbox.eidPci ∧ sameMemories s t ∧ sameWork s t)) ∧
  (∀ s : State, s.power.aux = true → s.bit 0 HUB_STATUS_FATAL = false →
    (∃ t, exec (.getEndpointId .smbus) s = .next t ∧ t.mbox.replySmb = [0, BitVec.ofNat 8 s.mbox.eidSmb, 0, 0] ∧
      counted s t 0 HUB_SB_CNT_SMB_V 0 1 ∧ sameMemories s t ∧ sameWork s t) ∧
    (∃ t, exec (.getEndpointId .pcie) s = .next t ∧ t.mbox.replyPci = [0, BitVec.ofNat 8 s.mbox.eidPci, 0, 0] ∧
      t.regs = s.regs ∧ sameMemories s t ∧ sameWork s t) ∧
    (∀ ty, ∃ t, exec (.getMctpVersionSupport .pcie ty) s = .next t ∧ t.mbox.replyPci =
      (if ty = 0xFF ∨ ty = 0 ∨ ty = 0x7E then
        [0, BitVec.ofNat 8 ((Config.mctpVersions ty).length / 4)] ++ Config.mctpVersions ty else [0x80]) ∧
      t.regs = s.regs ∧ sameMemories s t ∧ sameWork s t) ∧
    (∀ ty, ∃ t, exec (.getMctpVersionSupport .smbus ty) s = .next t ∧ t.mbox.replySmb =
      (if ty = 0xFF ∨ ty = 0 ∨ ty = 0x7E then
        [0, BitVec.ofNat 8 ((Config.mctpVersions ty).length / 4)] ++ Config.mctpVersions ty else [0x80]) ∧
      counted s t 0 HUB_SB_CNT_SMB_V 0 1 ∧ sameMemories s t ∧ sameWork s t) ∧
    (∃ t, exec (.getMessageTypeSupport .pcie) s = .next t ∧ t.mbox.replyPci = [0, 1, 0x7E] ∧ t.regs = s.regs ∧
      sameMemories s t ∧ sameWork s t) ∧
    (∃ t, exec (.getMessageTypeSupport .smbus) s = .next t ∧ t.mbox.replySmb = [0, 1, 0x7E] ∧
      counted s t 0 HUB_SB_CNT_SMB_V 0 1 ∧ sameMemories s t ∧ sameWork s t)) ∧
  (∀ (p : MctpPath) (n : Nat) (s : State), s.power.aux = false ∨ s.bit 0 HUB_STATUS_FATAL = true →
    exec (.setEndpointId p n) s = .next s ∧ exec (.getEndpointId p) s = .next s ∧
    exec (.getMctpVersionSupport p n) s = .next s ∧ exec (.getMessageTypeSupport p) s = .next s) ∧
  (∀ s : State,
    (s.power.aux = true → s.bit 0 HUB_SB_STAT_ALERT = true → ∃ t, exec .smbusAlertResponse s = .next t ∧
      t.mbox.replySmb = [BitVec.ofNat 8 (2 * (0x5C + s.pins.addrSel))] ∧ t.regs = s.regs ∧ sameMemories s t ∧ sameWork s t) ∧
    (s.power.aux = false ∨ s.bit 0 HUB_SB_STAT_ALERT = false → exec .smbusAlertResponse s = .next s))

/-! ## Queues of a run (R225 to R246, R289, R494) -/

/-- An instruction that may issue does so, and its queue moves past it (R225). SYNC and TBL complete at once and signal (R226).
YIELD issues into a queue with nothing in flight and waits at its yield point (R243). XFER takes a free DMA engine and stays in
flight; without one it waits. A PWR that raises its die's effective level, beyond what the die draws, stays in flight; any other
completes at once (R241, R494). RED joins the buckets of the ring unit and stays in flight. -/
def Obligations.QueuesIssue : Prop :=
  (∀ (j : Slot) (d : Die) (q : QueueNo) (c : Ctx) (pos : Nat) (i : PInstr) (s : State), issuable s j d q c pos i →
    (iOp i = 0x00 → ∃ t r, exec (.sync j d q) s = .next t ∧
      queueAt t j c.pd q (pos + 1) (c.run.queue c.pd q).fly r ∧ signalled c.run r i ∧ sameMemories s t ∧ t.cores = s.cores) ∧
    (iOp i = 0x0A → (c.run.queue c.pd q).fly = [] → ∃ t r, exec (.yield j d q) s = .next t ∧
      queueAt t j c.pd q (pos + 1) [] r ∧ (r.queue c.pd q).yielded = some (leAt i 12 2, bitN (leAt i 14 1) 0) ∧
      (bitN (leAt i 14 1) 0 = false → c.run.poisonQ = [] → r.ended = false) ∧ r.tokens = c.run.tokens ∧ sameModule s t ∧
      t.cores = s.cores) ∧
    (iOp i = 0x0A → (c.run.queue c.pd q).fly ≠ [] → c.run.poisonQ = [] → c.atYield = none →
      c.run.map.any (fun e => !bitN c.run.failed e) = true → exec (.yield j d q) s = .next s)) ∧
  (∀ (j : Slot) (d : Die) (l : Logical) (c : Ctx) (pos : Nat) (i : PInstr) (s : State), issuable s j d l c pos i →
    (iOp i = 0x03 → (∀ m ∈ c.run.members, m < 64) → ∃ t r v, exec (.tbl j d l) s = .next t ∧
      queueAt t j c.pd l (pos + 1) (c.run.queue c.pd l).fly r ∧ signalled c.run r i ∧
      Tab.find (t.core d c.phys).books (leAt i 12 1 % 8) = some v ∧ (v.length = 16 ∨ v.length = 256) ∧
      bitN (t.fld (coreAt d c.phys) CORE_CONV_STAT_SLOTS_VALID) (leAt i 12 1 % 8) = true ∧ t.larder = s.larder ∧
      t.attic = s.attic)) ∧
  (∀ (j : Slot) (d : Die) (c : Ctx) (pos : Nat) (i : PInstr) (errs : List BurstErr) (s : State), issuable s j d 96 c pos i →
    (∀ e, iOp i = 0x08 → s.freeEngine d = some e → (∀ x ∈ (c.run.queue c.pd 96).fly, x.idx ≠ pos) →
      (s.xferEnds c i).2.place.tier ≠ 3 ∨ errs = [] → ∃ t r f, exec (.xfer j d errs) s = .next t ∧
      queueAt t j c.pd 96 (pos + 1) ((c.run.queue c.pd 96).fly ++ [f]) r ∧ f.idx = pos ∧ f.op = 8 ∧ f.arg % 8 = e ∧
      r.tokens = c.run.tokens ∧ t.bit (dieAt d) DIE_DMA_STAT_BUSY e = true ∧ t.fld (dieAt d) DIE_DMA_STAT_JOB e = j ∧
      ((s.xferEnds c i).1.place.tier < 3 → (s.xferEnds c i).2.place.tier < 3 → t.larder = s.larder ∧ t.attic = s.attic) ∧
      ((s.xferEnds c i).1.place.tier = 2 → (s.xferEnds c i).2.place.tier = 2 → sameMemories s t)) ∧
    (iOp i = 0x08 → s.freeEngine d = none → exec (.xfer j d errs) s = .next s) ∧
    (iOp i = 0x09 → ∃ t r, exec (.pwr j d) s = .next t ∧ t.levelW d = leAt i 12 2 % 2048 ∧
      (∀ e, e < 4 → e ≠ d.val → t.levelW e = s.levelW e) ∧ sameMemories s t ∧
      (if t.ramps d = true ∧ s.effW d < t.effW d ∧ t.drawW d < t.effW d then
        (∃ f, queueAt t j c.pd 96 (pos + 1) ((c.run.queue c.pd 96).fly ++ [f]) r ∧ f.idx = pos ∧ f.op = 9 ∧ f.arg = leAt i 12 2) ∧
        r.tokens = c.run.tokens
       else queueAt t j c.pd 96 (pos + 1) (c.run.queue c.pd 96).fly r ∧ signalled c.run r i)) ∧
    (iOp i = 0x04 → ∃ t r f, exec (.red j d) s = .next t ∧
      queueAt t j c.pd 96 (pos + 1) ((c.run.queue c.pd 96).fly ++ [f]) r ∧ f.idx = pos ∧ f.op = 4 ∧ f.arg = leAt i 18 2 ∧
      r.tokens = c.run.tokens ∧ ∃ x ∈ r.reds, x.die = c.pd ∧ x.bucket = leAt i 18 2 ∧ x.idx = pos))

/-- Every beater operation that may issue runs in one step (log entry 9): its queue moves past it, and the larder and the attic
change only where an operand that it writes stands there. On a core without array instructions and waiting pairs it completes and
signals at once (R309). MEASURE_FOLD folds, in order, the pairs that no earlier array instruction holds back, and no others
(R312). An instruction of a core queue whose gate is closed, or whose whole extent is ragged, completes at once without effect
and is counted (R195, R230); a poisoned fetch stops the queue, with 0x2041 for
every member (R294; whether a fetch from an area with poisoned granules meets one is open, log entry 13). -/
def Obligations.CoreInstructionsRun : Prop :=
  (∀ row ∈ vecRows, ∀ (j : Slot) (d : Die) (l : Logical) (c : Ctx) (pos : Nat) (i : PInstr) (s : State),
    issuable s j d l c pos i → iOp i = 0x02 → vecOp i = row.1 → ∃ t r, exec (row.2 j d l) s = .next t ∧
      (t.job j).run = some r ∧ (r.queue c.pd l).pos = pos + 1 ∧
      ((s.core d c.phys).mmas = [] → (s.core d c.phys).measure = [] → (∀ x ∈ (c.run.queue c.pd l).fly, x.op ≠ 2) →
        (r.queue c.pd l).fly = (c.run.queue c.pd l).fly ∧ signalled c.run r i) ∧
      (¬ vecWrites s c i 2 → t.larder = s.larder) ∧ (¬ vecWrites s c i 3 → t.attic = s.attic) ∧ t.nvm = s.nvm ∧
      t.power = s.power ∧ t.prepared = s.prepared ∧ t.attics = s.attics ∧ t.cellar = s.cellar) ∧
  (∀ (j : Slot) (d : Die) (l : Logical) (c : Ctx) (s : State), s.ctx j d l = some c → ∃ t, exec (.measureFold j d l) s = .next t ∧
    (t.core d c.phys).measure =
      (s.core d c.phys).measure.filter (fun q => !(s.core d c.phys).mayFold c.run.phase q) ∧
    (t.core d c.phys).tallies = ((s.core d c.phys).measure.filter ((s.core d c.phys).mayFold c.run.phase)).foldl
      (fun tb q => Tab.put tb q.key ((Tab.getD tb q.key {}).fold q.src q.stored)) (s.core d c.phys).tallies ∧
    sameModule s t ∧ t.dies = s.dies ∧
    ((∀ x ∈ (c.run.queue c.pd l).fly, x.op ≠ 2) → sameMemories s t ∧ t.qps = s.qps ∧ t.jobs = s.jobs)) ∧
  (∀ row ∈ queueRows, ∀ (j : Slot) (d : Die) (l : Logical) (c : Ctx) (pos : Nat) (i : PInstr) (s : State),
    s.ctx j d l = some c → c.next l = some (pos, i) → s.mayIssue c l pos i = true → row.1 i = true →
    (s.fetchPoison c = none → s.gated c i = true ∨ c.skipped i = true → ∃ t r, exec (row.2 j d l) s = .next t ∧
      queueAt t j c.pd l (pos + 1) (c.run.queue c.pd l).fly r ∧ signalled c.run r i ∧ sameMemories s t ∧ t.cores = s.cores ∧
      (if s.gated c i then counted s t (coreAt d c.phys) SEQ_CNT_GATED_V 0 1
       else counted s t (coreAt d c.phys) CORE_CNT_INSTR_SKIP_V 0 1)) ∧
    (c.run.members.Nodup → ∃ t, exec (row.2 j d l) s = .next t ∧ (s.fetchPoison c ≠ none → ∃ r,
      queueAt t j c.pd l pos (c.run.queue c.pd l).fly r ∧ c.pd * 97 + l.val ∈ r.poisonQ ∧
      (∀ m, m < c.run.members.length → (m, 0x2041) ∈ r.outcomes) ∧ r.tokens = c.run.tokens ∧ sameModule s t ∧
      t.cores = s.cores)))

/-- An element-wise operation whose operands stand in the larder, on a destination of one 32-bit element without a draw and
without loss scale: the element holds the conversion of the function of the FP32 values of its operands (R300, R301). -/
def Obligations.ElementResults : Prop :=
  ∀ row ∈ elementRows, ∀ (j : Slot) (d : Die) (l : Logical) (c : Ctx) (pos : Nat) (i : PInstr) (x : Nat) (s : State),
    issuable s j d l c pos i → iOp i = 0x02 → vecOp i = row.1 → vecDeckle i 3 = some x → (s.tile c x).place.tier = 2 →
    (s.tile c x).dk.rowsIn c.run.rtl = 1 → (s.tile c x).dk.colsIn c.run.rtl = 1 → fmtBits (s.tile c x).dk.format = 32 →
    (∀ k, k < row.2.1 → larderOperand s c i k) → bitN (vecMode i) 4 = false → bitN (vecMode i) 5 = false →
    convRound (leAt i 29 1) ≠ 2 → ∃ t, exec (row.2.2.1 j d l) s = .next t ∧
      t.larder.readN ((s.tile c x).base + ((s.tile c x).dk.elemAt 0 0).1) 4 =
        (convert (s.tile c x).dk.format (s.book d c.phys (s.tile c x).dk.cb) (convMode (leAt i 29 1)) (convRnd (leAt i 29 1) 0)
          (f32.dec (row.2.2.2 (firstValue s c i 0) (firstValue s c i 1) (firstValue s c i 2)))).code % 2 ^ 32

/-- Every pattern but NaN is the encoding of its own value, in each format of the module (R100); a sum and a product do not
depend on the order of their operands (R300). The winner of a row is its first NaN as the canonical NaN, else the first of its
greatest or least elements in the total order in which −0 stands below +0; an empty row has none (R565). -/
def Obligations.NumbersAndWinners : Prop :=
  (∀ f ∈ [f64, f32, bf16, fp16, e5m2, e4m3], (∀ w, w < 2 ^ (f.signAt + 1) → f.dec w ≠ .nan → f.enc (f.dec w) = w) ∧
    (∀ a b, f.add a b = f.add b a ∧ f.mul a b = f.mul b a)) ∧
  (∀ (g : Bool) (xs : List (Nat × Nat)), (xs = [] → winner g xs = none) ∧
    (∀ (k : Nat) (x : Nat × Nat), xs[k]? = some x → nan32 x.2 = true →
      (∀ (i : Nat) (y : Nat × Nat), i < k → xs[i]? = some y → nan32 y.2 = false) →
      winner g xs = some (x.1, f32.nanBits)) ∧
    ((∀ x ∈ xs, nan32 x.2 = false) → ∀ (k : Nat) (x : Nat × Nat), xs[k]? = some x →
      (∀ (i : Nat) (y : Nat × Nat), xs[i]? = some y → (if g then order32 y.2 ≤ order32 x.2 else order32 x.2 ≤ order32 y.2) ∧
        (i < k → order32 y.2 ≠ order32 x.2)) → winner g xs = some x))

/-! ## The arrays (R58 to R97) -/

/-- The stages of an MMA. It issues into an idle core, or behind one that has begun to stream its last segment, and else
waits (R72). A swap brings the fed set to the front, what was there to the back, and sweeps the rows into their banks (R58).
The drain adds the integer of each row whose checks pass, times 2^E and the group scale, to its FP32 accumulator (R65); a row
that fails waits for a vote (R88, R90), which marks the checker or the array, or the core for retirement (R91). The specials slot,
the output drain and the recompute slot follow, and the MMA completes and signals (R70, R71, R83). -/
def Obligations.MmaPipeline : Prop :=
  (∀ (j : Slot) (d : Die) (l : Logical) (c : Ctx) (pos : Nat) (i : PInstr) (s : State), issuable s j d l c pos i →
    iOp i = 0x01 →
    (∀ fs, (s.core d c.phys).mmas = fs →
      (fs = [] ∨ ∃ f, fs = [f] ∧ (f.sweeps (s.streams c (c.ins c.pd l f.idx) f.denied) = false ∨
        (segLoads (s.streams c (c.ins c.pd l f.idx) f.denied) (f.seg + 1) = 0 ∧ 0 < f.swaps))) →
      ∃ t r x g, exec (.mma j d l) s = .next t ∧
        queueAt t j c.pd l (pos + 1) ((c.run.queue c.pd l).fly ++ [x]) r ∧ x.idx = pos ∧ x.op = 1 ∧ r.tokens = c.run.tokens ∧
        (t.core d c.phys).mmas = fs ++ [g] ∧ g.lead = j.val ∧ g.idx = pos ∧ g.stage = 0 ∧ g.acc = [] ∧ g.pend = [] ∧
        t.larder = s.larder ∧ t.attic = s.attic) ∧
    (∀ f, (s.core d c.phys).mmas = [f] → f.sweeps (s.streams c (c.ins c.pd l f.idx) f.denied) = true →
      (segLoads (s.streams c (c.ins c.pd l f.idx) f.denied) (f.seg + 1) ≠ 0 ∨ f.swaps = 0) →
      exec (.mma j d l) s = .next s) ∧
    (2 ≤ (s.core d c.phys).mmas.length → exec (.mma j d l) s = .next s)) ∧
  (∀ (j : Slot) (d : Die) (l : Logical) (c : Ctx) (place : Nat) (f : MmaFly) (ts : List Strm) (errs : List Parity) (s : State),
    s.sweeper j d l = some (c, place, f, ts) → f.sweeps ts = true → (f.swaps % sliceCount ts ≠ 0 ∨ f.pend = []) →
    (f.swaps ≠ 0 ∨ ∀ y ∈ arrsOf ts, Tab.find (s.core d c.phys).banks (y * 2 + f.seg % 2) = none) →
    ∃ t g img, exec (.weightBufferSwap j d l errs) s = .next t ∧ (t.core d c.phys).mmas = listSet (s.core d c.phys).mmas place g ∧
      (if segLoads ts f.seg ≤ f.swaps + 1 then g.seg = f.seg + 1 ∧ g.swaps = 0 else g.seg = f.seg ∧ g.swaps = f.swaps + 1) ∧
      g.acc = f.acc ∧ g.stage = f.stage ∧ g.pend = f.pend ∧ g.drained = f.drained ∧
      img = feedImage ts f.seg (f.swaps / sliceCount ts) (f.swaps % sliceCount ts) ∧
      (t.core d c.phys).front = img ++ (s.core d c.phys).back.drop img.length ∧
      (t.core d c.phys).back = (s.core d c.phys).front ∧
      (f.swaps ≠ 0 → ∀ y ∈ arrsOf ts, Tab.find (t.core d c.phys).banks (y * 2 + f.seg % 2) =
        some (sweepBank ts (t.core d c.phys).front f.seg (f.swaps / sliceCount ts) (f.swaps % sliceCount ts) y
          (Tab.getD (s.core d c.phys).banks (y * 2 + f.seg % 2) []))) ∧
      sameMemories s t ∧ t.qps = s.qps ∧ t.jobs = s.jobs) ∧
  (∀ (j : Slot) (d : Die) (l : Logical) (c : Ctx) (f : MmaFly) (i : PInstr) (s : State), s.mmaOf j d l = some (c, f, i) →
    (f.stage = 0 → f.pend = [] →
      (f.drained < f.seg ∨ segLoads (s.streams c i f.denied) f.drained = 0) →
      ((s.core d c.phys).armed = [] →
        (∀ x ∈ s.streams c i f.denied, ∀ r, r < x.act.dk.shapeR → f.exempt x f.drained r = false →
          x.failing ((Tab.getD (s.core d c.phys).banks (x.arr * 2 + f.drained % 2) []).getD r ⟨[], []⟩) = none) →
        ∃ t h, exec (.segmentDrain j d l []) s = .next t ∧ (t.core d c.phys).mmas = h :: (s.core d c.phys).mmas.drop 1 ∧
          h.pend = [] ∧ h.votes = f.votes ∧ h.drained = f.drained + 1 ∧
          h.stage = (if segCount (s.streams c i f.denied) ≤ f.drained + 1 then 1 else 0) ∧
          (∀ x ∈ s.streams c i f.denied, x.act.dk.shapeR ≤ 64 → x.wgt.dk.shapeC ≤ 128 → 0 < x.swept f.drained →
            (∀ y ∈ s.streams c i f.denied, y.act.dk.shapeR ≤ 64 ∧ y.wgt.dk.shapeC ≤ 128) →
            ∀ m n, m < x.act.dk.shapeR → n < x.wgt.dk.shapeC → f.sticky.contains ((x.pos * 64 + m) * 128 + n) = false →
            Tab.getD h.acc ((x.pos * 64 + m) * 128 + n) 0 = f32.add (Tab.getD f.acc ((x.pos * 64 + m) * 128 + n) 0)
              (x.addend ((Tab.getD (s.core d c.phys).banks (x.arr * 2 + f.drained % 2) []).getD m ⟨[], []⟩)
                ((Tab.getD f.exps (f.drained * 16 + x.pos) ([], [])).1.getD m 0
                  + (Tab.getD f.exps (f.drained * 16 + x.pos) ([], [])).2.getD n 0) f.drained n).1) ∧
          sameMemories s t ∧ t.qps = s.qps ∧ t.jobs = s.jobs) ∧
      (∀ (ups : List Upset) x r, x ∈ s.streams c i f.denied → (∀ y ∈ s.streams c i f.denied, y.arr = x.arr → x.pos ≤ y.pos) →
        Tab.find (s.core d c.phys).armed x.arr = none → 0 < x.swept f.drained → r < x.act.dk.shapeR →
        f.exempt x f.drained r = false →
        (x.failing (x.upsets ups r
          ((Tab.getD (s.core d c.phys).banks (x.arr * 2 + f.drained % 2) []).getD r ⟨[], []⟩))).isSome = true →
        ∃ t h v, exec (.segmentDrain j d l ups) s = .next t ∧ (t.core d c.phys).mmas = h :: (s.core d c.phys).mmas.drop 1 ∧
          v ∈ h.pend ∧ v.arr = x.arr ∧ v.quad = x.quad ∧ r ∈ v.rows ∧ v.seg = f.drained ∧ v.inj = false ∧
          sameMemories s t ∧ t.qps = s.qps ∧ t.jobs = s.jobs)) ∧
    (∀ w x y o (ups : List Upset), f.pend = [w] → (f.stage ≠ 1 ∨ (s.streams c i f.denied).any Strm.isFloat = false) →
      w.inj = false → (s.streams c i f.denied).find? (fun t => t.arr == w.arr && t.quad == w.quad) = some x →
      s.sibling c f (s.streams c i f.denied) w.arr = some y → c.memberSlot w.arr < 64 →
      o = w.rows.foldl (fun m r => max m (x.verdict
        ((Tab.getD (s.core d c.phys).banks (w.arr * 2 + w.seg % 2) []).getD r ⟨[], []⟩)
        (x.replay (s.streams c i f.denied) w.seg r ups))) 1 →
      ∃ t h, exec (.residueVote j d l ups) s = .next t ∧ (t.core d c.phys).mmas = h :: (s.core d c.phys).mmas.drop 1 ∧
        h.pend = [] ∧ h.votes = f.votes ++ [{ w with outcome := o }] ∧
        (o = 1 → t.bit (arrAt d c.phys w.arr) ARR_STAT_CHK_SUSPECT = true) ∧
        (o = 2 → t.bit (arrAt d c.phys w.arr) ARR_STAT_ARR_SUSPECT = true) ∧
        (o = 3 → (t.core d c.phys).retiring = true ∧ x.pos ∈ h.bad) ∧ sameModule s t) ∧
    (∀ errs : List Parity, f.stage = 1 → ∃ t h, exec (.specialsPass j d l errs) s = .next t ∧
      (t.core d c.phys).mmas = h :: (s.core d c.phys).mmas.drop 1 ∧ h.stage = 2 ∧ h.acc = f.acc ∧ h.pend = f.pend ∧
      h.votes = f.votes ∧ sameMemories s t ∧ t.qps = s.qps ∧ t.jobs = s.jobs) ∧
    ((f.stage = 2 ∨ (f.stage = 1 ∧ (s.streams c i f.denied).any Strm.isFloat = false)) → f.pend = [] →
      ∃ t h, exec (.outputDrain j d l) s = .next t ∧ (t.core d c.phys).mmas = h :: (s.core d c.phys).mmas.drop 1 ∧
        h.stage = 3 ∧ h.acc = f.acc ∧ h.votes = f.votes ∧
        ((∀ x ∈ s.streams c i f.denied, x.out.place.tier ≤ 1) → t.larder = s.larder ∧ t.attic = s.attic)) ∧
    (f.stage = 3 → ∃ t r, exec (.recomputeSlot j d l) s = .next t ∧ (t.core d c.phys).mmas = (s.core d c.phys).mmas.drop 1 ∧
      queueAt t j c.pd l (c.run.queue c.pd l).pos ((c.run.queue c.pd l).fly.filter (fun x => x.idx != f.idx)) r ∧
      signalled c.run r i))

/-! ## The ring and the transfers (R226, R289, R340 to R359) -/

/-- A chunk that arrives sound is accepted: its receiver counts it, its sender's is acknowledged, and in the reduction it is
added to the local record (R346, R351); a damaged one is sent again, three times at most (R342). Credits reach a member that lacks
them (R346). A RED whose records are written and whose chunks are acknowledged completes (R346). A wait ends with 0x2043 for every
member once it has lasted RING_CTRL.TIMEOUT_US, not before, and not while the job is evicted (R359). -/
def Obligations.RingExchange : Prop :=
  ∀ (j : Slot) (d : Die) (c : Ctx) (s : State), s.ctx j d 96 = some c →
    (∀ (bad : Bool) ch r h, c.run.chunks.find? (fun x => x.dest == c.pd) = some ch → c.run.red c.pd ch.bucket = some r →
      r.timedOut = false → (r.recvs c.run.n)[r.recvd]? = some h →
      s.pathUp (c.run.map.getD ((c.pd + c.run.n - 1) % c.run.n) 0) d = true → (c.pd + c.run.n - 1) % c.run.n ≠ c.pd →
      (wireBad bad r.comp j ch.bucket h ch.wire = false → ∃ t r' x, exec (.ringChunkReceive j d bad) s = .next t ∧
        (t.job j).run = some r' ∧ r'.red c.pd ch.bucket = some x ∧ x.recvd = r.recvd + 1 ∧ x.resends = 0 ∧
        (∀ y, c.run.red ((c.pd + c.run.n - 1) % c.run.n) ch.bucket = some y →
          ∃ y', r'.red ((c.pd + c.run.n - 1) % c.run.n) ch.bucket = some y' ∧ y'.acked = y.acked + 1) ∧
        (r.comp = false → h.gather = false → Tab.find x.acc h.chunk = some (h.step + 2 == c.run.n,
          ringAdd ⟨leAt ch.wire 0 1, wireFlags ch.wire, wireElems ch.wire⟩ (s.localRec c r h.chunk)))) ∧
      (wireBad bad r.comp j ch.bucket h ch.wire = true → r.resends < 3 → ∃ t r' x,
        exec (.ringChunkReceive j d bad) s = .next t ∧ (t.job j).run = some r' ∧ r'.chunks = c.run.chunks ∧
        r'.red c.pd ch.bucket = some x ∧ x.recvd = r.recvd ∧ x.resends = r.resends + 1 ∧
        counted s t (dieAt (c.run.map.getD ((c.pd + c.run.n - 1) % c.run.n) 0)) RING_CNT_RESEND_V 0 1 ∧ sameMemories s t)) ∧
    (∀ r, c.run.reds.find? (fun r => r.die == c.pd && !r.credit && !r.timedOut
        && (c.run.red ((c.pd + 1) % c.run.n) r.bucket).isSome) = some r → c.run.n ≠ 1 →
      s.pathUp (c.run.map.getD ((c.pd + 1) % c.run.n) 0) d = true → ∃ t r' x, exec (.ringCreditGrant j d) s = .next t ∧
      (t.job j).run = some r' ∧ r'.red c.pd r.bucket = some x ∧ x.credit = true ∧ sameMemories s t) ∧
    (∀ r, c.run.reds = [r] → r.die = c.pd → (r.recvs c.run.n).length ≤ r.recvd → (r.sends c.run.n).length ≤ r.acked →
      (∀ k, k < r.chunks → ∃ v, Tab.find r.acc k = some (true, v)) → (∀ m ∈ c.run.members, m < 64) →
      ∃ t r', exec (.redComplete j d) s = .next t ∧
      queueAt t j c.pd 96 (c.run.queue c.pd 96).pos ((c.run.queue c.pd 96).fly.filter (fun x => x.idx != r.idx)) r' ∧
      r'.reds = [] ∧ signalled c.run r' (c.ins c.pd 96 r.idx) ∧ counted s t (dieAt d) RING_CNT_BUCKETS_V 0 1 ∧ sameModule s t) ∧
    (∀ bucket r p, c.run.red c.pd bucket = some r → r.peer c.run.n = some p →
      (c.run.spilled = false → r.since + s.ringLimit d ≤ s.ts → ∃ t r' x,
        exec (.ringTimeout j d bucket) s = .next t ∧ (t.job j).run = some r' ∧ r'.red c.pd bucket = some x ∧ x.timedOut = true ∧
        (∀ m, m < c.run.members.length → (m, 0x2043) ∈ r'.outcomes) ∧ t.bit (dieAt d) RING_ERR_TIMEOUT = true) ∧
      (c.run.spilled = true ∨ s.ts < r.since + s.ringLimit d → exec (.ringTimeout j d bucket) s = .next s))

/-- A transfer within a die's larder, of rows in one pitch, for which no access was denied and no bank noted a collision, has moved
every byte of its source to its destination when it completes, and no other byte of the module's memories; where its bursts met no
errors and it moves whole granules, their poison with them. Its engine is free again, it leaves flight and signals (R226, R289,
R290). An attic transfer does not complete while a request of it is open. -/
def Obligations.TransfersComplete : Prop :=
  ∀ (j : Slot) (d : Die) (c : Ctx) (idx : Nat) (f : Fly) (errs : List BurstErr) (s : State), s.ctx j d 96 = some c →
    (c.run.queue c.pd 96).fly.find? (fun x => x.idx == idx && x.op == 0x08) = some f →
    (s.attics.any (fun q => q.cmd.isNone && q.slot == j.val && q.pd == c.pd && q.idx == idx) = true →
      exec (.xferComplete j d idx errs) s = .next s) ∧
    (∀ src dst, s.attics.any (fun q => q.cmd.isNone && q.slot == j.val && q.pd == c.pd && q.idx == idx) = false → f.arg < 8 →
      f.noRd = [] → f.noWr = [] → f.undef = [] → f.drop = [] → s.xferEnds c (c.ins c.pd 96 idx) = (src, dst) →
      src.place.tier = 2 → dst.place.tier = 2 → dst.place.die = d → src.dk.pitch = dst.dk.pitch →
      src.place.len = dst.place.len → (∀ la, BurstErr.exhausted la ∉ errs) → (∀ m ∈ c.run.members, m < 64) →
      ∃ t r, exec (.xferComplete j d idx errs) s = .next t ∧
        (∀ x, t.larder.read1 x = if dst.place.addr ≤ x ∧ x < dst.place.addr + dst.place.len then
          s.larder.read1 (src.place.addr + (x - dst.place.addr)) else s.larder.read1 x) ∧
        (errs = [] → src.place.addr % 64 = 0 → dst.place.addr % 64 = 0 → src.place.len % 64 = 0 →
          ∀ x, x < src.place.len → t.larder.poisoned (dst.place.addr + x) = s.larder.poisoned (src.place.addr + x)) ∧
        t.attic = s.attic ∧ t.shelf = s.shelf ∧ t.store = s.store ∧
        t.bit (dieAt d) DIE_DMA_STAT_BUSY f.arg = false ∧
        queueAt t j c.pd 96 (c.run.queue c.pd 96).pos ((c.run.queue c.pd 96).fly.filter (fun x => x.idx != idx)) r ∧
        signalled c.run r (c.ins c.pd 96 idx))

/-! ## Barriers, yields and the step boundary (R228, R243 to R249, R361 to R365, R433 to R436) -/

/-- A yield point is passed, and every queue goes on, unless the hub decides to evict (R245). An evicted job, or one whose run has
ended while a conflicting job is ready, gives up its footprint; one that the hub picks comes back, and goes on from its yield point
unless its run has ended (R245 to R247). A barrier starts the next phase with its tokens at zero (R228). -/
def Obligations.YieldsAndSlices : Prop :=
  ∀ (j : Slot) (c : Ctx) (s : State), s.ringCtx j 0 = some c →
    (∀ y, c.atYield = some (y, false) → c.run.ended = false → c.run.stopping = false → c.run.spilled = false →
      c.run.evict = false → ∃ t r, exec (.yieldPoint j) s = .next t ∧ (t.job j).run = some r ∧ sameMemories s t ∧ t.qps = s.qps ∧
      (if s.mayEvict j then r = { c.run with evict := true }
       else r.evict = false ∧ ∀ k, (Tab.getD r.queues k {}).yielded = none)) ∧
    (c.run.ended = false → c.run.stopping = false → c.run.spilled = false → c.run.evict = false → c.run.posted = false →
      s.entryWaits c.run = false → s.runFrozen c.run = false → c.run.phase < planPhases c.pl → c.phaseOver = true →
      ∃ t, exec (.phaseBarrier j) s = .next t ∧
      (t.job j).run = some { c.run with phase := c.run.phase + 1, queues := [], tokens := [], noted := [] } ∧ sameMemories s t ∧
      t.qps = s.qps) ∧
    (∀ errs : List BurstErr, (∀ la, BurstErr.exhausted la ∉ errs) → s.pstate = 0 → s.enginesFree c = true →
      (c.run.evict = true ∨ (c.run.posted = true ∧ c.run.parked = true ∧ c.run.spilled = false ∧ s.mayEvict j = true)) →
      s.fillsIn (s.runPrint j ++ (s.waiters.filter (fun w => w.1 != j.val)).flatMap Prod.snd) = false →
      ∃ t r, exec (.jobSpill j errs) s = .next t ∧ (t.job j).run = some r ∧ r.spilled = true ∧ r.evict = false ∧
      r.queues = c.run.queues ∧ r.tokens = c.run.tokens ∧ counted s t 0 HUB_SLICE_CNT_HANDOVERS_V 0 1 ∧
      t.fld 0 HUB_SLICE_STAT_LAST_OUT = j ∧ t.host = s.host ∧ t.attic = s.attic ∧ t.qps = s.qps) ∧
    (∀ errs : List BurstErr, (∀ la, BurstErr.exhausted la ∉ errs) → s.pstate = 0 → s.enginesFree c = true →
      c.run.spilled = true → s.printFree j (s.runPrint j) = true → s.picked j (s.runPrint j) = true →
      s.fillsIn (s.runPrint j) = false → (c.run.posted = false ∨ (s.groupOf j).isSome = true) →
      ∃ t r, exec (.jobResume j errs) s = .next t ∧ (t.job j).run = some r ∧ r.spilled = false ∧ r.saved = [] ∧
      r.startTs = s.ts ∧ (c.run.posted = false → ∀ k, (Tab.getD r.queues k {}).yielded = none) ∧
      t.fld 0 HUB_SLICE_STAT_LAST_IN = j ∧ t.host = s.host ∧ t.attic = s.attic ∧
      (∀ x, t.larder.read1 x = s.larder.read1 x) ∧ t.qps = s.qps)

/-- The comparison of watermarks: where some digest has more than half of them, the dies with another disagree; where none has,
nothing is resolved (R365). Agreement disarms and, of two dies or more, is recorded. The steward runs for the job whose boundary
arrived first, for no other (R154); it consumes the partial tallies, and a policy that waited for this boundary is in force (R147,
R174). A rollback restores the newest agreement snapshot that can be restored, or the job is held, and the step's tallies are
dropped (R149, R433, R436). The boundary then posts every member's completion (R245). -/
def Obligations.BoundaryWork : Prop :=
  (∀ (ps : List (Nat × List Byte)),
    ((∀ p ∈ ps, ∀ q ∈ ps, p.2 = q.2) → wmCompare ps = (1, 0)) ∧
    (∀ m ∈ ps, (∃ p ∈ ps, p.2 ≠ m.2) → ps.length < 2 * (ps.filter (fun p => p.2 == m.2)).length →
      (wmCompare ps).1 = 2 ∧ ∀ d, bitN (wmCompare ps).2 d = true ↔ ∃ p ∈ ps, p.1 = d ∧ p.2 ≠ m.2) ∧
    (ps ≠ [] → (∀ m ∈ ps, 2 * (ps.filter (fun p => p.2 == m.2)).length ≤ ps.length) → (wmCompare ps).1 = 3)) ∧
  (∀ (j : Slot) (r : Run) (w : List Byte) (s : State), (s.job j).run = some r → r.ended = true → r.posted = false →
    s.wmPending j r = true →
    (∀ d ∈ (maskBits 4 (s.jobSet j)).filter (fun d => r.map.contains d && !bitN r.failed d),
      ∃ c, s.ctx j d 96 = some c ∧ s.watermarkOf c = (w, false)) →
    ∃ t, exec (.watermark j) s = .next t ∧ t.fld 0 HUB_WM_STAT_OUTCOME j = 1 ∧ t.bit 0 HUB_FLT_JOB_UNRES_ARMED j = false ∧
      (t.job j).wmDue = false ∧ (t.job j).run = some { r with wmDone := true } ∧
      (t.job j).agreed = (if 2 ≤ ((maskBits 4 (s.jobSet j)).filter (fun d => r.map.contains d && !bitN r.failed d)).length then
        some r.step else (s.job j).agreed) ∧ sameModule s t) ∧
  (∀ (j : Slot) (s : State), s.stewardDue.head?.map Prod.snd ≠ some j.val → exec (.stewardRun j) s = .next s) ∧
  (∀ (j : Slot) (r : Run) (b : Binding) (s : State), (s.job j).run = some r → (s.job j).binding = some b →
    s.stewardDue.head?.map Prod.snd = some j.val → (∀ m ∈ r.members, m < 64) →
    ∃ t r', exec (.stewardRun j) s = .next t ∧ (t.job j).run = some r' ∧ r'.stewDone = true ∧
      (∀ m ∈ r.members,
        ((s.job m).policyRipe = true → (t.job m).policyNew = none ∧ (t.job m).policyRipe = false ∧
          ∀ p, (s.job m).policyNew = some p → (t.job m).policy = some p) ∧
        ((s.job m).policyRipe = false → (t.job m).policy = (s.job m).policy ∧ (t.job m).policyNew = (s.job m).policyNew ∧
          (t.job m).policyRipe = (s.job m).policyNew.isSome)) ∧
      (∀ d p k, k / 65536 = j → Tab.find (t.core d p).tallies k = none) ∧
      (Tab.sorted s.cores = true → (∀ d p, (s.core d p).measure = []) → ∀ d p k, k / 65536 ≠ j →
        Tab.find (t.core d p).tallies k = Tab.find (s.core d p).tallies k) ∧
      counted s t 0 HUB_STW_CNT_RUNS_V 0 r.members.length ∧ t.attic = s.attic ∧ t.shelf = s.shelf ∧ t.store = s.store) ∧
  (∀ (j : Slot) (r : Run) (plan : List Byte) (s : State), (s.job j).run = some r → s.planId j = some plan → r.posted = false →
    s.bit 0 HUB_FLT_JOB_ROLLING j = true → (∀ m ∈ r.members, m < 64) →
    ∃ t r', exec (.rollback j) s = .next t ∧ (t.job j).run = some r' ∧ r'.rolled = true ∧ r'.stewDone = true ∧
      t.bit 0 HUB_FLT_JOB_ROLLING j = false ∧ (∀ d p k, k / 65536 = j → Tab.find (t.core d p).tallies k = none) ∧
      (match (s.rollbackRestore j (maskBits 4 (s.jobSet j)) (s.cellar.agreements j plan)).2 with
       | some x => x ∈ s.cellar.agreements j plan ∧ (t.job j).step = x.dataPos ∧ (t.job j).policy = x.job.policy ∧
           (t.job j).ls = x.job.ls ∧ (t.job j).agreed = x.wmStep ∧ t.bit 0 HUB_FLT_JOB_HOLD j = false ∧
           counted s t 0 HUB_FLT_CNT_ROLLBACKS_V 0 1
       | none => t.bit 0 HUB_FLT_JOB_HOLD j = true ∧ t.fld 0 HUB_FLT_JOB_HOLD_CAUSE j = 0x0103)) ∧
  (∀ (j : Slot) (r : Run) (b : Binding) (c : Ctx) (s : State), (s.job j).run = some r → (s.job j).binding = some b →
    s.ringCtx j 0 = some c → r.ended = true → r.posted = false → s.wmPending j r = false →
    s.bit 0 HUB_FLT_JOB_ROLLING j = false → r.stewDone = true →
    (∀ m ∈ r.members, ∀ cap, (s.job m).capture = some cap → cap.entry = true ∨ cap.waits = false ∨
      (cap.snap.isSome = true ∧ cap.frozen = false)) →
    (r.rolled = true ∨ ∀ x ∈ r.members.zip r.seqs, s.boundaryTake x.1 x.2 = none) →
    ∃ t r' x, exec (.stepBoundary j) s = .next t ∧ (t.job j).run = some r' ∧ r'.posted = true ∧ r'.parked = true ∧
      (∀ m ∈ r.members.zip r.seqs, t.cmd m.1 m.2 = none) ∧ (t.job j).digests = (x :: (s.job j).digests).take 16 ∧
      x.step = r.step ∧ sameModule s t)
end

