-- ==== Sys2Proof/Laws/Mem.lean ====
section
/-!
SUPPORT. Laws of byte memories: every memory operation keeps the canonical form, and a byte reads what was written there.
-/
namespace Sys2Proof.Laws

open Sys2Proof.Machine

/-! ## Rising lists -/

theorem rising_cons {a : Nat} {l : List Nat} : rising (a :: l) = true ↔ (∀ x ∈ l, a < x) ∧ rising l = true := by
  induction l generalizing a with
  | nil => simp [rising]
  | cons b l ih =>
    simp only [rising, Bool.and_eq_true, decide_eq_true_eq, List.mem_cons, forall_eq_or_imp]
    constructor
    · rintro ⟨h, hs⟩
      exact ⟨⟨h, fun x hx => Nat.lt_trans h ((ih.mp hs).1 x hx)⟩, hs⟩
    · rintro ⟨⟨h, _⟩, hs⟩
      exact ⟨h, hs⟩

theorem rising_append {l m : List Nat} :
    rising (l ++ m) = true ↔ rising l = true ∧ rising m = true ∧ ∀ x ∈ l, ∀ y ∈ m, x < y := by
  induction l with
  | nil => simp [rising]
  | cons a l ih =>
    rw [List.cons_append, rising_cons, rising_cons, ih]
    constructor
    · rintro ⟨h, hl, hm, hx⟩
      refine ⟨⟨fun x hx => h x (List.mem_append_left _ hx), hl⟩, hm, fun x hxl y hy => ?_⟩
      rcases List.mem_cons.mp hxl with rfl | hxl
      · exact h y (List.mem_append_right _ hy)
      · exact hx x hxl y hy
    · rintro ⟨⟨h, hl⟩, hm, hx⟩
      refine ⟨fun x hxl => ?_, hl, hm, fun x hxl y hy => hx x (List.mem_cons_of_mem _ hxl) y hy⟩
      rcases List.mem_append.mp hxl with hxl | hxl
      · exact h x hxl
      · exact hx a List.mem_cons_self x hxl

theorem rising_filter {l : List Nat} (p : Nat → Bool) (h : rising l = true) : rising (l.filter p) = true := by
  induction l with
  | nil => rfl
  | cons a l ih =>
    have hc := rising_cons.mp h
    simp only [List.filter_cons]
    split
    · exact rising_cons.mpr ⟨fun x hx => hc.1 x (List.mem_filter.mp hx).1, ih hc.2⟩
    · exact ih hc.2

theorem rising_map {l : List Nat} {f : Nat → Nat} (hf : ∀ x ∈ l, ∀ y ∈ l, x < y → f x < f y) (h : rising l = true) :
    rising (l.map f) = true := by
  induction l with
  | nil => rfl
  | cons a l ih =>
    have hc := rising_cons.mp h
    refine rising_cons.mpr ⟨fun y hy => ?_, ih (fun x hx y hy => hf x (List.mem_cons_of_mem _ hx) y (List.mem_cons_of_mem _ hy)) hc.2⟩
    obtain ⟨x, hx, rfl⟩ := List.mem_map.mp hy
    exact hf a List.mem_cons_self x (List.mem_cons_of_mem _ hx) (hc.1 x hx)

theorem rising_range (a n : Nat) : rising ((List.range n).map (fun i => a + i)) = true := by
  refine rising_map (fun x _ y _ h => by omega) ?_
  induction n with
  | zero => rfl
  | succ n ih =>
    rw [List.range_succ, rising_append]
    exact ⟨ih, rfl, fun x hx y hy => by simp at hx hy; omega⟩

/-- Replacing a range of a rising list by rising numbers of that range keeps it rising. -/
theorem rising_splice {l new : List Nat} {a b : Nat} (hab : a ≤ b) (h : rising l = true) (hn : rising new = true)
    (hin : ∀ x ∈ new, a ≤ x ∧ x < b) :
    rising (l.filter (fun x => decide (x < a)) ++ new ++ l.filter (fun x => decide (b ≤ x))) = true := by
  rw [List.append_assoc, rising_append, rising_append]
  refine ⟨rising_filter _ h, ⟨hn, rising_filter _ h, fun x hx y hy => ?_⟩, fun x hx y hy => ?_⟩
  · have := (hin x hx).2
    simp at hy
    omega
  · simp at hx
    rcases List.mem_append.mp hy with hy | hy
    · have := (hin y hy).1
      omega
    · simp at hy
      omega

/-! ## Cells -/

/-- The form of a list of cells. -/
def cellsWf (cs : List Host.Cell) : Prop := rising (cs.map Prod.fst) = true ∧ ∀ c ∈ cs, c.2 ≠ Mem.blank

theorem wf_iff (m : Mem) : m.wf = true ↔ cellsWf m.cells ∧ rising m.poison = true := by
  simp [Mem.wf, cellsWf, List.all_eq_true]

theorem map_fst_filter (cs : List Host.Cell) (p : Nat → Bool) :
    (cs.filter (fun c => p c.1)).map Prod.fst = (cs.map Prod.fst).filter p := by
  induction cs with
  | nil => rfl
  | cons c cs ih =>
    by_cases h : p c.1
    · simp only [List.filter_cons, h, if_true, List.map_cons, ih]
    · simp only [List.filter_cons, h, List.map_cons, ih, Bool.false_eq_true, if_false]

theorem cellsWf_splice {cs new : List Host.Cell} {a n : Nat} (h : cellsWf cs) (hn : cellsWf new)
    (hin : ∀ c ∈ new, a ≤ c.1 ∧ c.1 < a + n) : cellsWf (Mem.spliceCells cs a n new) := by
  refine ⟨?_, fun c hc => ?_⟩
  · unfold Mem.spliceCells
    rw [List.map_append, List.map_append, map_fst_filter cs (fun x => decide (x < a)),
      map_fst_filter cs (fun x => decide (a + n ≤ x))]
    refine rising_splice (Nat.le_add_right a n) h.1 hn.1 (fun x hx => ?_)
    obtain ⟨c, hc, rfl⟩ := List.mem_map.mp hx
    exact hin c hc
  · unfold Mem.spliceCells at hc
    rcases List.mem_append.mp hc with hc | hc
    · rcases List.mem_append.mp hc with hc | hc
      · exact h.2 c (List.mem_filter.mp hc).1
      · exact hn.2 c hc
    · exact h.2 c (List.mem_filter.mp hc).1

theorem cellsOf_in (a : Nat) (bs : List Byte) : ∀ c ∈ Mem.cellsOf a bs, a ≤ c.1 ∧ c.1 < a + bs.length := by
  induction bs generalizing a with
  | nil => simp [Mem.cellsOf]
  | cons b bs ih =>
    intro c hc
    simp only [Mem.cellsOf] at hc
    split at hc
    · have := ih (a + 1) c hc
      simp only [List.length_cons]
      omega
    · rcases List.mem_cons.mp hc with rfl | hc
      · simp
      · have := ih (a + 1) c hc
        simp only [List.length_cons]
        omega

theorem cellsOf_wf (a : Nat) (bs : List Byte) : cellsWf (Mem.cellsOf a bs) := by
  induction bs generalizing a with
  | nil => exact ⟨rfl, by simp [Mem.cellsOf]⟩
  | cons b bs ih =>
    simp only [Mem.cellsOf]
    split
    · exact ih (a + 1)
    · next hb =>
      refine ⟨rising_cons.mpr ⟨fun x hx => ?_, (ih (a + 1)).1⟩, fun c hc => ?_⟩
      · obtain ⟨c, hc, rfl⟩ := List.mem_map.mp hx
        have := cellsOf_in (a + 1) bs c hc
        omega
      · rcases List.mem_cons.mp hc with rfl | hc
        · exact hb
        · exact (ih (a + 1)).2 c hc

theorem cellsWf_nil : cellsWf [] := ⟨rfl, by simp⟩

theorem window_wf {cs : List Host.Cell} (sa n da : Nat) (h : cellsWf cs) :
    cellsWf (Mem.window cs sa n da) ∧ ∀ c ∈ Mem.window cs sa n da, da ≤ c.1 ∧ c.1 < da + n := by
  have hin : ∀ c ∈ Mem.window cs sa n da, da ≤ c.1 ∧ c.1 < da + n := by
    intro c hc
    obtain ⟨d, hd, rfl⟩ := List.mem_map.mp hc
    have := (List.mem_filter.mp hd).2
    simp at this
    constructor
    · show da ≤ d.1 - sa + da
      omega
    · show d.1 - sa + da < da + n
      omega
  refine ⟨⟨?_, fun c hc => ?_⟩, hin⟩
  · have : (Mem.window cs sa n da).map Prod.fst
        = ((cs.map Prod.fst).filter (fun x => decide (sa ≤ x) && decide (x < sa + n))).map (fun x => x - sa + da) := by
      rw [← map_fst_filter cs (fun x => decide (sa ≤ x) && decide (x < sa + n))]
      simp [Mem.window, List.map_map, Function.comp_def]
    rw [this]
    refine rising_map (fun x hx y hy hxy => ?_) (rising_filter _ h.1)
    have hx := (List.mem_filter.mp hx).2
    have hy := (List.mem_filter.mp hy).2
    simp at hx hy
    omega
  · obtain ⟨d, hd, rfl⟩ := List.mem_map.mp hc
    exact h.2 d (List.mem_filter.mp hd).1

/-! ## Every operation keeps the form -/

theorem empty_wf : ({} : Mem).wf = true := rfl

theorem write_wf {m : Mem} (a : Nat) (bs : List Byte) (h : m.wf = true) : (m.write a bs).wf = true :=
  (wf_iff _).mpr ⟨cellsWf_splice ((wf_iff m).mp h).1 (cellsOf_wf a bs) (cellsOf_in a bs), ((wf_iff m).mp h).2⟩

theorem copyBytes_wf {m src : Mem} (da sa n : Nat) (h : m.wf = true) (hs : src.wf = true) :
    (m.copyBytes src da sa n).wf = true :=
  (wf_iff _).mpr ⟨cellsWf_splice ((wf_iff m).mp h).1 (window_wf sa n da ((wf_iff src).mp hs).1).1
    (window_wf sa n da ((wf_iff src).mp hs).1).2, ((wf_iff m).mp h).2⟩

theorem zero_wf {m : Mem} (a n : Nat) (h : m.wf = true) : (m.zero a n).wf = true :=
  (wf_iff _).mpr ⟨cellsWf_splice ((wf_iff m).mp h).1 cellsWf_nil (by simp), ((wf_iff m).mp h).2⟩

theorem setPoison_wf {m : Mem} (a n : Nat) (p : Bool) (h : m.wf = true) : (m.setPoison a n p).wf = true := by
  refine (wf_iff _).mpr ⟨((wf_iff m).mp h).1, ?_⟩
  refine rising_splice (Nat.le_add_right _ _) ((wf_iff m).mp h).2 ?_ (fun x hx => ?_)
  · split
    · exact rising_range _ _
    · rfl
  · split at hx
    · simp at hx
      obtain ⟨i, hi, rfl⟩ := hx
      omega
    · simp at hx

theorem copyPoison_wf {m src : Mem} (da sa n : Nat) (h : m.wf = true) (hs : src.wf = true) :
    (m.copyPoison src da sa n).wf = true := by
  refine (wf_iff _).mpr ⟨((wf_iff m).mp h).1, ?_⟩
  refine rising_splice (Nat.le_add_right _ _) ((wf_iff m).mp h).2 ?_ (fun x hx => ?_)
  · refine rising_map (fun x hx y hy hxy => ?_) (rising_filter _ ((wf_iff src).mp hs).2)
    have hx := (List.mem_filter.mp hx).2
    have hy := (List.mem_filter.mp hy).2
    simp at hx hy
    omega
  · obtain ⟨g, hg, rfl⟩ := List.mem_map.mp hx
    have hg := (List.mem_filter.mp hg).2
    simp at hg
    omega

theorem copy_wf {m src : Mem} (da sa n : Nat) (h : m.wf = true) (hs : src.wf = true) : (m.copy src da sa n).wf = true :=
  copyPoison_wf da sa n (copyBytes_wf da sa n h hs) hs

theorem scrub_wf {m : Mem} (a n : Nat) (h : m.wf = true) : (m.scrub a n).wf = true := setPoison_wf _ _ _ (zero_wf a n h)

theorem writeP_wf {m : Mem} (a : Nat) (bs : List Byte) (p : Bool) (h : m.wf = true) : (m.writeP a bs p).wf = true :=
  setPoison_wf _ _ _ (write_wf a bs h)

theorem poisonZero_wf {m : Mem} (a n : Nat) (h : m.wf = true) : (m.poisonZero a n).wf = true :=
  setPoison_wf _ _ _ (zero_wf a n h)

/-- A fold of memory operations that each keep the form keeps it. -/
theorem foldl_wf {β : Type} {f : Mem → β → Mem} (hf : ∀ m b, m.wf = true → (f m b).wf = true) (l : List β) {m : Mem}
    (h : m.wf = true) : (l.foldl f m).wf = true := by
  induction l generalizing m with
  | nil => exact h
  | cons b l ih => exact ih (hf m b h)

theorem spell_wf {m : Mem} (a n : Nat) (cs : List (Nat × Byte)) (h : m.wf = true) : (m.spell a n cs).wf = true := by
  refine foldl_wf (fun m c h => ?_) cs (zero_wf a n h)
  split
  · exact write_wf _ _ h
  · exact h

theorem spellPoison_wf {m : Mem} (a n : Nat) (gs : List Nat) (h : m.wf = true) : (m.spellPoison a n gs).wf = true := by
  refine foldl_wf (fun m c h => ?_) gs (setPoison_wf _ _ _ h)
  split
  · exact setPoison_wf _ _ _ h
  · exact h

theorem paste_wf {m : Mem} (src : Mem) (da sa n : Nat) (h : m.wf = true) : (m.paste src da sa n).wf = true :=
  spellPoison_wf _ _ _ (spell_wf _ _ _ h)

/-! ## What a byte reads as -/

theorem find_append {α : Type} (s t : Tab α) (k : Nat) : Tab.find (s ++ t) k = (Tab.find s k).or (Tab.find t k) := by
  induction s with
  | nil => simp [Tab.find]
  | cons c s ih =>
    obtain ⟨j, w⟩ := c
    by_cases h : j = k
    · simp [Tab.find, h]
    · simp [Tab.find, h, ih]

theorem find_filter_key {α : Type} (t : Tab α) (p : Nat → Bool) (k : Nat) :
    Tab.find (t.filter (fun c => p c.1)) k = if p k then Tab.find t k else none := by
  induction t with
  | nil => simp [Tab.find]
  | cons c t ih =>
    obtain ⟨j, w⟩ := c
    by_cases hj : j = k
    · subst hj
      by_cases hp : p j
      · simp [hp, Tab.find]
      · simp only [List.filter_cons, hp, Bool.false_eq_true, if_false]
        simpa [hp] using ih
    · by_cases hp : p j
      · simp [hp, Tab.find, hj, ih]
      · simp [hp, Tab.find, hj, ih]

theorem find_none {α : Type} {t : Tab α} {k : Nat} (h : ∀ c ∈ t, c.1 ≠ k) : Tab.find t k = none := by
  induction t with
  | nil => rfl
  | cons c t ih =>
    obtain ⟨j, w⟩ := c
    have hj : j ≠ k := h (j, w) List.mem_cons_self
    simp [Tab.find, hj, ih (fun c hc => h c (List.mem_cons_of_mem _ hc))]

/-- A byte outside a splice reads as before. -/
theorem find_splice_out {cs new : List Host.Cell} {a n x : Nat} (hin : ∀ c ∈ new, a ≤ c.1 ∧ c.1 < a + n)
    (hx : x < a ∨ a + n ≤ x) : Tab.find (Mem.spliceCells cs a n new) x = Tab.find cs x := by
  have hnew : Tab.find new x = none := find_none (fun c hc => by have := hin c hc; omega)
  unfold Mem.spliceCells
  rw [find_append, find_append, find_filter_key cs (fun y => decide (y < a)), hnew,
    find_filter_key cs (fun y => decide (a + n ≤ y))]
  rcases hx with hx | hx
  · have : ¬ a + n ≤ x := by omega
    simp [hx, this]
  · have : ¬ x < a := by omega
    simp [hx, this]

/-- A byte inside a splice reads as the new cells say. -/
theorem find_splice_in {cs new : List Host.Cell} {a n x : Nat} (h1 : a ≤ x) (h2 : x < a + n) :
    Tab.find (Mem.spliceCells cs a n new) x = Tab.find new x := by
  unfold Mem.spliceCells
  rw [find_append, find_append, find_filter_key cs (fun y => decide (y < a)),
    find_filter_key cs (fun y => decide (a + n ≤ y))]
  have : ¬ x < a := by omega
  have h3 : ¬ a + n ≤ x := by omega
  simp [this, h3]

theorem find_cellsOf (a : Nat) (bs : List Byte) (i : Nat) : (Tab.find (Mem.cellsOf a bs) (a + i)).getD 0 = bs.getD i 0 := by
  induction bs generalizing a i with
  | nil => simp [Mem.cellsOf, Tab.find]
  | cons b bs ih =>
    cases i with
    | zero =>
      simp only [Mem.cellsOf]
      split
      · next hb =>
        rw [find_none (fun c hc => by have := cellsOf_in (a + 1) bs c hc; omega)]
        simp [hb]
      · simp [Tab.find]
    | succ i =>
      have e : a + (i + 1) = a + 1 + i := by omega
      simp only [Mem.cellsOf]
      split
      · rw [e, ih]; simp
      · have : ¬ a = a + 1 + i := by omega
        rw [e]; simp only [Tab.find, this, if_false, ih]; simp

/-- A write reads back (R10): byte i of the string at address a + i. -/
theorem read1_write_in (m : Mem) (a : Nat) (bs : List Byte) {i : Nat} (h : i < bs.length) :
    (m.write a bs).read1 (a + i) = bs.getD i 0 := by
  show (Tab.find (Mem.spliceCells m.cells a bs.length (Mem.cellsOf a bs)) (a + i)).getD Mem.blank = _
  rw [find_splice_in (by omega) (by omega)]
  exact find_cellsOf a bs i

/-- A write leaves every other byte alone. -/
theorem read1_write_out (m : Mem) (a : Nat) (bs : List Byte) {x : Nat} (h : x < a ∨ a + bs.length ≤ x) :
    (m.write a bs).read1 x = m.read1 x := by
  show (Tab.find (Mem.spliceCells m.cells a bs.length (Mem.cellsOf a bs)) x).getD Mem.blank = _
  rw [find_splice_out (cellsOf_in a bs) h]
  rfl

@[simp] theorem read1_setPoison (m : Mem) (a n x : Nat) (p : Bool) : (m.setPoison a n p).read1 x = m.read1 x := rfl

theorem read1_zero_in (m : Mem) {a n x : Nat} (h1 : a ≤ x) (h2 : x < a + n) : (m.zero a n).read1 x = 0 := by
  show (Tab.find (Mem.spliceCells m.cells a n []) x).getD Mem.blank = _
  rw [find_splice_in h1 h2]
  rfl

theorem read1_zero_out (m : Mem) {a n x : Nat} (h : x < a ∨ a + n ≤ x) : (m.zero a n).read1 x = m.read1 x := by
  show (Tab.find (Mem.spliceCells m.cells a n []) x).getD Mem.blank = _
  rw [find_splice_out (by simp) h]
  rfl

end Sys2Proof.Laws
end

