-- ==== Sys2Proof/Laws/Tab.lean ====
section
/-!
SUPPORT. Laws of sparse tables: a key reads what was put there, every other key reads as before, and putting, striking and
filtering keep the keys rising.
-/
namespace Sys2Proof.Laws

open Sys2Proof.Machine

variable {α : Type}

/-- Every key of a table lies above `k`. -/
def below (k : Nat) (t : Tab α) : Prop := ∀ c ∈ t, k < c.1

theorem sorted_cons {j : Nat} {w : α} {t : Tab α} : Tab.sorted ((j, w) :: t) = true ↔ below j t ∧ Tab.sorted t = true := by
  induction t generalizing j w with
  | nil => simp [Tab.sorted, below]
  | cons c t ih =>
    obtain ⟨k, v⟩ := c
    simp only [Tab.sorted, Bool.and_eq_true, decide_eq_true_eq, below, List.mem_cons, forall_eq_or_imp]
    constructor
    · rintro ⟨h, hs⟩
      refine ⟨⟨h, fun c hc => ?_⟩, hs⟩
      exact Nat.lt_trans h ((ih.mp hs).1 c hc)
    · rintro ⟨⟨h, _⟩, hs⟩
      exact ⟨h, hs⟩

@[simp] theorem find_put_same (t : Tab α) (k : Nat) (v : α) : Tab.find (Tab.put t k v) k = some v := by
  induction t with
  | nil => simp [Tab.put, Tab.find]
  | cons c t ih =>
    obtain ⟨j, w⟩ := c
    simp only [Tab.put]
    split
    · simp [Tab.find]
    · split
      · simp [Tab.find]
      · next h1 h2 => simp [Tab.find, ih, Ne.symm h2]

theorem find_put_other (t : Tab α) {k l : Nat} (v : α) (h : l ≠ k) : Tab.find (Tab.put t k v) l = Tab.find t l := by
  induction t with
  | nil => simp [Tab.put, Tab.find, Ne.symm h]
  | cons c t ih =>
    obtain ⟨j, w⟩ := c
    simp only [Tab.put]
    split
    · simp [Tab.find, Ne.symm h]
    · split
      · next h2 => subst h2; simp [Tab.find, Ne.symm h]
      · simp [Tab.find, ih]

theorem find_erase_other (t : Tab α) {k l : Nat} (h : l ≠ k) : Tab.find (Tab.erase t k) l = Tab.find t l := by
  induction t with
  | nil => rfl
  | cons c t ih =>
    obtain ⟨j, w⟩ := c
    by_cases hj : j = k
    · have : Tab.erase ((j, w) :: t) k = Tab.erase t k := by simp [Tab.erase, hj]
      rw [this, ih]; simp [Tab.find, hj, Ne.symm h]
    · have : Tab.erase ((j, w) :: t) k = (j, w) :: Tab.erase t k := by simp [Tab.erase, hj]
      rw [this]; simp [Tab.find, ih]

@[simp] theorem find_erase_same (t : Tab α) (k : Nat) : Tab.find (Tab.erase t k) k = none := by
  induction t with
  | nil => rfl
  | cons c t ih =>
    obtain ⟨j, w⟩ := c
    by_cases hj : j = k
    · have : Tab.erase ((j, w) :: t) k = Tab.erase t k := by simp [Tab.erase, hj]
      rw [this, ih]
    · have : Tab.erase ((j, w) :: t) k = (j, w) :: Tab.erase t k := by simp [Tab.erase, hj]
      rw [this]; simp [Tab.find, ih, hj]

theorem mem_put {t : Tab α} {k : Nat} {v : α} {c : Nat × α} (h : c ∈ Tab.put t k v) : c = (k, v) ∨ c ∈ t := by
  induction t with
  | nil => simpa [Tab.put] using h
  | cons d t ih =>
    obtain ⟨j, w⟩ := d
    simp only [Tab.put] at h
    split at h
    · simpa using h
    · split at h
      · simp only [List.mem_cons] at h ⊢
        rcases h with h | h
        · exact .inl h
        · exact .inr (.inr h)
      · simp only [List.mem_cons] at h ⊢
        rcases h with h | h
        · exact .inr (.inl h)
        · rcases ih h with h | h
          · exact .inl h
          · exact .inr (.inr h)

theorem sorted_put {t : Tab α} (k : Nat) (v : α) (h : Tab.sorted t = true) : Tab.sorted (Tab.put t k v) = true := by
  induction t with
  | nil => simp [Tab.put, Tab.sorted]
  | cons c t ih =>
    obtain ⟨j, w⟩ := c
    have hc := sorted_cons.mp h
    simp only [Tab.put]
    split
    · next hk => exact sorted_cons.mpr ⟨fun d hd => by
        rcases List.mem_cons.mp hd with rfl | hd
        · exact hk
        · exact Nat.lt_trans hk (hc.1 d hd), h⟩
    · split
      · next _ hk => subst hk; exact sorted_cons.mpr hc
      · next h1 h2 => exact sorted_cons.mpr ⟨fun d hd => by
          rcases mem_put hd with rfl | hd
          · show j < k
            omega
          · exact hc.1 d hd, ih hc.2⟩

theorem sorted_filter {t : Tab α} (p : Nat × α → Bool) (h : Tab.sorted t = true) : Tab.sorted (t.filter p) = true := by
  induction t with
  | nil => simp [Tab.sorted]
  | cons c t ih =>
    obtain ⟨j, w⟩ := c
    have hc := sorted_cons.mp h
    simp only [List.filter_cons]
    split
    · exact sorted_cons.mpr ⟨fun d hd => hc.1 d (List.mem_filter.mp hd).1, ih hc.2⟩
    · exact ih hc.2

theorem sorted_erase {t : Tab α} (k : Nat) (h : Tab.sorted t = true) : Tab.sorted (Tab.erase t k) = true :=
  sorted_filter _ h

variable [DecidableEq α]

@[simp] theorem getD_setD_same (t : Tab α) (k : Nat) (v d : α) : (Tab.find (Tab.setD t k v d) k).getD d = v := by
  unfold Tab.setD
  split
  · next h => simp [h]
  · simp

theorem find_setD_other (t : Tab α) {k l : Nat} (v d : α) (h : l ≠ k) : Tab.find (Tab.setD t k v d) l = Tab.find t l := by
  unfold Tab.setD
  split
  · exact find_erase_other t h
  · exact find_put_other t v h

theorem sorted_setD {t : Tab α} (k : Nat) (v d : α) (h : Tab.sorted t = true) : Tab.sorted (Tab.setD t k v d) = true := by
  unfold Tab.setD
  split
  · exact sorted_erase k h
  · exact sorted_put k v h

end Sys2Proof.Laws
end

