-- ==== Sys2Proof/Laws/Keeps.lean ====
section
/-!
SUPPORT. The one relation that every operation of the machine keeps: it leaves the command queue alone, keeps memories and
registers canonical and undoes no fuse. One lemma for each shape in which operations are composed. The files Keeps<Name>.lean
prove it operation by operation; there the conv step `arg 30` succeeds on a record update of State only, which has 30
fields, and so tells an update from a call.
-/
namespace Sys2Proof.Laws

open Sys2Proof.Machine

/-- What every operation does to the state as a whole. -/
def Keeps (s t : State) : Prop :=
  t.pending = s.pending ∧ (memoriesWf s = true → memoriesWf t = true) ∧ (registersWf s = true → registersWf t = true)
    ∧ fusesKept s t

/-- The same for an operation that answers more than a state. -/
def KeepsP {α : Type} (s : State) (p : State × α) : Prop := Keeps s p.1

/-- The same for a command's outcome. -/
def KeepsO (s : State) (o : Host.Outcome State Fault Refusal) : Prop := ∀ t, o = .next t → Keeps s t

variable {s₀ s : State}

theorem fusesKept_refl (s : State) : fusesKept s s := ⟨id, id, id, Nat.le_refl _⟩

theorem Keeps.refl (s : State) : Keeps s s := ⟨rfl, id, id, fusesKept_refl s⟩

theorem keeps_next {t : State} (h : Keeps s₀ t) : KeepsO s₀ (.next t) := by
  intro u hu
  cases hu
  exact h

theorem keeps_fault {f : Fault} : KeepsO s₀ (.fault f) := by intro u hu; cases hu

theorem keepsO_ite {c : Prop} [Decidable c] {a b : Host.Outcome State Fault Refusal} (ha : KeepsO s₀ a) (hb : KeepsO s₀ b) :
    KeepsO s₀ (if c then a else b) := by split <;> assumption

theorem keeps_ite {c : Prop} [Decidable c] {a b : State} (ha : Keeps s₀ a) (hb : Keeps s₀ b) :
    Keeps s₀ (if c then a else b) := by split <;> assumption

theorem keepsP_ite {α : Type} {c : Prop} [Decidable c] {a b : State × α} (ha : KeepsP s₀ a) (hb : KeepsP s₀ b) :
    KeepsP s₀ (if c then a else b) := by split <;> assumption

theorem keeps_let {v : State} {b : State → State} (hv : Keeps s₀ v) (hb : ∀ s, Keeps s₀ s → Keeps s₀ (b s)) :
    Keeps s₀ (let s := v; b s) := hb v hv

theorem keeps_letp {α : Type} {v : State × α} {b : State × α → State} (hv : KeepsP s₀ v)
    (hb : ∀ s, KeepsP s₀ s → Keeps s₀ (b s)) : Keeps s₀ (let s := v; b s) := hb v hv

theorem keeps_letv {α : Sort _} {v : α} {b : α → State} (hb : ∀ x, Keeps s₀ (b x)) : Keeps s₀ (let x := v; b x) := hb v

theorem keepsP_let {α : Type} {v : State} {b : State → State × α} (hv : Keeps s₀ v)
    (hb : ∀ s, Keeps s₀ s → KeepsP s₀ (b s)) : KeepsP s₀ (let s := v; b s) := hb v hv

theorem keepsP_letp {α β : Type} {v : State × α} {b : State × α → State × β} (hv : KeepsP s₀ v)
    (hb : ∀ s, KeepsP s₀ s → KeepsP s₀ (b s)) : KeepsP s₀ (let s := v; b s) := hb v hv

theorem keepsP_letv {β : Type} {α : Sort _} {v : α} {b : α → State × β} (hb : ∀ x, KeepsP s₀ (b x)) :
    KeepsP s₀ (let x := v; b x) := hb v

theorem keepsO_let {v : State} {b : State → Host.Outcome State Fault Refusal} (hv : Keeps s₀ v)
    (hb : ∀ s, Keeps s₀ s → KeepsO s₀ (b s)) : KeepsO s₀ (let s := v; b s) := hb v hv

theorem keepsO_letv {α : Sort _} {v : α} {b : α → Host.Outcome State Fault Refusal} (hb : ∀ x, KeepsO s₀ (b x)) :
    KeepsO s₀ (let x := v; b x) := hb v

theorem keepsP_mk {α : Type} {t : State} {x : α} (h : Keeps s₀ t) : KeepsP s₀ (t, x) := h

theorem keeps_fst {α : Type} {p : State × α} (h : KeepsP s₀ p) : Keeps s₀ p.1 := h

theorem keeps_eq {α : Type} {p : State × α} {t : State} {x : α} (he : p = (t, x)) (h : KeepsP s₀ p) : Keeps s₀ t := by
  subst he; exact h

theorem keeps_foldl {α : Type} {f : State → α → State} (hf : ∀ s a, Keeps s₀ s → Keeps s₀ (f s a)) (l : List α)
    {s : State} (h : Keeps s₀ s) : Keeps s₀ (l.foldl f s) := by
  induction l generalizing s with
  | nil => exact h
  | cons a l ih => exact ih (hf s a h)

theorem keeps_foldlP {α β : Type} {f : State × β → α → State × β} (hf : ∀ p a, KeepsP s₀ p → KeepsP s₀ (f p a)) (l : List α)
    {p : State × β} (h : KeepsP s₀ p) : KeepsP s₀ (l.foldl f p) := by
  induction l generalizing p with
  | nil => exact h
  | cons a l ih => exact ih (hf p a h)

theorem keeps_forAll {α : Type} {f : State → α → State} {l : List α} (h : Keeps s₀ s)
    (hf : ∀ s a, Keeps s₀ s → Keeps s₀ (f s a)) : Keeps s₀ (s.forAll l f) := keeps_foldl hf l h

/-! ## Updates of single fields -/

/-- An update of fields that the relation does not name. -/
theorem keeps_upd {ts fresh : Nat} {latch : Option (Nat × Nat)} {bar2Log : Nat} {rd : ReadBack} {msix : Tab Nat} {pins : Pins}
    {power : Power} {sec : Sec} {mbox : Mbox} {epochs epochBase : Tab Nat} {qps : Tab Qp} {prepared : Tab (Nat × Nat × Nat)}
    {jobs : Tab Job} {dies : Tab DieSt} {cores : Tab Core} {links : Tab LinkSt} {attics : List AtticReq} {atticNext : Nat}
    {bankTrans : Tab Nat} {cellar : Cellar} (h : Keeps s₀ s) :
    Keeps s₀ { s with ts := ts, fresh := fresh, latch := latch, bar2Log := bar2Log, rd := rd, msix := msix, pins := pins,
                      power := power, sec := sec, mbox := mbox, epochs := epochs, epochBase := epochBase, qps := qps,
                      prepared := prepared, jobs := jobs, dies := dies, cores := cores, links := links, attics := attics,
                      atticNext := atticNext, bankTrans := bankTrans, cellar := cellar } := h

/-- An update of hub NVM that keeps the fuses. -/
theorem keeps_nvm {n : Nvm} (h : Keeps s₀ s) (h1 : s.nvm.claimed = true → n.claimed = true)
    (h2 : s.nvm.returned = true → n.returned = true) (h3 : s.nvm.seedLock = true → n.seedLock = true)
    (h4 : s.nvm.svnMin ≤ n.svnMin) : Keeps s₀ { s with nvm := n } :=
  ⟨h.1, h.2.1, h.2.2.1, fun x => h1 (h.2.2.2.1 x), fun x => h2 (h.2.2.2.2.1 x), fun x => h3 (h.2.2.2.2.2.1 x),
    Nat.le_trans h.2.2.2.2.2.2 h4⟩

/-- An update of memories, and of fields that the relation does not name. -/
theorem keeps_mem {ts fresh : Nat} {latch : Option (Nat × Nat)} {bar2Log : Nat} {rd : ReadBack} {msix : Tab Nat} {pins : Pins}
    {power : Power} {sec : Sec} {mbox : Mbox} {host larder attic shelf store : Mem} {epochs epochBase : Tab Nat} {qps : Tab Qp}
    {prepared : Tab (Nat × Nat × Nat)} {jobs : Tab Job} {dies : Tab DieSt} {cores : Tab Core} {links : Tab LinkSt}
    {attics : List AtticReq} {atticNext : Nat} {bankTrans : Tab Nat} {cellar : Cellar} (h : Keeps s₀ s)
    (h1 : memoriesWf s₀ = true → host.wf = true) (h2 : memoriesWf s₀ = true → larder.wf = true)
    (h3 : memoriesWf s₀ = true → attic.wf = true) (h4 : memoriesWf s₀ = true → shelf.wf = true)
    (h5 : memoriesWf s₀ = true → store.wf = true) :
    Keeps s₀ { s with ts := ts, fresh := fresh, latch := latch, bar2Log := bar2Log, rd := rd, msix := msix, pins := pins,
                      power := power, sec := sec, mbox := mbox, host := host, larder := larder, attic := attic,
                      shelf := shelf, store := store, epochs := epochs, epochBase := epochBase, qps := qps,
                      prepared := prepared, jobs := jobs, dies := dies, cores := cores, links := links, attics := attics,
                      atticNext := atticNext, bankTrans := bankTrans, cellar := cellar } := by
  refine ⟨h.1, fun w => ?_, h.2.2.1, h.2.2.2⟩
  simp only [memoriesWf, Bool.and_eq_true]
  exact ⟨⟨⟨⟨h1 w, h2 w⟩, h3 w⟩, h4 w⟩, h5 w⟩

/-- An update of hub NVM that keeps the fuses, and of fields that the relation does not name. -/
theorem keeps_all {ts fresh : Nat} {latch : Option (Nat × Nat)} {bar2Log : Nat} {rd : ReadBack} {msix : Tab Nat} {pins : Pins}
    {power : Power} {nvm : Nvm} {sec : Sec} {mbox : Mbox} {epochs epochBase : Tab Nat} {qps : Tab Qp}
    {prepared : Tab (Nat × Nat × Nat)} {jobs : Tab Job} {dies : Tab DieSt} {cores : Tab Core} {links : Tab LinkSt}
    {attics : List AtticReq} {atticNext : Nat} {bankTrans : Tab Nat} {cellar : Cellar} (h : Keeps s₀ s)
    (h1 : s.nvm.claimed = true → nvm.claimed = true) (h2 : s.nvm.returned = true → nvm.returned = true)
    (h3 : s.nvm.seedLock = true → nvm.seedLock = true) (h4 : s.nvm.svnMin ≤ nvm.svnMin) :
    Keeps s₀ { s with ts := ts, fresh := fresh, latch := latch, bar2Log := bar2Log, rd := rd, msix := msix, pins := pins,
                      power := power, nvm := nvm, sec := sec, mbox := mbox, epochs := epochs, epochBase := epochBase,
                      qps := qps, prepared := prepared, jobs := jobs, dies := dies, cores := cores, links := links,
                      attics := attics, atticNext := atticNext, bankTrans := bankTrans, cellar := cellar } :=
  keeps_upd (keeps_nvm h h1 h2 h3 h4)

theorem Keeps.wf (h : Keeps s₀ s) (w : memoriesWf s₀ = true) : memoriesWf s = true := h.2.1 w

theorem wf_host (h : memoriesWf s = true) : s.host.wf = true := by
  simp only [memoriesWf, Bool.and_eq_true] at h; exact h.1.1.1.1
theorem wf_larder (h : memoriesWf s = true) : s.larder.wf = true := by
  simp only [memoriesWf, Bool.and_eq_true] at h; exact h.1.1.1.2
theorem wf_attic (h : memoriesWf s = true) : s.attic.wf = true := by
  simp only [memoriesWf, Bool.and_eq_true] at h; exact h.1.1.2
theorem wf_shelf (h : memoriesWf s = true) : s.shelf.wf = true := by
  simp only [memoriesWf, Bool.and_eq_true] at h; exact h.1.2
theorem wf_store (h : memoriesWf s = true) : s.store.wf = true := by
  simp only [memoriesWf, Bool.and_eq_true] at h; exact h.2

theorem wf_tierMem {k : Nat} (h : memoriesWf s = true) : (s.tierMem k).wf = true := by
  unfold State.tierMem
  split
  · exact wf_shelf h
  split
  · exact wf_store h
  split
  · exact wf_larder h
  split
  · exact wf_attic h
  · exact wf_host h

theorem put_wf {t : TileAt} {m : Mem} (o : Out) (h : m.wf = true) : (t.put m o).wf = true := by
  unfold TileAt.put
  repeat' first | exact h | apply write_wf | split

theorem putAll_wf {t : TileAt} {rtl : Tab Nat} {os : List Out} {m : Mem} (h : m.wf = true) : (t.putAll rtl os m).wf = true := by
  refine foldl_wf (fun _ _ h => setPoison_wf _ _ _ h) _ (foldl_wf (fun _ _ h => ?_) _ (foldl_wf (fun _ _ h => put_wf _ h) _ h))
  split
  · exact setPoison_wf _ _ _ h
  · exact h

theorem copyRun_wf {m src : Mem} (da sa n : Nat) (h : m.wf = true) (hs : src.wf = true) : (m.copyRun src da sa n).wf = true := by
  unfold Mem.copyRun
  split
  · exact copy_wf _ _ _ h hs
  · dsimp only
    split
    · exact setPoison_wf _ _ _ (copyBytes_wf _ _ _ h hs)
    · exact copyBytes_wf _ _ _ h hs

theorem atomic_wf {int8 p : Bool} {kind k val : Nat} {m : Mem} (h : m.wf = true) : (atomic int8 kind m k val p).wf = true := by
  unfold atomic
  dsimp only
  split
  · exact setPoison_wf _ _ _ (write_wf _ _ h)
  · exact write_wf _ _ h

theorem wf_xferSource {src : TileAt} {f : Fly} (h : memoriesWf s = true) : (s.xferSource src f).2.wf = true := by
  unfold State.xferSource
  refine foldl_wf (fun _ _ h => ?_) _ (foldl_wf (fun _ _ h => scrub_wf _ _ h) _ (wf_tierMem h))
  dsimp only
  split
  · exact h
  · exact writeP_wf _ _ _ h

theorem keeps_pair {α : Type} {t : State} {x : α} (h : KeepsP s₀ (t, x)) : Keeps s₀ t := h

/-! ## Registers -/

theorem keeps_regs {r : Tab Word} (h : Keeps s₀ s) (hr : registersWf s = true →
    Tab.sorted r = true ∧ ∀ c ∈ r, c.2 ≠ regReset c.1) : Keeps s₀ { s with regs := r } := by
  refine ⟨h.1, h.2.1, fun w => ?_, h.2.2.2⟩
  have := hr (h.2.2.1 w)
  simp only [registersWf, Bool.and_eq_true, List.all_eq_true, decide_eq_true_eq]
  exact this

theorem keeps_setReg {a : Nat} {v : Word} (h : Keeps s₀ s) : Keeps s₀ (s.setReg a v) := by
  refine keeps_regs h (fun w => ?_)
  simp only [registersWf, Bool.and_eq_true, List.all_eq_true, decide_eq_true_eq] at w
  refine ⟨sorted_setD _ _ _ w.1, fun c hc => ?_⟩
  unfold Tab.setD at hc
  split at hc
  · exact w.2 c (List.mem_filter.mp hc).1
  · next hv =>
    rcases mem_put hc with rfl | hc
    · exact hv
    · exact w.2 c hc

theorem keeps_resetRegs {p : Nat → Bool} (h : Keeps s₀ s) : Keeps s₀ (s.resetRegs p) := by
  refine keeps_regs h (fun w => ?_)
  simp only [registersWf, Bool.and_eq_true, List.all_eq_true, decide_eq_true_eq] at w
  exact ⟨sorted_filter _ w.1, fun c hc => w.2 c (List.mem_filter.mp hc).1⟩

end Sys2Proof.Laws
end

