-- ==== Sys2Proof/Laws/KeepsOps.lean ====
section
/-!
SUPPORT. Every operation of Sys2Proof/Machine/Ops.lean keeps what Sys2Proof/Laws/Keeps.lean names: the queue, the canonical
form of the memories and of the registers, and the fuses. The lemmas follow the order of the operations in that file.
-/
namespace Sys2Proof.Laws

open Sys2Proof.Machine

theorem keeps_State_setFld {s₀ : State} {s : State} {base : Nat} {f : Fld} {v : Nat} {i : Nat} (hs : Keeps s₀ s) :
    Keeps s₀ (State.setFld s base f v i) := by
  unfold State.setFld
  repeat' first | with_reducible assumption | with_reducible apply keeps_setReg

theorem keeps_State_bump {s₀ : State} {s : State} {base : Nat} {f : Fld} {n : Nat} {i : Nat} (hs : Keeps s₀ s) :
    Keeps s₀ (State.bump s base f n i) := by
  unfold State.bump
  repeat' first | with_reducible assumption | with_reducible apply keeps_State_setFld

theorem keeps_State_bumpSat {s₀ : State} {s : State} {base : Nat} {f : Fld} {n : Nat} {i : Nat} (hs : Keeps s₀ s) :
    Keeps s₀ (State.bumpSat s base f n i) := by
  unfold State.bumpSat
  repeat' first | with_reducible assumption | with_reducible apply keeps_State_setFld

theorem keeps_State_drawn {s₀ : State} {s : State} (hs : Keeps s₀ s) : Keeps s₀ (State.drawn s) := by
  unfold State.drawn
  repeat' first | with_reducible assumption | ((conv => arg 2; (try zeta); arg 30); with_reducible apply keeps_upd)

theorem keeps_State_drawnN {s₀ : State} {s : State} {n : Nat} (hs : Keeps s₀ s) : Keeps s₀ (State.drawnN s n) := by
  unfold State.drawnN
  repeat' first | with_reducible assumption | ((conv => arg 2; (try zeta); arg 30); with_reducible apply keeps_upd)

theorem keeps_State_setQp {s₀ : State} {s : State} {j : Nat} {q : Qp} (hs : Keeps s₀ s) : Keeps s₀ (State.setQp s j q) := by
  unfold State.setQp
  repeat' first | with_reducible assumption | ((conv => arg 2; (try zeta); arg 30); with_reducible apply keeps_upd)

theorem keeps_State_modQp {s₀ : State} {s : State} {j : Nat} {f : Qp → Qp} (hs : Keeps s₀ s) :
    Keeps s₀ (State.modQp s j f) := by
  unfold State.modQp
  repeat' first | with_reducible assumption | with_reducible apply keeps_State_setQp

theorem keeps_State_setJob {s₀ : State} {s : State} {j : Nat} {v : Job} (hs : Keeps s₀ s) :
    Keeps s₀ (State.setJob s j v) := by
  unfold State.setJob
  repeat' first | with_reducible assumption | ((conv => arg 2; (try zeta); arg 30); with_reducible apply keeps_upd)

theorem keeps_State_modJob {s₀ : State} {s : State} {j : Nat} {f : Job → Job} (hs : Keeps s₀ s) :
    Keeps s₀ (State.modJob s j f) := by
  unfold State.modJob
  repeat' first | with_reducible assumption | with_reducible apply keeps_State_setJob

theorem keeps_State_setDie {s₀ : State} {s : State} {d : Nat} {v : DieSt} (hs : Keeps s₀ s) :
    Keeps s₀ (State.setDie s d v) := by
  unfold State.setDie
  repeat' first | with_reducible assumption | ((conv => arg 2; (try zeta); arg 30); with_reducible apply keeps_upd)

theorem keeps_State_modDie {s₀ : State} {s : State} {d : Nat} {f : DieSt → DieSt} (hs : Keeps s₀ s) :
    Keeps s₀ (State.modDie s d f) := by
  unfold State.modDie
  repeat' first | with_reducible assumption | with_reducible apply keeps_State_setDie

theorem keeps_State_setCore {s₀ : State} {s : State} {d : Nat} {p : Nat} {v : Core} (hs : Keeps s₀ s) :
    Keeps s₀ (State.setCore s d p v) := by
  unfold State.setCore
  repeat' first | with_reducible assumption | ((conv => arg 2; (try zeta); arg 30); with_reducible apply keeps_upd)

theorem keeps_State_modCore {s₀ : State} {s : State} {d : Nat} {p : Nat} {f : Core → Core} (hs : Keeps s₀ s) :
    Keeps s₀ (State.modCore s d p f) := by
  unfold State.modCore
  repeat' first | with_reducible assumption | with_reducible apply keeps_State_setCore

theorem keeps_State_modNvm {s₀ s : State} {f : Nvm → Nvm} (hs : Keeps s₀ s)
    (h1 : ∀ n : Nvm, n.claimed = true → (f n).claimed = true) (h2 : ∀ n : Nvm, n.returned = true → (f n).returned = true)
    (h3 : ∀ n : Nvm, n.seedLock = true → (f n).seedLock = true) (h4 : ∀ n : Nvm, n.svnMin ≤ (f n).svnMin) :
    Keeps s₀ (s.modNvm f) := keeps_nvm hs (h1 _) (h2 _) (h3 _) (h4 _)

theorem keeps_State_modBank {s₀ : State} {s : State} {b : Nat} {f : Mem → Mem} (hs : Keeps s₀ s)
    (hf : memoriesWf s₀ = true → ∀ m : Mem, m.wf = true → (f m).wf = true) : Keeps s₀ (State.modBank s b f) := by
  unfold State.modBank
  repeat' first
    | with_reducible assumption | with_reducible intro _ | with_reducible apply keeps_ite
    | ((conv => arg 2; (try zeta); arg 30); with_reducible apply keeps_mem) | with_reducible apply hf
    | with_reducible refine wf_host (Keeps.wf ?_ (by assumption))
    | with_reducible refine wf_larder (Keeps.wf ?_ (by assumption))
    | with_reducible refine wf_attic (Keeps.wf ?_ (by assumption))
    | with_reducible refine wf_shelf (Keeps.wf ?_ (by assumption))
    | with_reducible refine wf_store (Keeps.wf ?_ (by assumption))

theorem keeps_State_bankZero {s₀ : State} {s : State} {b : Nat} (hs : Keeps s₀ s) : Keeps s₀ (State.bankZero s b) := by
  unfold State.bankZero
  repeat' first
    | with_reducible assumption | with_reducible intro _ | with_reducible apply keeps_State_modBank
    | with_reducible apply scrub_wf

theorem keeps_State_touchEpoch {s₀ : State} {s : State} {la : Nat} {n : Nat} (hs : Keeps s₀ s) :
    Keeps s₀ (State.touchEpoch s la n) := by
  unfold State.touchEpoch
  repeat' first
    | with_reducible assumption | with_reducible intro _ | with_reducible apply keeps_ite
    | with_reducible apply keeps_forAll | ((conv => arg 2; (try zeta); arg 30); with_reducible apply keeps_upd)

theorem keeps_State_zeroLarder {s₀ : State} {s : State} {d : Nat} (hs : Keeps s₀ s) : Keeps s₀ (State.zeroLarder s d) := by
  unfold State.zeroLarder
  repeat' first
    | with_reducible assumption | with_reducible intro _
    | ((conv => arg 2; (try zeta); arg 30); with_reducible apply keeps_mem) | with_reducible apply scrub_wf
    | with_reducible refine wf_host (Keeps.wf ?_ (by assumption))
    | with_reducible refine wf_larder (Keeps.wf ?_ (by assumption))
    | with_reducible refine wf_attic (Keeps.wf ?_ (by assumption))
    | with_reducible refine wf_shelf (Keeps.wf ?_ (by assumption))
    | with_reducible refine wf_store (Keeps.wf ?_ (by assumption))

theorem keeps_State_modLarder {s₀ : State} {s : State} {la : Nat} {n : Nat} {f : Mem → Mem} (hs : Keeps s₀ s)
    (hf : memoriesWf s₀ = true → ∀ m : Mem, m.wf = true → (f m).wf = true) : Keeps s₀ (State.modLarder s la n f) := by
  unfold State.modLarder
  repeat' first
    | with_reducible assumption | with_reducible intro _ | with_reducible apply keeps_State_touchEpoch
    | ((conv => arg 2; (try zeta); arg 30); with_reducible apply keeps_mem) | with_reducible apply hf
    | with_reducible refine wf_host (Keeps.wf ?_ (by assumption))
    | with_reducible refine wf_larder (Keeps.wf ?_ (by assumption))
    | with_reducible refine wf_attic (Keeps.wf ?_ (by assumption))
    | with_reducible refine wf_shelf (Keeps.wf ?_ (by assumption))
    | with_reducible refine wf_store (Keeps.wf ?_ (by assumption))

theorem keeps_State_larderWrite {s₀ : State} {s : State} {la : Nat} {bs : List Byte} {p : Bool} (hs : Keeps s₀ s) :
    Keeps s₀ (State.larderWrite s la bs p) := by
  unfold State.larderWrite
  repeat' first
    | with_reducible assumption | with_reducible intro _ | with_reducible apply keeps_State_modLarder
    | with_reducible apply writeP_wf

theorem keeps_State_hostWrite {s₀ : State} {s : State} {a : Nat} {bs : List Byte} (hs : Keeps s₀ s) :
    Keeps s₀ (State.hostWrite s a bs) := by
  unfold State.hostWrite
  repeat' first
    | with_reducible assumption | with_reducible intro _
    | ((conv => arg 2; (try zeta); arg 30); with_reducible apply keeps_mem) | with_reducible apply write_wf
    | with_reducible refine wf_host (Keeps.wf ?_ (by assumption))
    | with_reducible refine wf_larder (Keeps.wf ?_ (by assumption))
    | with_reducible refine wf_attic (Keeps.wf ?_ (by assumption))
    | with_reducible refine wf_shelf (Keeps.wf ?_ (by assumption))
    | with_reducible refine wf_store (Keeps.wf ?_ (by assumption))

theorem keeps_State_served {s₀ : State} {s : State} {a : Nat} {f : State → State} (hs : Keeps s₀ s)
    (hf : ∀ x0, Keeps s₀ x0 → Keeps s₀ (f x0)) : Keeps s₀ (State.served s a f) := by
  unfold State.served
  repeat' first | with_reducible assumption | with_reducible apply keeps_ite | with_reducible apply hf

theorem keeps_State_setPstate {s₀ : State} {s : State} {p : Nat} (hs : Keeps s₀ s) : Keeps s₀ (State.setPstate s p) := by
  unfold State.setPstate
  repeat' first | with_reducible assumption | with_reducible apply keeps_State_setFld

theorem keeps_State_trace {s₀ : State} {s : State} {cls : Nat} {die : Nat} {core : Nat} {slot : Nat} (hs : Keeps s₀ s) :
    Keeps s₀ (State.trace s cls die core slot) := by
  unfold State.trace
  repeat' first
    | with_reducible assumption | with_reducible apply keeps_ite | with_reducible apply keeps_State_setFld
    | with_reducible apply keeps_State_bump | with_reducible apply keeps_State_drawn
    | ((conv => arg 2; (try zeta); arg 30); with_reducible apply keeps_upd)

end Sys2Proof.Laws
end

