-- ==== Sys2Proof/Laws/KeepsFlags.lean ====
section
/-!
SUPPORT. Every operation of Sys2Proof/Machine/Flags.lean keeps what Sys2Proof/Laws/Keeps.lean names: the queue, the canonical
form of the memories and of the registers, and the fuses. The lemmas follow the order of the operations in that file.
-/
namespace Sys2Proof.Laws

open Sys2Proof.Machine

theorem keeps_State_raise {s₀ : State} {s : State} {v : Nat} (hs : Keeps s₀ s) : Keeps s₀ (State.raise s v) := by
  unfold State.raise
  repeat' first | with_reducible assumption | ((conv => arg 2; (try zeta); arg 30); with_reducible apply keeps_upd)

theorem keeps_State_syncAlert {s₀ : State} {s : State} (hs : Keeps s₀ s) : Keeps s₀ (State.syncAlert s) := by
  unfold State.syncAlert
  repeat' first | with_reducible assumption | with_reducible apply keeps_State_setFld

theorem keeps_State_moduleAlert {s₀ : State} {s : State} (hs : Keeps s₀ s) : Keeps s₀ (State.moduleAlert s) := by
  unfold State.moduleAlert
  repeat' first
    | with_reducible assumption | with_reducible apply keeps_ite | with_reducible apply keeps_State_setFld
    | with_reducible apply keeps_State_raise | ((conv => arg 2; (try zeta); arg 30); with_reducible apply keeps_upd)

theorem keeps_State_pwrAlert {s₀ : State} {s : State} {b : Nat} (hs : Keeps s₀ s) : Keeps s₀ (State.pwrAlert s b) := by
  unfold State.pwrAlert
  repeat' first
    | with_reducible assumption | with_reducible apply keeps_ite | with_reducible apply keeps_State_setFld
    | with_reducible apply keeps_State_syncAlert | with_reducible apply keeps_State_moduleAlert

theorem keeps_State_secAlert {s₀ : State} {s : State} {b : Nat} (hs : Keeps s₀ s) : Keeps s₀ (State.secAlert s b) := by
  unfold State.secAlert
  repeat' first
    | with_reducible assumption | with_reducible apply keeps_ite | with_reducible apply keeps_State_setFld
    | with_reducible apply keeps_State_syncAlert | with_reducible apply keeps_State_moduleAlert

theorem keeps_State_putEvent {s₀ : State} {s : State} {j : Nat} {ev : Event} (hs : Keeps s₀ s) :
    Keeps s₀ (State.putEvent s j ev) := by
  unfold State.putEvent
  repeat' first
    | with_reducible assumption | with_reducible apply keeps_ite | with_reducible apply keeps_State_setFld
    | with_reducible apply keeps_State_modQp | with_reducible apply keeps_State_hostWrite
    | with_reducible apply keeps_State_raise

theorem keeps_State_dropEvent {s₀ : State} {s : State} {j : Nat} (hs : Keeps s₀ s) : Keeps s₀ (State.dropEvent s j) := by
  unfold State.dropEvent
  repeat' first
    | with_reducible assumption | with_reducible apply keeps_State_bump | with_reducible apply keeps_State_modQp

theorem keeps_State_noteEvent {s₀ : State} {s : State} {j : Nat} {seq : Nat} {idx : Nat} (hs : Keeps s₀ s) :
    Keeps s₀ (State.noteEvent s j seq idx) := by
  unfold State.noteEvent
  repeat' first | with_reducible assumption | with_reducible apply keeps_State_modQp

theorem keeps_State_event {s₀ : State} {s : State} {j : Nat} {ev : Event} (hs : Keeps s₀ s) :
    Keeps s₀ (State.event s j ev) := by
  unfold State.event
  repeat' first
    | with_reducible assumption | with_reducible apply keeps_ite | with_reducible apply keeps_State_modQp
    | with_reducible apply keeps_State_putEvent | with_reducible apply keeps_State_dropEvent
    | with_reducible apply keeps_State_noteEvent | split

theorem keeps_State_internal {s₀ : State} {s : State} {j : Nat} {seq : Nat} {cause : Nat} (hs : Keeps s₀ s) :
    Keeps s₀ (State.internal s j seq cause) := by
  unfold State.internal
  repeat' first | with_reducible assumption | with_reducible apply keeps_State_event

end Sys2Proof.Laws
end

