-- ==== Sys2Proof/Laws/KeepsQueue.lean ====
section
/-!
SUPPORT. Every operation of Sys2Proof/Machine/Queue.lean keeps what Sys2Proof/Laws/Keeps.lean names: the queue, the canonical
form of the memories and of the registers, and the fuses. The lemmas follow the order of the operations in that file.
-/
namespace Sys2Proof.Laws

open Sys2Proof.Machine

theorem keeps_State_postEntry {s₀ : State} {s : State} {j : Nat} {e : List Byte} {irq : Bool} (hs : Keeps s₀ s) :
    Keeps s₀ (State.postEntry s j e irq) := by
  unfold State.postEntry
  repeat' first
    | with_reducible assumption | with_reducible apply keeps_ite | with_reducible apply keeps_State_setFld
    | with_reducible apply keeps_State_bump | with_reducible apply keeps_State_modQp
    | with_reducible apply keeps_State_hostWrite | with_reducible apply keeps_State_raise

theorem keeps_State_postHeld {s₀ : State} {s : State} {j : Nat} (hs : Keeps s₀ s) : Keeps s₀ (State.postHeld s j) := by
  unfold State.postHeld
  repeat' first
    | with_reducible assumption | with_reducible apply keeps_ite | with_reducible apply keeps_State_modQp
    | with_reducible apply keeps_State_postEntry | split

theorem keeps_State_postOrHold {s₀ : State} {s : State} {j : Nat} {e : List Byte} {irq : Bool} (hs : Keeps s₀ s) :
    Keeps s₀ (State.postOrHold s j e irq) := by
  unfold State.postOrHold
  repeat' first
    | with_reducible assumption | with_reducible apply keeps_ite | with_reducible apply keeps_State_modQp
    | with_reducible apply keeps_State_postEntry

theorem keeps_State_conclude {s₀ : State} {s : State} {j : Nat} {c : Cmd} {st : Nat} (hs : Keeps s₀ s) :
    Keeps s₀ (State.conclude s j c st) := by
  unfold State.conclude
  repeat' first
    | with_reducible assumption | with_reducible apply keeps_State_modQp | with_reducible apply keeps_State_postOrHold

theorem keeps_State_params {s₀ : State} {s : State} {j : Nat} (hs : Keeps s₀ s) : Keeps s₀ (State.params s j) := by
  unfold State.params
  repeat' first | with_reducible assumption | with_reducible apply keeps_State_modQp

theorem keeps_State_complete {s₀ : State} {s : State} {j : Nat} {c : Cmd} {st : Nat} (hs : Keeps s₀ s) :
    Keeps s₀ (State.complete s j c st) := by
  unfold State.complete
  repeat' first
    | with_reducible assumption | with_reducible apply keeps_State_modQp | with_reducible apply keeps_State_params
    | with_reducible apply keeps_State_conclude

theorem keeps_State_modCmd {s₀ : State} {s : State} {j : Nat} {seq : Nat} {f : Cmd → Cmd} (hs : Keeps s₀ s) :
    Keeps s₀ (State.modCmd s j seq f) := by
  unfold State.modCmd
  repeat' first | with_reducible assumption | with_reducible apply keeps_State_modQp

theorem keeps_State_outcome {s₀ : State} {s : State} {j : Nat} {seq : Nat} {st : Nat} (hs : Keeps s₀ s) :
    Keeps s₀ (State.outcome s j seq st) := by
  unfold State.outcome
  repeat' first | with_reducible assumption | with_reducible apply keeps_State_modCmd

theorem keeps_State_deadlineWins {s₀ : State} {s : State} {j : Nat} {seq : Nat} (hs : Keeps s₀ s) :
    Keeps s₀ (State.deadlineWins s j seq) := by
  unfold State.deadlineWins
  repeat' first
    | with_reducible assumption | with_reducible apply keeps_State_bump | with_reducible apply keeps_State_event
    | with_reducible apply keeps_State_outcome | split

theorem keeps_State_internally {s₀ : State} {s : State} {j : Nat} {seq : Nat} (hs : Keeps s₀ s) :
    Keeps s₀ (State.internally s j seq) := by
  unfold State.internally
  repeat' first
    | with_reducible assumption | with_reducible apply keeps_ite | with_reducible apply keeps_State_bump
    | with_reducible apply keeps_State_drawn | with_reducible apply keeps_State_modCmd
    | with_reducible apply keeps_State_deadlineWins | split

theorem keeps_State_postCmd {s₀ : State} {s : State} {j : Nat} {seq : Nat} (hs : Keeps s₀ s) :
    Keeps s₀ (State.postCmd s j seq) := by
  unfold State.postCmd
  repeat' first | with_reducible assumption | with_reducible apply keeps_State_complete | split

theorem keeps_State_finish {s₀ : State} {s : State} {j : Nat} {seq : Nat} (hs : Keeps s₀ s) :
    Keeps s₀ (State.finish s j seq) := by
  unfold State.finish
  repeat' first
    | with_reducible assumption | with_reducible apply keeps_State_internally | with_reducible apply keeps_State_postCmd

theorem keeps_State_refuse {s₀ : State} {s : State} {j : Nat} {seq : Nat} {st : Nat} (hs : Keeps s₀ s) :
    Keeps s₀ (State.refuse s j seq st) := by
  unfold State.refuse
  repeat' first
    | with_reducible assumption | with_reducible apply keeps_State_modCmd | with_reducible apply keeps_State_outcome
    | with_reducible apply keeps_State_finish

theorem keeps_State_fetchOne {s₀ : State} {s : State} {j : Nat} (hs : Keeps s₀ s) : Keeps s₀ (State.fetchOne s j) := by
  unfold State.fetchOne
  repeat' first
    | with_reducible assumption | with_reducible apply keeps_State_setFld | with_reducible apply keeps_State_modQp
    | with_reducible apply keeps_State_conclude | with_reducible apply keeps_State_params
    | ((conv => arg 2; zeta); split)

theorem keeps_fetchLoop {s₀ : State} {n : Nat} {s : State} {j : Nat} (hs : Keeps s₀ s) : Keeps s₀ (fetchLoop n s j) := by
  induction n generalizing s with
  | zero => exact hs
  | succ n ih =>
    unfold fetchLoop
    split
    · exact ih (keeps_State_fetchOne hs)
    · exact hs

theorem keeps_State_fetch {s₀ : State} {s : State} {j : Nat} (hs : Keeps s₀ s) : Keeps s₀ (State.fetch s j) := by
  unfold State.fetch
  repeat' first | with_reducible assumption | with_reducible apply keeps_fetchLoop

theorem keeps_State_fetchAll {s₀ : State} {s : State} (hs : Keeps s₀ s) : Keeps s₀ (State.fetchAll s) := by
  unfold State.fetchAll
  repeat' first
    | with_reducible assumption | with_reducible intro _ | with_reducible apply keeps_forAll
    | with_reducible apply keeps_State_fetch

theorem keeps_State_start {s₀ : State} {s : State} {j : Nat} {p : Cmd → Bool} {f : State → Cmd → State} (hs : Keeps s₀ s)
    (hf : ∀ x0 x1, Keeps s₀ x0 → Keeps s₀ (f x0 x1)) : Keeps s₀ (State.start s j p f) := by
  unfold State.start
  repeat' first
    | with_reducible assumption | with_reducible apply keeps_ite | with_reducible apply keeps_State_internal
    | with_reducible apply keeps_State_modCmd | with_reducible apply keeps_State_refuse
    | with_reducible apply keeps_State_params | with_reducible apply hf | split

theorem keeps_State_startOnDie {s₀ : State} {s : State} {j : Nat} {p : Cmd → Bool} {f : State → Cmd → State}
    (hs : Keeps s₀ s) (hf : ∀ x0 x1, Keeps s₀ x0 → Keeps s₀ (f x0 x1)) : Keeps s₀ (State.startOnDie s j p f) := by
  unfold State.startOnDie
  repeat' first
    | with_reducible assumption | with_reducible apply keeps_ite | with_reducible apply keeps_State_start
    | ((conv => arg 2; (try zeta); arg 30); with_reducible apply keeps_upd)

theorem keeps_State_putQcfg {s₀ : State} {s : State} {j : Nat} {cfg : Nat} (hs : Keeps s₀ s) :
    Keeps s₀ (State.putQcfg s j cfg) := by
  unfold State.putQcfg
  repeat' first | with_reducible assumption | with_reducible apply keeps_setReg

theorem keeps_State_qpEnable {s₀ : State} {s : State} {j : Nat} {cfg : Nat} (hs : Keeps s₀ s) :
    Keeps s₀ (State.qpEnable s j cfg) := by
  unfold State.qpEnable
  repeat' first
    | with_reducible assumption | with_reducible apply keeps_State_setFld | with_reducible apply keeps_State_setQp
    | with_reducible apply keeps_State_putQcfg

theorem keeps_State_qpDisable {s₀ : State} {s : State} {j : Nat} {cfg : Nat} (hs : Keeps s₀ s) :
    Keeps s₀ (State.qpDisable s j cfg) := by
  unfold State.qpDisable
  repeat' first
    | with_reducible assumption | with_reducible apply keeps_ite | with_reducible apply keeps_State_setFld
    | with_reducible apply keeps_State_putQcfg

theorem keeps_State_qcfgWrite {s₀ : State} {s : State} {j : Nat} {cfg : Nat} (hs : Keeps s₀ s) :
    Keeps s₀ (State.qcfgWrite s j cfg) := by
  unfold State.qcfgWrite
  repeat' first
    | with_reducible assumption | with_reducible apply keeps_ite | with_reducible apply keeps_State_setFld
    | with_reducible apply keeps_State_putQcfg | with_reducible apply keeps_State_qpEnable
    | with_reducible apply keeps_State_qpDisable

theorem keeps_State_qpError {s₀ : State} {s : State} {j : Nat} {cause : Nat} (hs : Keeps s₀ s) :
    Keeps s₀ (State.qpError s j cause) := by
  unfold State.qpError
  repeat' first | with_reducible assumption | with_reducible apply keeps_ite | with_reducible apply keeps_State_setFld

theorem keeps_State_sqTail {s₀ : State} {s : State} {j : Nat} {v : Nat} (hs : Keeps s₀ s) :
    Keeps s₀ (State.sqTail s j v) := by
  unfold State.sqTail
  repeat' first
    | with_reducible assumption | with_reducible apply keeps_ite | with_reducible apply keeps_State_setFld
    | with_reducible apply keeps_State_fetch | with_reducible apply keeps_State_qpError

theorem keeps_State_cqHead {s₀ : State} {s : State} {j : Nat} {v : Nat} (hs : Keeps s₀ s) :
    Keeps s₀ (State.cqHead s j v) := by
  unfold State.cqHead
  repeat' first
    | with_reducible assumption | with_reducible apply keeps_ite | with_reducible apply keeps_State_setFld
    | with_reducible apply keeps_State_modQp | with_reducible apply keeps_State_qpError

theorem keeps_State_evtHead {s₀ : State} {s : State} {j : Nat} {v : Nat} (hs : Keeps s₀ s) :
    Keeps s₀ (State.evtHead s j v) := by
  unfold State.evtHead
  repeat' first
    | with_reducible assumption | with_reducible apply keeps_ite | with_reducible apply keeps_State_setFld
    | with_reducible apply keeps_State_modQp | with_reducible apply keeps_State_qpError

theorem keeps_execQpEnable {s₀ : State} {j : Slot} {cfg : Nat} {s : State} (hs : Keeps s₀ s) :
    KeepsO s₀ (execQpEnable j cfg s) := by
  unfold execQpEnable
  repeat' first
    | with_reducible assumption | with_reducible intro _ | with_reducible apply keeps_next
    | with_reducible apply keeps_State_served | with_reducible apply keeps_State_qcfgWrite

theorem keeps_execQpDisable {s₀ : State} {j : Slot} {cfg : Nat} {s : State} (hs : Keeps s₀ s) :
    KeepsO s₀ (execQpDisable j cfg s) := by
  unfold execQpDisable
  repeat' first
    | with_reducible assumption | with_reducible intro _ | with_reducible apply keeps_next
    | with_reducible apply keeps_State_served | with_reducible apply keeps_State_qcfgWrite

theorem keeps_execSqTailDoorbell {s₀ : State} {j : Slot} {v : Nat} {s : State} (hs : Keeps s₀ s) :
    KeepsO s₀ (execSqTailDoorbell j v s) := by
  unfold execSqTailDoorbell
  repeat' first
    | with_reducible assumption | with_reducible intro _ | with_reducible apply keeps_next
    | with_reducible apply keeps_State_served | with_reducible apply keeps_State_sqTail

theorem keeps_execCqHeadDoorbell {s₀ : State} {j : Slot} {v : Nat} {s : State} (hs : Keeps s₀ s) :
    KeepsO s₀ (execCqHeadDoorbell j v s) := by
  unfold execCqHeadDoorbell
  repeat' first
    | with_reducible assumption | with_reducible intro _ | with_reducible apply keeps_next
    | with_reducible apply keeps_State_served | with_reducible apply keeps_State_cqHead

theorem keeps_execEvtHeadDoorbell {s₀ : State} {j : Slot} {v : Nat} {s : State} (hs : Keeps s₀ s) :
    KeepsO s₀ (execEvtHeadDoorbell j v s) := by
  unfold execEvtHeadDoorbell
  repeat' first
    | with_reducible assumption | with_reducible intro _ | with_reducible apply keeps_next
    | with_reducible apply keeps_State_served | with_reducible apply keeps_State_evtHead

theorem keeps_execCompletionPost {s₀ : State} {j : Slot} {s : State} (hs : Keeps s₀ s) :
    KeepsO s₀ (execCompletionPost j s) := by
  unfold execCompletionPost
  repeat' first
    | with_reducible assumption | with_reducible apply keeps_next | with_reducible apply keeps_State_postHeld

theorem keeps_execHostBusError {s₀ : State} {j : Slot} {point : BusPoint} {s : State} (hs : Keeps s₀ s) :
    KeepsO s₀ (execHostBusError j point s) := by
  unfold execHostBusError
  repeat' first
    | with_reducible assumption | with_reducible apply keeps_next | with_reducible apply keeps_ite
    | with_reducible apply keeps_State_modCmd | with_reducible apply keeps_State_outcome
    | with_reducible apply keeps_State_refuse | with_reducible apply keeps_State_qpError | split

end Sys2Proof.Laws
end

