-- ==== Sys2Proof/Laws/KeepsAccess.lean ====
section
/-!
SUPPORT. Every operation of Sys2Proof/Machine/Access.lean keeps what Sys2Proof/Laws/Keeps.lean names: the queue, the canonical
form of the memories and of the registers, and the fuses. The lemmas follow the order of the operations in that file.
-/
namespace Sys2Proof.Laws

open Sys2Proof.Machine

theorem keeps_State_setTierMem {s₀ : State} {s : State} {tier : Nat} {m : Mem} (hs : Keeps s₀ s)
    (hm : memoriesWf s₀ = true → m.wf = true) : Keeps s₀ (State.setTierMem s tier m) := by
  unfold State.setTierMem
  repeat' first
    | with_reducible assumption | with_reducible intro _ | with_reducible apply keeps_ite
    | ((conv => arg 2; (try zeta); arg 30); with_reducible apply keeps_mem)
    | with_reducible refine wf_host (Keeps.wf ?_ (by assumption))
    | with_reducible refine wf_larder (Keeps.wf ?_ (by assumption))
    | with_reducible refine wf_attic (Keeps.wf ?_ (by assumption))
    | with_reducible refine wf_shelf (Keeps.wf ?_ (by assumption))
    | with_reducible refine wf_store (Keeps.wf ?_ (by assumption))

theorem keeps_State_scramble {s₀ : State} {s : State} {tier : Nat} {key : Nat} {n : Nat} {pois : Option Bool}
    (hs : Keeps s₀ s) : Keeps s₀ (State.scramble s tier key n pois) := by
  unfold State.scramble
  repeat' first
    | with_reducible assumption | with_reducible intro _ | with_reducible apply keeps_State_drawn
    | with_reducible apply keeps_State_setTierMem | with_reducible apply spellPoison_wf | with_reducible apply spell_wf
    | with_reducible apply setPoison_wf | with_reducible refine wf_tierMem (Keeps.wf ?_ (by assumption)) | split

theorem keeps_State_bankWake {s₀ : State} {s : State} {b : Nat} (hs : Keeps s₀ s) : Keeps s₀ (State.bankWake s b) := by
  unfold State.bankWake
  repeat' first
    | with_reducible assumption | with_reducible apply keeps_ite | with_reducible apply keeps_State_setFld
    | with_reducible apply keeps_State_bankZero | ((conv => arg 2; (try zeta); arg 30); with_reducible apply keeps_upd)

theorem keeps_State_bankSleep {s₀ : State} {s : State} {b : Nat} {dest : Nat} (hs : Keeps s₀ s) :
    Keeps s₀ (State.bankSleep s b dest) := by
  unfold State.bankSleep
  repeat' first
    | with_reducible assumption | with_reducible apply keeps_ite | with_reducible apply keeps_State_setFld
    | with_reducible apply keeps_State_bankZero

theorem keeps_State_bankReady {s₀ : State} {s : State} {b : Nat} (hs : Keeps s₀ s) : Keeps s₀ (State.bankReady s b) := by
  unfold State.bankReady
  repeat' first
    | with_reducible assumption | with_reducible apply keeps_ite | with_reducible apply keeps_State_bump
    | with_reducible apply keeps_State_drawn | with_reducible apply keeps_State_bankWake

theorem keeps_State_setOwner {s₀ : State} {s : State} {b : Nat} {code : Nat} {job : Option Nat} (hs : Keeps s₀ s) :
    Keeps s₀ (State.setOwner s b code job) := by
  unfold State.setOwner
  repeat' first
    | with_reducible assumption | with_reducible apply keeps_State_setFld | with_reducible apply keeps_State_trace
    | split

theorem keeps_State_refuseOwner {s₀ : State} {s : State} {b : Nat} {code : Nat} (hs : Keeps s₀ s) :
    Keeps s₀ (State.refuseOwner s b code) := by
  unfold State.refuseOwner
  repeat' first
    | with_reducible assumption | with_reducible apply keeps_State_setFld | with_reducible apply keeps_State_bump

theorem keeps_State_tryOwn {s₀ : State} {s : State} {b : Nat} {code : Nat} {job : Option Nat} (hs : Keeps s₀ s) :
    Keeps s₀ (State.tryOwn s b code job) := by
  unfold State.tryOwn
  repeat' first
    | with_reducible assumption | with_reducible apply keeps_ite | with_reducible apply keeps_State_setOwner
    | with_reducible apply keeps_State_refuseOwner

theorem keeps_State_modRun {s₀ : State} {s : State} {lead : Nat} {f : Run → Run} (hs : Keeps s₀ s) :
    Keeps s₀ (State.modRun s lead f) := by
  unfold State.modRun
  repeat' first | with_reducible assumption | with_reducible apply keeps_State_modJob

theorem keeps_State_bankEvent {s₀ : State} {s : State} {job : Nat} {b : Nat} {type : Nat} {word : Nat} (hs : Keeps s₀ s) :
    Keeps s₀ (State.bankEvent s job b type word) := by
  unfold State.bankEvent
  repeat' first
    | with_reducible assumption | with_reducible apply keeps_ite | with_reducible apply keeps_State_event
    | with_reducible apply keeps_State_modRun | split

theorem keeps_State_nonOwner {s₀ : State} {s : State} {b : Nat} {unit : Nat} {off : Nat} {n : Nat} {write : Bool}
    {job : Option Nat} (hs : Keeps s₀ s) : Keeps s₀ (State.nonOwner s b unit off n write job) := by
  unfold State.nonOwner
  repeat' first
    | with_reducible assumption | with_reducible apply keeps_ite | with_reducible apply keeps_setReg
    | with_reducible apply keeps_State_setFld | with_reducible apply keeps_State_bump
    | with_reducible apply keeps_State_bankEvent | split

theorem keeps_State_allow {s₀ : State} {s : State} {unit : Nat} {write : Bool} {job : Option Nat} {p : Place}
    (hs : Keeps s₀ s) : KeepsP s₀ (State.allow s unit write job p) := by
  unfold State.allow
  repeat' first
    | with_reducible assumption | with_reducible intro _ | with_reducible apply keepsP_ite
    | with_reducible apply keeps_State_bankReady | with_reducible apply keeps_State_nonOwner
    | with_reducible apply keeps_foldlP
    | ((fail_if_success (conv => arg 2; (try zeta); arg 3)); with_reducible apply keepsP_mk)
    | with_reducible exact keeps_fst (by assumption)

theorem keeps_State_view {s₀ : State} {s : State} {unit : Nat} {job : Option Nat} {p : Place} (hs : Keeps s₀ s) :
    KeepsP s₀ (State.view s unit job p) := by
  unfold State.view
  repeat' first
    | with_reducible assumption | with_reducible apply keeps_State_allow
    | ((fail_if_success (conv => arg 2; (try zeta); arg 3)); with_reducible apply keepsP_mk)
    | with_reducible refine keeps_eq (by assumption) ?_ | split

/-- What a unit reads of a tier is canonical. -/
theorem wf_view {s₀ s : State} {unit : Nat} {job : Option Nat} {p : Place} (hs : Keeps s₀ s) (w : memoriesWf s₀ = true) :
    (s.view unit job p).2.wf = true := by
  unfold State.view
  exact foldl_wf (fun _ _ h => scrub_wf _ _ h) _ (wf_tierMem (Keeps.wf (keeps_fst (keeps_State_allow hs)) w))

theorem keeps_State_allowAll {s₀ : State} {s : State} {unit : Nat} {write : Bool} {job : Option Nat} {ps : List Place}
    (hs : Keeps s₀ s) : KeepsP s₀ (State.allowAll s unit write job ps) := by
  unfold State.allowAll
  repeat' first
    | with_reducible assumption | with_reducible intro _
    | (with_reducible refine keeps_fst ?_; with_reducible apply keeps_State_allow) | with_reducible apply keeps_foldlP
    | ((fail_if_success (conv => arg 2; (try zeta); arg 3)); with_reducible apply keepsP_mk)
    | with_reducible exact keeps_fst (by assumption)

theorem keeps_State_settle {s₀ : State} {s : State} {tier : Nat} {touched : Nat → Bool} {hit : Nat → Bool} {f : Mem → Mem}
    (hs : Keeps s₀ s) (hf : memoriesWf s₀ = true → ∀ m : Mem, m.wf = true → (f m).wf = true) :
    Keeps s₀ (State.settle s tier touched hit f) := by
  unfold State.settle
  repeat' first
    | with_reducible assumption | with_reducible intro _ | with_reducible apply keeps_forAll
    | with_reducible apply keeps_State_modDie | with_reducible apply keeps_State_setTierMem | with_reducible apply hf
    | with_reducible apply setPoison_wf | with_reducible apply foldl_wf
    | with_reducible refine wf_tierMem (Keeps.wf ?_ (by assumption)) | split

theorem keeps_State_changeBut {s₀ : State} {s : State} {tier : Nat} {ps : List Place} {no : List (Nat × Nat)}
    {f : Mem → Mem} {hit : Nat → Bool} (hs : Keeps s₀ s)
    (hf : memoriesWf s₀ = true → ∀ m : Mem, m.wf = true → (f m).wf = true) :
    Keeps s₀ (State.changeBut s tier ps no f hit) := by
  unfold State.changeBut
  repeat' first
    | with_reducible assumption | with_reducible intro _ | with_reducible apply keeps_ite
    | with_reducible apply keeps_forAll | with_reducible apply keeps_State_touchEpoch
    | with_reducible apply keeps_State_settle | with_reducible apply hf | with_reducible apply copy_wf
    | with_reducible apply foldl_wf

theorem keeps_State_updateIn {s₀ : State} {s : State} {unit : Nat} {job : Option Nat} {tier : Nat} {ps : List Place}
    {f : Mem → Mem} {hit : Nat → Bool} (hs : Keeps s₀ s)
    (hf : memoriesWf s₀ = true → ∀ m : Mem, m.wf = true → (f m).wf = true) :
    Keeps s₀ (State.updateIn s unit job tier ps f hit) := by
  unfold State.updateIn
  repeat' first
    | with_reducible assumption | with_reducible apply keeps_State_changeBut
    | (with_reducible refine keeps_fst ?_; with_reducible apply keeps_State_allowAll)

theorem keeps_State_update {s₀ : State} {s : State} {unit : Nat} {job : Option Nat} {p : Place} {f : Mem → Mem}
    (hs : Keeps s₀ s) (hf : memoriesWf s₀ = true → ∀ m : Mem, m.wf = true → (f m).wf = true) :
    Keeps s₀ (State.update s unit job p f) := by
  unfold State.update
  repeat' first | with_reducible assumption | with_reducible apply keeps_State_updateIn

theorem keeps_State_consume {s₀ : State} {s : State} {lead : Nat} {slot : Nat} {tier : Nat} {addr : Nat} {how : Nat}
    {die : Option Nat} (hs : Keeps s₀ s) : Keeps s₀ (State.consume s lead slot tier addr how die) := by
  unfold State.consume
  repeat' first
    | with_reducible assumption | with_reducible apply keeps_ite | with_reducible apply keeps_State_event
    | with_reducible apply keeps_State_modRun | split

theorem keeps_State_poisonLog {s₀ : State} {s : State} {source : Nat} {la : Nat} (hs : Keeps s₀ s) :
    Keeps s₀ (State.poisonLog s source la) := by
  unfold State.poisonLog
  repeat' first | with_reducible assumption | with_reducible apply keeps_ite | with_reducible apply keeps_setReg

theorem keeps_State_engineOn {s₀ : State} {s : State} {d : Nat} {e : Nat} {source : Nat} {job : Nat} (hs : Keeps s₀ s) :
    Keeps s₀ (State.engineOn s d e source job) := by
  unfold State.engineOn
  repeat' first | with_reducible assumption | with_reducible apply keeps_State_setFld

theorem keeps_State_engineOff {s₀ : State} {s : State} {d : Nat} {e : Nat} {n : Nat} {p : Nat} (hs : Keeps s₀ s) :
    Keeps s₀ (State.engineOff s d e n p) := by
  unfold State.engineOff
  repeat' first
    | with_reducible assumption | with_reducible apply keeps_State_setFld | with_reducible apply keeps_State_bump

end Sys2Proof.Laws
end

