-- ==== Sys2Proof/Laws/KeepsBanks.lean ====
section
/-!
SUPPORT. Every operation of Sys2Proof/Machine/Banks.lean keeps what Sys2Proof/Laws/Keeps.lean names: the queue, the canonical
form of the memories and of the registers, and the fuses. The lemmas follow the order of the operations in that file.
-/
namespace Sys2Proof.Laws

open Sys2Proof.Machine

theorem keeps_State_bankOwnWrite {s₀ : State} {s : State} {b : Nat} {v : Nat} (hs : Keeps s₀ s) :
    Keeps s₀ (State.bankOwnWrite s b v) := by
  unfold State.bankOwnWrite
  repeat' first
    | with_reducible assumption | with_reducible apply keeps_ite | with_reducible apply keeps_State_setFld
    | with_reducible apply keeps_State_tryOwn

theorem keeps_execBankOwnWrite {s₀ : State} {b : BankNo} {v : Nat} {s : State} (hs : Keeps s₀ s) :
    KeepsO s₀ (execBankOwnWrite b v s) := by
  unfold execBankOwnWrite
  repeat' first
    | with_reducible assumption | with_reducible intro _ | with_reducible apply keeps_next
    | with_reducible apply keeps_State_served | with_reducible apply keeps_State_bankOwnWrite

theorem keeps_State_setHanded {s₀ : State} {s : State} {lead : Nat} {place : Nat} {boundary : Nat} (hs : Keeps s₀ s) :
    Keeps s₀ (State.setHanded s lead place boundary) := by
  unfold State.setHanded
  repeat' first | with_reducible assumption | with_reducible apply keeps_State_modRun

theorem keeps_execHandoverWrite {s₀ : State} {j : Slot} {b : BankNo} {s : State} (hs : Keeps s₀ s) :
    KeepsO s₀ (execHandoverWrite j b s) := by
  unfold execHandoverWrite
  repeat' first
    | with_reducible assumption | with_reducible apply keeps_next | with_reducible apply keeps_ite
    | with_reducible apply keeps_State_bump | with_reducible apply keeps_State_setOwner
    | with_reducible apply keeps_State_refuseOwner | with_reducible apply keeps_State_setHanded | split

theorem keeps_State_bankTransBegin {s₀ : State} {s : State} {b : Nat} (hs : Keeps s₀ s) :
    Keeps s₀ (State.bankTransBegin s b) := by
  unfold State.bankTransBegin
  repeat' first
    | with_reducible assumption | with_reducible apply keeps_ite | with_reducible apply keeps_State_setFld
    | ((conv => arg 2; (try zeta); arg 30); with_reducible apply keeps_upd)

theorem keeps_State_bankPwrReq {s₀ : State} {s : State} {b : Nat} {v : Nat} (hs : Keeps s₀ s) :
    Keeps s₀ (State.bankPwrReq s b v) := by
  unfold State.bankPwrReq
  repeat' first
    | with_reducible assumption | with_reducible apply keeps_ite | with_reducible apply keeps_State_setFld
    | with_reducible apply keeps_State_bankTransBegin

theorem keeps_execBankPwrReqWrite {s₀ : State} {b : BankNo} {v : Nat} {s : State} (hs : Keeps s₀ s) :
    KeepsO s₀ (execBankPwrReqWrite b v s) := by
  unfold execBankPwrReqWrite
  repeat' first
    | with_reducible assumption | with_reducible intro _ | with_reducible apply keeps_next
    | with_reducible apply keeps_State_served | with_reducible apply keeps_State_bankPwrReq

theorem keeps_execBankPowerTransition {s₀ : State} {b : BankNo} {s : State} (hs : Keeps s₀ s) :
    KeepsO s₀ (execBankPowerTransition b s) := by
  unfold execBankPowerTransition
  repeat' first
    | with_reducible assumption | with_reducible apply keeps_next | with_reducible apply keeps_ite
    | with_reducible apply keeps_State_setFld | with_reducible apply keeps_State_bankZero
    | with_reducible apply keeps_State_bankTransBegin
    | ((conv => arg 2; (try zeta); arg 30); with_reducible apply keeps_upd) | split

theorem keeps_State_dbgRead {s₀ : State} {s : State} {b : Nat} (hs : Keeps s₀ s) : KeepsP s₀ (State.dbgRead s b) := by
  unfold State.dbgRead
  repeat' first
    | with_reducible assumption | with_reducible apply keepsP_ite | with_reducible apply keeps_State_setFld
    | with_reducible apply keeps_State_bankReady | with_reducible apply keeps_State_nonOwner
    | ((fail_if_success (conv => arg 2; (try zeta); arg 3)); with_reducible apply keepsP_mk) | split

theorem keeps_State_dbgWrite {s₀ : State} {s : State} {b : Nat} {skip : Nat} {n : Nat} {v : Nat} (hs : Keeps s₀ s) :
    Keeps s₀ (State.dbgWrite s b skip n v) := by
  unfold State.dbgWrite
  repeat' first
    | with_reducible assumption | with_reducible intro _ | with_reducible apply keeps_ite
    | with_reducible apply keeps_State_bankReady | with_reducible apply keeps_State_nonOwner
    | with_reducible apply keeps_State_changeBut | with_reducible apply write_wf | split

theorem keeps_execBankDbgRead {s₀ : State} {b : BankNo} {s : State} (hs : Keeps s₀ s) : KeepsO s₀ (execBankDbgRead b s) := by
  unfold execBankDbgRead
  repeat' first
    | with_reducible assumption | with_reducible apply keeps_next
    | (with_reducible refine keeps_fst ?_; with_reducible apply keeps_State_dbgRead)
    | ((conv => arg 2; (try zeta); arg 30); with_reducible apply keeps_upd) | split

theorem keeps_execBankDbgWrite {s₀ : State} {b : BankNo} {v : Nat} {s : State} (hs : Keeps s₀ s) :
    KeepsO s₀ (execBankDbgWrite b v s) := by
  unfold execBankDbgWrite
  repeat' first
    | with_reducible assumption | with_reducible intro _ | with_reducible apply keeps_next
    | with_reducible apply keeps_State_served | with_reducible apply keeps_State_dbgWrite

theorem keeps_State_countCe {s₀ : State} {s : State} {b : Nat} (hs : Keeps s₀ s) : Keeps s₀ (State.countCe s b) := by
  unfold State.countCe
  repeat' first
    | with_reducible assumption | with_reducible apply keeps_State_setFld | with_reducible apply keeps_State_bump

theorem keeps_State_pendBack {s₀ : State} {s : State} {b : Nat} {off : Nat} {ue : Bool} (hs : Keeps s₀ s) :
    Keeps s₀ (State.pendBack s b off ue) := by
  unfold State.pendBack
  repeat' first
    | with_reducible assumption | with_reducible intro _ | with_reducible apply keeps_ite
    | with_reducible apply keeps_State_modDie | with_reducible apply keeps_State_modBank
    | with_reducible apply setPoison_wf

theorem keeps_State_poisonCopies {s₀ : State} {s : State} {b : Nat} {off : Nat} {mask : Nat} (hs : Keeps s₀ s) :
    Keeps s₀ (State.poisonCopies s b off mask) := by
  unfold State.poisonCopies
  repeat' first
    | with_reducible assumption | with_reducible intro _ | with_reducible apply keeps_ite
    | with_reducible apply keeps_State_settle | with_reducible apply keeps_State_countCe
    | with_reducible apply setPoison_wf

theorem keeps_State_writeBack {s₀ : State} {s : State} {b : Nat} {off : Nat} (hs : Keeps s₀ s) :
    Keeps s₀ (State.writeBack s b off) := by
  unfold State.writeBack
  repeat' first | with_reducible assumption | with_reducible apply keeps_State_modDie

theorem keeps_execEccWriteback {s₀ : State} {b : BankNo} {e : EccEvent} {s : State} (hs : Keeps s₀ s) :
    KeepsO s₀ (execEccWriteback b e s) := by
  unfold execEccWriteback
  repeat' first
    | with_reducible assumption | with_reducible apply keeps_next | with_reducible apply keeps_ite
    | with_reducible apply keeps_State_setFld | with_reducible apply keeps_State_bump
    | with_reducible apply keeps_State_countCe | with_reducible apply keeps_State_pendBack
    | with_reducible apply keeps_State_poisonCopies | with_reducible apply keeps_State_writeBack | split

theorem keeps_State_atticErr {s₀ : State} {s : State} {x : Nat} {f : Fld} {aa : Nat} (hs : Keeps s₀ s) :
    Keeps s₀ (State.atticErr s x f aa) := by
  unfold State.atticErr
  repeat' first | with_reducible assumption | with_reducible apply keeps_ite | with_reducible apply keeps_State_setFld

theorem keeps_State_atticLost {s₀ : State} {s : State} {q : AtticReq} (hs : Keeps s₀ s) : Keeps s₀ (State.atticLost s q) := by
  unfold State.atticLost
  repeat' first
    | with_reducible assumption | with_reducible apply keeps_ite | with_reducible apply keeps_State_event
    | with_reducible apply keeps_State_outcome | with_reducible apply keeps_State_modRun | split

theorem keeps_State_atticLose {s₀ : State} {s : State} {q : AtticReq} (hs : Keeps s₀ s) : Keeps s₀ (State.atticLose s q) := by
  unfold State.atticLose
  repeat' first
    | with_reducible assumption | with_reducible intro _ | with_reducible apply keeps_State_drawnN
    | with_reducible apply keeps_State_atticErr | with_reducible apply keeps_State_atticLost
    | ((conv => arg 2; (try zeta); arg 30); with_reducible apply keeps_mem) | with_reducible apply write_wf
    | with_reducible refine wf_host (Keeps.wf ?_ (by assumption))
    | with_reducible refine wf_larder (Keeps.wf ?_ (by assumption))
    | with_reducible refine wf_attic (Keeps.wf ?_ (by assumption))
    | with_reducible refine wf_shelf (Keeps.wf ?_ (by assumption))
    | with_reducible refine wf_store (Keeps.wf ?_ (by assumption))

theorem keeps_State_atticNextUp {s₀ : State} {s : State} {port : Nat} {write : Bool} (hs : Keeps s₀ s) :
    Keeps s₀ (State.atticNextUp s port write) := by
  unfold State.atticNextUp
  repeat' first
    | with_reducible assumption | ((conv => arg 2; (try zeta); arg 30); with_reducible apply keeps_upd) | split

theorem keeps_State_atticDrop {s₀ : State} {s : State} {q : AtticReq} (hs : Keeps s₀ s) : Keeps s₀ (State.atticDrop s q) := by
  unfold State.atticDrop
  repeat' first
    | with_reducible assumption | with_reducible apply keeps_State_atticNextUp
    | ((conv => arg 2; (try zeta); arg 30); with_reducible apply keeps_upd)

theorem keeps_State_atticExpire {s₀ : State} {s : State} {q : AtticReq} (hs : Keeps s₀ s) :
    Keeps s₀ (State.atticExpire s q) := by
  unfold State.atticExpire
  repeat' first
    | with_reducible assumption | with_reducible apply keeps_ite | with_reducible apply keeps_State_bump
    | with_reducible apply keeps_State_atticErr | with_reducible apply keeps_State_atticLose

theorem keeps_State_atticPut {s₀ : State} {s : State} {q : AtticReq} (hs : Keeps s₀ s) : Keeps s₀ (State.atticPut s q) := by
  unfold State.atticPut
  repeat' first
    | with_reducible assumption | with_reducible apply keeps_ite | with_reducible apply keeps_State_atticExpire
    | ((conv => arg 2; (try zeta); arg 30); with_reducible apply keeps_upd)

theorem keeps_State_atticLand {s₀ : State} {s : State} {q : AtticReq} {bs : List Byte} {p : Bool} (hs : Keeps s₀ s) :
    Keeps s₀ (State.atticLand s q bs p) := by
  unfold State.atticLand
  repeat' first
    | with_reducible assumption | with_reducible intro _ | with_reducible apply keeps_ite
    | with_reducible apply keeps_State_changeBut | with_reducible apply keeps_State_atticPut
    | with_reducible apply writeP_wf

theorem keeps_State_atticTimeOut {s₀ : State} {s : State} {q : AtticReq} (hs : Keeps s₀ s) :
    Keeps s₀ (State.atticTimeOut s q) := by
  unfold State.atticTimeOut
  repeat' first
    | with_reducible assumption | with_reducible apply keeps_ite | with_reducible apply keeps_State_atticExpire
    | with_reducible apply keeps_State_atticLand

theorem keeps_State_atticAnswer {s₀ : State} {s : State} {q : AtticReq} {poison : Bool} (hs : Keeps s₀ s) :
    Keeps s₀ (State.atticAnswer s q poison) := by
  unfold State.atticAnswer
  repeat' first
    | with_reducible assumption | with_reducible intro _ | with_reducible apply keeps_ite
    | with_reducible apply keeps_State_bump | with_reducible apply keeps_State_atticErr
    | with_reducible apply keeps_State_atticLand | ((conv => arg 2; (try zeta); arg 30); with_reducible apply keeps_mem)
    | with_reducible apply writeP_wf | with_reducible refine wf_host (Keeps.wf ?_ (by assumption))
    | with_reducible refine wf_larder (Keeps.wf ?_ (by assumption))
    | with_reducible refine wf_attic (Keeps.wf ?_ (by assumption))
    | with_reducible refine wf_shelf (Keeps.wf ?_ (by assumption))
    | with_reducible refine wf_store (Keeps.wf ?_ (by assumption))

theorem keeps_State_atticIssue {s₀ : State} {s : State} {q : AtticReq} (hs : Keeps s₀ s) :
    Keeps s₀ (State.atticIssue s q) := by
  unfold State.atticIssue
  repeat' first
    | with_reducible assumption | with_reducible apply keeps_ite | with_reducible apply keeps_State_atticExpire
    | with_reducible apply keeps_State_atticPut | with_reducible apply keeps_State_atticLand

theorem keeps_State_atticRespond {s₀ : State} {s : State} {q : AtticReq} {poison : Bool} (hs : Keeps s₀ s) :
    Keeps s₀ (State.atticRespond s q poison) := by
  unfold State.atticRespond
  repeat' first
    | with_reducible assumption | with_reducible apply keeps_ite | with_reducible apply keeps_State_bump
    | with_reducible apply keeps_State_drawn | with_reducible apply keeps_State_atticDrop
    | with_reducible apply keeps_State_atticTimeOut | with_reducible apply keeps_State_atticAnswer

theorem keeps_execAtticTimeout {s₀ : State} {k : Nat} {s : State} (hs : Keeps s₀ s) : KeepsO s₀ (execAtticTimeout k s) := by
  unfold execAtticTimeout
  repeat' first
    | with_reducible assumption | with_reducible apply keeps_next | with_reducible apply keeps_ite
    | with_reducible apply keeps_State_atticDrop | with_reducible apply keeps_State_atticTimeOut | split

theorem keeps_State_portDrops {s₀ : State} {s : State} {x : Nat} (hs : Keeps s₀ s) : Keeps s₀ (State.portDrops s x) := by
  unfold State.portDrops
  repeat' first
    | with_reducible assumption | with_reducible intro _ | with_reducible apply keeps_ite
    | with_reducible apply keeps_forAll | with_reducible apply keeps_State_setFld
    | with_reducible apply keeps_State_atticLose | with_reducible apply keeps_State_atticTimeOut
    | ((conv => arg 2; (try zeta); arg 30); with_reducible apply keeps_upd)

theorem keeps_execAtticLinkDown {s₀ : State} {x : Port} {s : State} (hs : Keeps s₀ s) :
    KeepsO s₀ (execAtticLinkDown x s) := by
  unfold execAtticLinkDown
  repeat' first
    | with_reducible assumption | with_reducible apply keeps_next | with_reducible apply keeps_ite
    | with_reducible apply keeps_State_portDrops

theorem keeps_execAtticPortRetrain {s₀ : State} {x : Port} {ok : Bool} {bytes : Nat} {s : State} (hs : Keeps s₀ s) :
    KeepsO s₀ (execAtticPortRetrain x ok bytes s) := by
  unfold execAtticPortRetrain
  repeat' first
    | with_reducible assumption | with_reducible apply keeps_next | with_reducible apply keeps_ite
    | with_reducible apply keeps_State_setFld | ((conv => arg 2; (try zeta); arg 30); with_reducible apply keeps_upd)

end Sys2Proof.Laws
end

