-- ==== Sys2Proof/Laws/KeepsSteward.lean ====
section
/-!
SUPPORT. Every operation of Sys2Proof/Machine/Steward.lean keeps what Sys2Proof/Laws/Keeps.lean names: the queue, the canonical
form of the memories and of the registers, and the fuses. The lemmas follow the order of the operations in that file.
-/
namespace Sys2Proof.Laws

open Sys2Proof.Machine

theorem keeps_State_stewardFor {s₀ : State} {s : State} {run : Run} {pl : Mem} {m : Nat} (hs : Keeps s₀ s) :
    Keeps s₀ (State.stewardFor s run pl m) := by
  unfold State.stewardFor
  repeat' first
    | with_reducible assumption | with_reducible intro _ | with_reducible apply keeps_ite
    | with_reducible apply keeps_forAll | with_reducible apply keeps_State_setFld
    | with_reducible apply keeps_State_bump | with_reducible apply keeps_State_modJob
    | with_reducible apply keeps_State_larderWrite | with_reducible apply keeps_State_event
    | with_reducible apply keeps_State_outcome

theorem keeps_State_promotePolicy {s₀ : State} {s : State} {slot : Nat} (hs : Keeps s₀ s) :
    Keeps s₀ (State.promotePolicy s slot) := by
  unfold State.promotePolicy
  repeat' first | with_reducible assumption | with_reducible apply keeps_State_modJob

theorem keeps_State_dropTallies {s₀ : State} {s : State} {lead : Nat} (hs : Keeps s₀ s) :
    Keeps s₀ (State.dropTallies s lead) := by
  unfold State.dropTallies
  repeat' first
    | with_reducible assumption | with_reducible intro _ | with_reducible apply keeps_forAll
    | ((conv => arg 2; (try zeta); arg 30); with_reducible apply keeps_upd)

theorem keeps_State_showSteward {s₀ : State} {s : State} (hs : Keeps s₀ s) : Keeps s₀ (State.showSteward s) := by
  unfold State.showSteward
  repeat' first | with_reducible assumption | with_reducible apply keeps_State_setFld | split

theorem keeps_State_stewardAll {s₀ : State} {s : State} {lead : Nat} (hs : Keeps s₀ s) :
    Keeps s₀ (State.stewardAll s lead) := by
  unfold State.stewardAll
  repeat' first
    | with_reducible assumption | with_reducible intro _ | with_reducible apply keeps_forAll
    | with_reducible apply keeps_State_modJob | with_reducible apply keeps_State_stewardFor
    | with_reducible apply keeps_State_promotePolicy | with_reducible apply keeps_State_dropTallies
    | with_reducible apply keeps_State_showSteward | split

theorem keeps_execPolicyLoad {s₀ : State} {j : Slot} {s : State} (hs : Keeps s₀ s) : KeepsO s₀ (execPolicyLoad j s) := by
  unfold execPolicyLoad
  repeat' first
    | with_reducible assumption | with_reducible intro _ | with_reducible apply keeps_next
    | with_reducible apply keeps_ite | with_reducible apply keeps_State_modJob | with_reducible apply keeps_State_modCmd
    | with_reducible apply keeps_State_finish | with_reducible apply keeps_State_refuse
    | with_reducible apply keeps_State_start | with_reducible apply keeps_State_showSteward
    | ((conv => arg 2; zeta); split)

end Sys2Proof.Laws
end

