-- ==== Sys2Proof/Laws/KeepsTile.lean ====
section
/-!
SUPPORT. Every operation of Sys2Proof/Machine/Tile.lean keeps what Sys2Proof/Laws/Keeps.lean names: the queue, the canonical
form of the memories and of the registers, and the fuses. The lemmas follow the order of the operations in that file.
-/
namespace Sys2Proof.Laws

open Sys2Proof.Machine

theorem keeps_State_putElems {s₀ : State} {s : State} {c : Ctx} {unit : Nat} {t : TileAt} {os : List Out}
    (hs : Keeps s₀ s) : Keeps s₀ (State.putElems s c unit t os) := by
  unfold State.putElems
  repeat' first
    | with_reducible assumption | with_reducible intro _ | with_reducible apply keeps_State_updateIn
    | with_reducible apply putAll_wf

theorem keeps_State_modTally {s₀ : State} {s : State} {c : Ctx} {k : Nat} {f : Tally → Tally} (hs : Keeps s₀ s) :
    Keeps s₀ (State.modTally s c k f) := by
  unfold State.modTally
  repeat' first | with_reducible assumption | with_reducible apply keeps_State_modCore

theorem keeps_State_foldPairs {s₀ : State} {s : State} {d : Nat} {p : Nat} {phase : Nat} (hs : Keeps s₀ s) :
    Keeps s₀ (State.foldPairs s d p phase) := by
  unfold State.foldPairs
  repeat' first
    | with_reducible assumption | with_reducible apply keeps_State_bump | with_reducible apply keeps_State_modCore

theorem keeps_State_pairs {s₀ : State} {s : State} {d : Nat} {p : Nat} {ps : List Pair} (hs : Keeps s₀ s) :
    Keeps s₀ (State.pairs s d p ps) := by
  unfold State.pairs
  repeat' first | with_reducible assumption | with_reducible apply keeps_State_modCore

theorem keeps_State_queuePairs {s₀ : State} {s : State} {d : Nat} {p : Nat} {phase : Nat} {ps : List Pair}
    (hs : Keeps s₀ s) : Keeps s₀ (State.queuePairs s d p phase ps) := by
  unfold State.queuePairs
  repeat' first
    | with_reducible assumption | with_reducible apply keeps_ite | with_reducible apply keeps_State_bump
    | with_reducible apply keeps_State_foldPairs | with_reducible apply keeps_State_pairs

end Sys2Proof.Laws
end

