-- ==== Sys2Proof/Laws/KeepsLinks.lean ====
section
/-!
SUPPORT. Every operation of Sys2Proof/Machine/Links.lean keeps what Sys2Proof/Laws/Keeps.lean names: the queue, the canonical
form of the memories and of the registers, and the fuses. The lemmas follow the order of the operations in that file.
-/
namespace Sys2Proof.Laws

open Sys2Proof.Machine

theorem keeps_State_setLink {s₀ : State} {s : State} {n : Nat} {f : Fld} {v : Nat} (hs : Keeps s₀ s) :
    Keeps s₀ (State.setLink s n f v) := by
  unfold State.setLink
  repeat' first | with_reducible assumption | with_reducible apply keeps_State_setFld

theorem keeps_State_countPath {s₀ : State} {s : State} {h : List (Nat × Nat × Nat)} {n : Nat} (hs : Keeps s₀ s) :
    Keeps s₀ (State.countPath s h n) := by
  unfold State.countPath
  repeat' first
    | with_reducible assumption | with_reducible intro _ | with_reducible apply keeps_ite
    | with_reducible apply keeps_forAll | with_reducible apply keeps_State_bump

theorem keeps_State_showDegraded {s₀ : State} {s : State} (hs : Keeps s₀ s) : Keeps s₀ (State.showDegraded s) := by
  unfold State.showDegraded
  repeat' first
    | with_reducible assumption | with_reducible intro _ | with_reducible apply keeps_forAll
    | with_reducible apply keeps_State_setFld

end Sys2Proof.Laws
end

