-- ==== Sys2Proof/Laws/KeepsSequencer.lean ====
section
/-!
SUPPORT. Every operation of Sys2Proof/Machine/Sequencer.lean keeps what Sys2Proof/Laws/Keeps.lean names: the queue, the canonical
form of the memories and of the registers, and the fuses. The lemmas follow the order of the operations in that file.
-/
namespace Sys2Proof.Laws

open Sys2Proof.Machine

theorem keeps_State_setQueue {s₀ : State} {s : State} {lead : Nat} {pd : Nat} {q : Nat} {v : QueueSt} (hs : Keeps s₀ s) :
    Keeps s₀ (State.setQueue s lead pd q v) := by
  unfold State.setQueue
  repeat' first | with_reducible assumption | with_reducible apply keeps_State_modRun

theorem keeps_State_showQueue {s₀ : State} {s : State} {lead : Nat} {die : Nat} {q : Nat} (hs : Keeps s₀ s) :
    Keeps s₀ (State.showQueue s lead die q) := by
  unfold State.showQueue
  repeat' first
    | with_reducible assumption | with_reducible apply keeps_ite | with_reducible apply keeps_setReg
    | with_reducible apply keeps_State_setFld | split

theorem keeps_State_hideQueue {s₀ : State} {s : State} {die : Nat} {l : Nat} {q : Nat} (hs : Keeps s₀ s) :
    Keeps s₀ (State.hideQueue s die l q) := by
  unfold State.hideQueue
  repeat' first
    | with_reducible assumption | with_reducible apply keeps_ite | with_reducible apply keeps_setReg
    | with_reducible apply keeps_State_setFld

theorem keeps_State_showAll {s₀ : State} {s : State} {lead : Nat} (hs : Keeps s₀ s) : Keeps s₀ (State.showAll s lead) := by
  unfold State.showAll
  repeat' first
    | with_reducible assumption | with_reducible intro _ | with_reducible apply keeps_forAll
    | with_reducible apply keeps_State_showQueue | split

theorem keeps_State_advance {s₀ : State} {s : State} {c : Ctx} {q : Nat} (hs : Keeps s₀ s) :
    Keeps s₀ (State.advance s c q) := by
  unfold State.advance
  repeat' first
    | with_reducible assumption | with_reducible apply keeps_ite | with_reducible apply keeps_State_bump
    | with_reducible apply keeps_State_trace | with_reducible apply keeps_State_setQueue

theorem keeps_State_signal {s₀ : State} {s : State} {lead : Nat} {d : Nat} {q : Nat} {i : PInstr} (hs : Keeps s₀ s) :
    Keeps s₀ (State.signal s lead d q i) := by
  unfold State.signal
  repeat' first
    | with_reducible assumption | with_reducible apply keeps_ite | with_reducible apply keeps_State_trace
    | with_reducible apply keeps_State_modRun

theorem keeps_State_showPending {s₀ : State} {s : State} {bs : List Nat} (hs : Keeps s₀ s) :
    Keeps s₀ (State.showPending s bs) := by
  unfold State.showPending
  repeat' first
    | with_reducible assumption | with_reducible intro _ | with_reducible apply keeps_forAll
    | with_reducible apply keeps_State_setFld

theorem keeps_State_addFly {s₀ : State} {s : State} {c : Ctx} {q : Nat} {f : Fly} (hs : Keeps s₀ s) :
    Keeps s₀ (State.addFly s c q f) := by
  unfold State.addFly
  repeat' first
    | with_reducible assumption | with_reducible apply keeps_State_modRun | with_reducible apply keeps_State_showPending

theorem keeps_State_launch {s₀ : State} {s : State} {c : Ctx} {q : Nat} {pos : Nat} {arg : Nat} {i : PInstr}
    (hs : Keeps s₀ s) : Keeps s₀ (State.launch s c q pos arg i) := by
  unfold State.launch
  repeat' first | with_reducible assumption | with_reducible apply keeps_State_addFly

theorem keeps_State_modFly {s₀ : State} {s : State} {lead : Nat} {pd : Nat} {q : Nat} {idx : Nat} {h : Fly → Fly}
    (hs : Keeps s₀ s) : Keeps s₀ (State.modFly s lead pd q idx h) := by
  unfold State.modFly
  repeat' first | with_reducible assumption | with_reducible apply keeps_State_modRun

theorem keeps_State_stopRun {s₀ : State} {s : State} {lead : Nat} {st : Nat} (hs : Keeps s₀ s) :
    Keeps s₀ (State.stopRun s lead st) := by
  unfold State.stopRun
  repeat' first
    | with_reducible assumption | with_reducible apply keeps_State_setFld | with_reducible apply keeps_State_modRun

theorem keeps_State_checkEnd {s₀ : State} {s : State} {lead : Nat} (hs : Keeps s₀ s) : Keeps s₀ (State.checkEnd s lead) := by
  unfold State.checkEnd
  repeat' first
    | with_reducible assumption | with_reducible intro _ | with_reducible apply keeps_ite
    | with_reducible apply keeps_forAll | with_reducible apply keeps_State_bump
    | with_reducible apply keeps_State_internally | with_reducible apply keeps_State_modRun
    | with_reducible apply keeps_State_showSteward | with_reducible apply keeps_State_stopRun | split

theorem keeps_State_retire {s₀ : State} {s : State} {lead : Nat} {die : Nat} {q : Nat} {idx : Nat} (hs : Keeps s₀ s) :
    Keeps s₀ (State.retire s lead die q idx) := by
  unfold State.retire
  repeat' first
    | with_reducible assumption | with_reducible apply keeps_ite | with_reducible apply keeps_State_setQueue
    | with_reducible apply keeps_State_showQueue | with_reducible apply keeps_State_signal
    | with_reducible apply keeps_State_showPending | with_reducible apply keeps_State_checkEnd | split

theorem keeps_State_issue {s₀ : State} {s : State} {j : Nat} {d : Nat} {q : Nat} {want : PInstr → Bool}
    {unit : State → Ctx → PInstr → Bool} {f : State → Ctx → Nat → PInstr → State} (hs : Keeps s₀ s)
    (hf : ∀ x0 x1 x2 x3, Keeps s₀ x0 → Keeps s₀ (f x0 x1 x2 x3)) : Keeps s₀ (State.issue s j d q want unit f) := by
  unfold State.issue
  repeat' first
    | with_reducible assumption | with_reducible intro _ | with_reducible apply keeps_ite
    | with_reducible apply keeps_forAll | with_reducible apply keeps_State_setFld
    | with_reducible apply keeps_State_bump | with_reducible apply keeps_State_drawn
    | with_reducible apply keeps_State_modRun | with_reducible apply keeps_State_consume
    | with_reducible apply keeps_State_showQueue | with_reducible apply keeps_State_advance
    | with_reducible apply keeps_State_signal | with_reducible apply keeps_State_checkEnd | with_reducible apply hf
    | split

theorem keeps_execSync {s₀ : State} {j : Slot} {d : Die} {q : QueueNo} {s : State} (hs : Keeps s₀ s) :
    KeepsO s₀ (execSync j d q s) := by
  unfold execSync
  repeat' first
    | with_reducible assumption | with_reducible intro _ | with_reducible apply keeps_next
    | with_reducible apply keeps_State_signal | with_reducible apply keeps_State_issue

theorem keeps_State_loadTable {s₀ : State} {s : State} {c : Ctx} {i : PInstr} (hs : Keeps s₀ s) :
    Keeps s₀ (State.loadTable s c i) := by
  unfold State.loadTable
  repeat' first
    | with_reducible assumption | with_reducible intro _ | with_reducible apply keeps_setReg
    | with_reducible apply keeps_forAll | with_reducible apply keeps_State_setFld
    | with_reducible apply keeps_State_modCore | with_reducible apply keeps_State_view
    | with_reducible apply keeps_State_consume | with_reducible refine keeps_eq (by assumption) ?_ | split
    | ((conv => arg 2; zeta); split)

theorem keeps_execTbl {s₀ : State} {j : Slot} {d : Die} {l : Logical} {s : State} (hs : Keeps s₀ s) :
    KeepsO s₀ (execTbl j d l s) := by
  unfold execTbl
  repeat' first
    | with_reducible assumption | with_reducible intro _ | with_reducible apply keeps_next
    | with_reducible apply keeps_State_signal | with_reducible apply keeps_State_issue
    | with_reducible apply keeps_State_loadTable

theorem keeps_State_xferSource {s₀ : State} {s : State} {src : TileAt} {f : Fly} (hs : Keeps s₀ s) :
    KeepsP s₀ (State.xferSource s src f) := by
  unfold State.xferSource
  repeat' first
    | with_reducible assumption | with_reducible apply keeps_State_drawnN
    | ((fail_if_success (conv => arg 2; (try zeta); arg 3)); with_reducible apply keepsP_mk)

theorem keeps_State_atticReqs {s₀ : State} {s : State} {c : Ctx} {f : Fly} {src : TileAt} {dst : TileAt} (hs : Keeps s₀ s) :
    Keeps s₀ (State.atticReqs s c f src dst) := by
  unfold State.atticReqs
  repeat' first
    | with_reducible assumption | with_reducible intro _ | with_reducible apply keeps_ite
    | with_reducible apply keeps_forAll | with_reducible apply keeps_State_atticIssue
    | (with_reducible refine keeps_fst ?_; with_reducible apply keeps_State_xferSource)

theorem keeps_State_busy {s₀ : State} {s : State} {b : Nat} {word : Nat} {port : Nat} {kind : Nat} (hs : Keeps s₀ s) :
    Keeps s₀ (State.busy s b word port kind) := by
  unfold State.busy
  repeat' first
    | with_reducible assumption | with_reducible apply keeps_ite | with_reducible apply keeps_State_setFld
    | with_reducible apply keeps_State_bump | with_reducible apply keeps_State_bankEvent

theorem keeps_State_meet {s₀ : State} {s : State} {x : XferAt} {y : XferAt} {n : Nat} (hs : Keeps s₀ s) :
    Keeps s₀ (State.meet s x y n) := by
  unfold State.meet
  repeat' first
    | with_reducible assumption | with_reducible apply keeps_ite | with_reducible apply keeps_State_modFly
    | with_reducible apply keeps_State_busy | split | ((conv => arg 2; dsimp only); split)

theorem keeps_State_collisions {s₀ : State} {s : State} {x : XferAt} {only : Option Nat} (hs : Keeps s₀ s) :
    Keeps s₀ (State.collisions s x only) := by
  unfold State.collisions
  repeat' first
    | with_reducible assumption | with_reducible intro _ | with_reducible apply keeps_ite
    | with_reducible apply keeps_forAll | with_reducible apply keeps_State_drawn | with_reducible apply keeps_State_meet

theorem keeps_State_xferMove {s₀ : State} {s : State} {src : TileAt} {dst : TileAt} {f : Fly} (hs : Keeps s₀ s) :
    Keeps s₀ (State.xferMove s src dst f) := by
  unfold State.xferMove
  repeat' first
    | with_reducible assumption | with_reducible intro _ | with_reducible apply keeps_State_changeBut
    | (with_reducible refine keeps_fst ?_; with_reducible apply keeps_State_xferSource)
    | with_reducible apply copyRun_wf | with_reducible apply copy_wf | with_reducible apply setPoison_wf
    | with_reducible apply foldl_wf | with_reducible refine wf_xferSource (Keeps.wf ?_ (by assumption)) | split

theorem keeps_execYield {s₀ : State} {j : Slot} {d : Die} {q : QueueNo} {s : State} (hs : Keeps s₀ s) :
    KeepsO s₀ (execYield j d q s) := by
  unfold execYield
  repeat' first
    | with_reducible assumption | with_reducible intro _ | with_reducible apply keeps_next
    | with_reducible apply keeps_State_modRun | with_reducible apply keeps_State_checkEnd
    | with_reducible apply keeps_State_issue

theorem keeps_State_passYield {s₀ : State} {s : State} {lead : Nat} (hs : Keeps s₀ s) :
    Keeps s₀ (State.passYield s lead) := by
  unfold State.passYield
  repeat' first
    | with_reducible assumption | with_reducible intro _ | with_reducible apply keeps_ite
    | with_reducible apply keeps_forAll | with_reducible apply keeps_State_modRun
    | with_reducible apply keeps_State_setQueue | with_reducible apply keeps_State_showAll
    | with_reducible apply keeps_State_signal | split

end Sys2Proof.Laws
end

