-- ==== Sys2Proof/Laws/KeepsArrays.lean ====
section
/-!
SUPPORT. Every operation of Sys2Proof/Machine/Arrays.lean keeps what Sys2Proof/Laws/Keeps.lean names: the queue, the canonical
form of the memories and of the registers, and the fuses. The lemmas follow the order of the operations in that file.
-/
namespace Sys2Proof.Laws

open Sys2Proof.Machine

theorem keeps_State_setMmaAt {s₀ : State} {s : State} {c : Ctx} {k : Nat} {f : MmaFly} (hs : Keeps s₀ s) :
    Keeps s₀ (State.setMmaAt s c k f) := by
  unfold State.setMmaAt
  repeat' first | with_reducible assumption | with_reducible apply keeps_State_modCore

theorem keeps_State_setMma {s₀ : State} {s : State} {c : Ctx} {f : MmaFly} (hs : Keeps s₀ s) :
    Keeps s₀ (State.setMma s c f) := by
  unfold State.setMma
  repeat' first | with_reducible assumption | with_reducible apply keeps_State_setMmaAt

theorem keeps_State_mmaConsume {s₀ : State} {s : State} {c : Ctx} {ts : List Strm} (hs : Keeps s₀ s) :
    Keeps s₀ (State.mmaConsume s c ts) := by
  unfold State.mmaConsume
  repeat' first
    | with_reducible assumption | with_reducible intro _ | with_reducible apply keeps_forAll
    | with_reducible apply keeps_State_consume | ((conv => arg 2; zeta); split)

theorem keeps_State_bumpArrs {s₀ : State} {s : State} {c : Ctx} {ts : List Strm} {f : Fld} {n : Nat → Nat}
    (hs : Keeps s₀ s) : Keeps s₀ (State.bumpArrs s c ts f n) := by
  unfold State.bumpArrs
  repeat' first
    | with_reducible assumption | with_reducible intro _ | with_reducible apply keeps_forAll
    | with_reducible apply keeps_State_bump

theorem keeps_State_swapClocks {s₀ : State} {s : State} {c : Ctx} {ts : List Strm} {g : Nat} {n : Nat} (hs : Keeps s₀ s) :
    Keeps s₀ (State.swapClocks s c ts g n) := by
  unfold State.swapClocks
  repeat' first | with_reducible assumption | with_reducible apply keeps_ite | with_reducible apply keeps_State_bumpArrs

theorem keeps_State_exposed {s₀ : State} {s : State} {c : Ctx} {ts : List Strm} {front : Option Nat} (hs : Keeps s₀ s) :
    Keeps s₀ (State.exposed s c ts front) := by
  unfold State.exposed
  repeat' first
    | with_reducible assumption | with_reducible apply keeps_ite | with_reducible apply keeps_State_bump
    | with_reducible apply keeps_State_drawn | with_reducible apply keeps_State_bumpArrs

theorem keeps_State_openMma {s₀ : State} {s : State} {c : Ctx} {pos : Nat} {i : PInstr} (hs : Keeps s₀ s) :
    Keeps s₀ (State.openMma s c pos i) := by
  unfold State.openMma
  repeat' first
    | with_reducible assumption | with_reducible intro _ | with_reducible apply keeps_ite
    | with_reducible apply keeps_State_setFld | with_reducible apply keeps_State_bump
    | with_reducible apply keeps_State_modCore | with_reducible apply keeps_State_allow
    | with_reducible apply keeps_State_mmaConsume | with_reducible apply keeps_State_exposed
    | (with_reducible refine keeps_fst ?_; with_reducible apply keeps_foldlP)
    | ((fail_if_success (conv => arg 2; (try zeta); arg 3)); with_reducible apply keepsP_mk)
    | with_reducible exact keeps_fst (by assumption) | with_reducible refine keeps_eq (by assumption) ?_ | split

theorem keeps_execMma {s₀ : State} {j : Slot} {d : Die} {l : Logical} {s : State} (hs : Keeps s₀ s) :
    KeepsO s₀ (execMma j d l s) := by
  unfold execMma
  repeat' first
    | with_reducible assumption | with_reducible intro _ | with_reducible apply keeps_next
    | with_reducible apply keeps_State_launch | with_reducible apply keeps_State_issue
    | with_reducible apply keeps_State_openMma

theorem keeps_State_showArrays {s₀ : State} {s : State} {c : Ctx} (hs : Keeps s₀ s) : Keeps s₀ (State.showArrays s c) := by
  unfold State.showArrays
  repeat' first
    | with_reducible assumption | with_reducible intro _ | with_reducible apply keeps_forAll
    | with_reducible apply keeps_State_setFld

theorem keeps_execWeightBufferSwap {s₀ : State} {j : Slot} {d : Die} {l : Logical} {errs : List Parity} {s : State}
    (hs : Keeps s₀ s) : KeepsO s₀ (execWeightBufferSwap j d l errs s) := by
  unfold execWeightBufferSwap
  repeat' first
    | with_reducible assumption | with_reducible intro _ | with_reducible apply keeps_next
    | with_reducible apply keeps_ite | with_reducible apply keeps_forAll | with_reducible apply keeps_State_setFld
    | with_reducible apply keeps_State_bump | with_reducible apply keeps_State_modCore
    | with_reducible apply keeps_State_setMmaAt | with_reducible apply keeps_State_swapClocks
    | with_reducible apply keeps_State_showArrays | split

theorem keeps_State_drainSeg {s₀ : State} {s : State} {c : Ctx} {f : MmaFly} {ups : List Upset} {g : Nat} {t : Strm}
    (hs : Keeps s₀ s) : KeepsP s₀ (State.drainSeg s c f ups g t) := by
  unfold State.drainSeg
  repeat' first
    | with_reducible assumption | with_reducible apply keepsP_ite | with_reducible apply keeps_State_bump
    | with_reducible apply keeps_State_bumpSat | with_reducible apply keeps_State_modCore
    | ((fail_if_success (conv => arg 2; (try zeta); arg 3)); with_reducible apply keepsP_mk)
    | ((conv => arg 2; zeta); split)

theorem keeps_State_showVotes {s₀ : State} {s : State} {c : Ctx} {f : MmaFly} {ts : List Strm} (hs : Keeps s₀ s) :
    Keeps s₀ (State.showVotes s c f ts) := by
  unfold State.showVotes
  repeat' first
    | with_reducible assumption | with_reducible intro _ | with_reducible apply keeps_forAll
    | with_reducible apply keeps_State_setFld

theorem keeps_execSegmentDrain {s₀ : State} {j : Slot} {d : Die} {l : Logical} {ups : List Upset} {s : State}
    (hs : Keeps s₀ s) : KeepsO s₀ (execSegmentDrain j d l ups s) := by
  unfold execSegmentDrain
  repeat' first
    | with_reducible assumption | with_reducible intro _ | with_reducible apply keeps_next
    | with_reducible apply keeps_ite | with_reducible apply keeps_State_modCore
    | with_reducible apply keeps_State_setMma | with_reducible apply keeps_State_showArrays
    | with_reducible apply keeps_State_drainSeg | with_reducible apply keeps_State_showVotes
    | (with_reducible refine keeps_fst ?_; with_reducible apply keeps_foldlP)
    | ((fail_if_success (conv => arg 2; (try zeta); arg 3)); with_reducible apply keepsP_mk)
    | with_reducible exact keeps_fst (by assumption) | split

theorem keeps_execResidueVote {s₀ : State} {j : Slot} {d : Die} {l : Logical} {ups : List Upset} {s : State}
    (hs : Keeps s₀ s) : KeepsO s₀ (execResidueVote j d l ups s) := by
  unfold execResidueVote
  repeat' first
    | with_reducible assumption | with_reducible apply keeps_next | with_reducible apply keeps_ite
    | with_reducible apply keeps_setReg | with_reducible apply keeps_State_setFld
    | with_reducible apply keeps_State_bump | with_reducible apply keeps_State_bumpSat
    | with_reducible apply keeps_State_modCore | with_reducible apply keeps_State_event
    | with_reducible apply keeps_State_setMma | with_reducible apply keeps_State_showVotes | split

theorem keeps_execSpecialsPass {s₀ : State} {j : Slot} {d : Die} {l : Logical} {errs : List Parity} {s : State}
    (hs : Keeps s₀ s) : KeepsO s₀ (execSpecialsPass j d l errs s) := by
  unfold execSpecialsPass
  repeat' first
    | with_reducible assumption | with_reducible apply keeps_next | with_reducible apply keeps_ite
    | with_reducible apply keeps_State_setFld | with_reducible apply keeps_State_bump
    | with_reducible apply keeps_State_setMma | with_reducible apply keeps_State_bumpArrs
    | with_reducible apply keeps_State_showVotes | split

theorem keeps_State_drainWrite {s₀ : State} {s : State} {c : Ctx} {t : Strm} {os : List DrainOut} (hs : Keeps s₀ s) :
    Keeps s₀ (State.drainWrite s c t os) := by
  unfold State.drainWrite
  repeat' first | with_reducible assumption | with_reducible apply keeps_State_putElems

theorem keeps_execOutputDrain {s₀ : State} {j : Slot} {d : Die} {l : Logical} {s : State} (hs : Keeps s₀ s) :
    KeepsO s₀ (execOutputDrain j d l s) := by
  unfold execOutputDrain
  repeat' first
    | with_reducible assumption | with_reducible intro _ | with_reducible apply keeps_next
    | with_reducible apply keeps_ite | with_reducible apply keeps_forAll | with_reducible apply keeps_State_setMma
    | with_reducible apply keeps_State_drainWrite | split

theorem keeps_State_tileStatus {s₀ : State} {s : State} {c : Ctx} {rec : Bool → List Byte} (hs : Keeps s₀ s) :
    Keeps s₀ (State.tileStatus s c rec) := by
  unfold State.tileStatus
  repeat' first
    | with_reducible assumption | with_reducible apply keeps_ite | with_reducible apply keeps_State_larderWrite
    | with_reducible apply keeps_State_modRun | split

theorem keeps_execRecomputeSlot {s₀ : State} {j : Slot} {d : Die} {l : Logical} {s : State} (hs : Keeps s₀ s) :
    KeepsO s₀ (execRecomputeSlot j d l s) := by
  unfold execRecomputeSlot
  repeat' first
    | with_reducible assumption | with_reducible intro _ | with_reducible apply keeps_next
    | with_reducible apply keeps_ite | with_reducible apply keeps_State_bump | with_reducible apply keeps_State_modCore
    | with_reducible apply keeps_State_event | with_reducible apply keeps_State_modTally
    | with_reducible apply keeps_State_queuePairs | with_reducible apply keeps_State_retire
    | with_reducible apply keeps_State_bumpArrs | with_reducible apply keeps_State_drainWrite
    | with_reducible apply keeps_State_tileStatus | with_reducible apply keeps_foldl | split

theorem keeps_State_arrInject {s₀ : State} {s : State} {d : Nat} {p : Nat} {a : Nat} {v : Nat} (hs : Keeps s₀ s) :
    Keeps s₀ (State.arrInject s d p a v) := by
  unfold State.arrInject
  repeat' first | with_reducible assumption | with_reducible apply keeps_ite | with_reducible apply keeps_State_modCore

theorem keeps_execArrInject {s₀ : State} {d : Die} {p : Phys} {a : Arr} {v : Nat} {s : State} (hs : Keeps s₀ s) :
    KeepsO s₀ (execArrInject d p a v s) := by
  unfold execArrInject
  repeat' first
    | with_reducible assumption | with_reducible intro _ | with_reducible apply keeps_next
    | with_reducible apply keeps_State_served | with_reducible apply keeps_State_arrInject

end Sys2Proof.Laws
end

