-- ==== Sys2Proof/Laws/KeepsRingUnit.lean ====
section
/-!
SUPPORT. Every operation of Sys2Proof/Machine/RingUnit.lean keeps what Sys2Proof/Laws/Keeps.lean names: the queue, the canonical
form of the memories and of the registers, and the fuses. The lemmas follow the order of the operations in that file.
-/
namespace Sys2Proof.Laws

open Sys2Proof.Machine

theorem keeps_State_ringErr {s₀ : State} {s : State} {d : Nat} {f : Fld} {peer : Nat} {job : Nat} {bucket : Nat}
    {chunk : Nat} (hs : Keeps s₀ s) : Keeps s₀ (State.ringErr s d f peer job bucket chunk) := by
  unfold State.ringErr
  repeat' first | with_reducible assumption | with_reducible apply keeps_ite | with_reducible apply keeps_State_setFld

theorem keeps_State_modRed {s₀ : State} {s : State} {lead : Nat} {pd : Nat} {bucket : Nat} {f : RedSt → RedSt}
    (hs : Keeps s₀ s) : Keeps s₀ (State.modRed s lead pd bucket f) := by
  unfold State.modRed
  repeat' first | with_reducible assumption | with_reducible apply keeps_State_modRun

theorem keeps_State_showRing {s₀ : State} {s : State} {d : Nat} (hs : Keeps s₀ s) : Keeps s₀ (State.showRing s d) := by
  unfold State.showRing
  repeat' first | with_reducible assumption | with_reducible apply keeps_State_setFld

theorem keeps_State_putRec {s₀ : State} {s : State} {c : Ctx} {r : RedSt} {k : Nat} {v : ChunkRec} (hs : Keeps s₀ s) :
    Keeps s₀ (State.putRec s c r k v) := by
  unfold State.putRec
  repeat' first
    | with_reducible assumption | with_reducible intro _ | with_reducible apply keeps_ite
    | with_reducible apply keeps_State_bump | with_reducible apply keeps_State_update
    | with_reducible apply keeps_State_ringErr | with_reducible apply writeP_wf

theorem keeps_State_putStage {s₀ : State} {s : State} {c : Ctx} {r : RedSt} {origin : Nat} {k : Nat} {w : List Byte}
    (hs : Keeps s₀ s) : Keeps s₀ (State.putStage s c r origin k w) := by
  unfold State.putStage
  repeat' first
    | with_reducible assumption | with_reducible intro _ | with_reducible apply keeps_State_update
    | with_reducible apply writeP_wf

theorem keeps_State_holdStage {s₀ : State} {s : State} {c : Ctx} {pd : Nat} {bucket : Nat} {origin : Nat} {k : Nat}
    {w : List Byte} (hs : Keeps s₀ s) : Keeps s₀ (State.holdStage s c pd bucket origin k w) := by
  unfold State.holdStage
  repeat' first
    | with_reducible assumption | with_reducible apply keeps_ite | with_reducible apply keeps_State_modRed
    | with_reducible apply keeps_State_putRec | with_reducible apply keeps_State_putStage | split

theorem keeps_State_sendOne {s₀ : State} {s : State} {lead : Nat} {pd : Nat} (hs : Keeps s₀ s) :
    KeepsP s₀ (State.sendOne s lead pd) := by
  unfold State.sendOne
  repeat' first
    | with_reducible assumption | with_reducible apply keeps_ite | with_reducible apply keeps_State_bump
    | with_reducible apply keeps_State_modRun | with_reducible apply keeps_State_countPath
    | with_reducible apply keeps_State_ringErr | with_reducible apply keeps_State_modRed
    | ((fail_if_success (conv => arg 2; (try zeta); arg 3)); with_reducible apply keepsP_mk) | split
    | ((conv => arg 2; zeta); split)

theorem keeps_sendLoop {s₀ : State} {k : Nat} {s : State} {lead pd : Nat} (hs : Keeps s₀ s) :
    Keeps s₀ (sendLoop k s lead pd) := by
  induction k generalizing s with
  | zero => exact hs
  | succ k ih =>
    unfold sendLoop
    have h : Keeps s₀ (s.sendOne lead pd).1 := keeps_State_sendOne hs
    dsimp only
    split
    · exact ih h
    · exact h

theorem keeps_State_pump {s₀ : State} {s : State} {lead : Nat} {pd : Nat} (hs : Keeps s₀ s) :
    Keeps s₀ (State.pump s lead pd) := by
  unfold State.pump
  repeat' first | with_reducible assumption | with_reducible apply keeps_sendLoop | split

theorem keeps_State_pumpDie {s₀ : State} {s : State} {d : Nat} (hs : Keeps s₀ s) : Keeps s₀ (State.pumpDie s d) := by
  unfold State.pumpDie
  repeat' first
    | with_reducible assumption | with_reducible intro _ | with_reducible apply keeps_forAll
    | with_reducible apply keeps_State_pump

theorem keeps_State_lackPoisoned {s₀ : State} {s : State} {c : Ctx} {pd : Nat} {bucket : Nat} (hs : Keeps s₀ s) :
    Keeps s₀ (State.lackPoisoned s c pd bucket) := by
  unfold State.lackPoisoned
  repeat' first
    | with_reducible assumption | with_reducible intro _ | with_reducible apply keeps_forAll
    | with_reducible apply keeps_State_drawnN | with_reducible apply keeps_State_modRed
    | with_reducible apply keeps_State_putRec | split

theorem keeps_State_endWait {s₀ : State} {s : State} {lead : Nat} {pd : Nat} {bucket : Nat} {peer : Nat} (hs : Keeps s₀ s) :
    Keeps s₀ (State.endWait s lead pd bucket peer) := by
  unfold State.endWait
  repeat' first
    | with_reducible assumption | with_reducible apply keeps_State_bump | with_reducible apply keeps_State_event
    | with_reducible apply keeps_State_modRun | with_reducible apply keeps_State_ringErr
    | with_reducible apply keeps_State_modRed | with_reducible apply keeps_State_pump
    | with_reducible apply keeps_State_lackPoisoned | split

end Sys2Proof.Laws
end

