-- ==== Sys2Proof/Laws/KeepsTwoPhase.lean ====
section
/-!
SUPPORT. Every operation of Sys2Proof/Machine/TwoPhase.lean keeps what Sys2Proof/Laws/Keeps.lean names: the queue, the canonical
form of the memories and of the registers, and the fuses. The lemmas follow the order of the operations in that file.
-/
namespace Sys2Proof.Laws

open Sys2Proof.Machine

theorem keeps_askParts {s₀ : State} {s : State} {j seq : Nat} {ps : List Nat} (hs : Keeps s₀ s) :
    Keeps s₀ (askParts s j seq ps) := by
  induction ps generalizing s with
  | nil => exact hs
  | cons p ps ih =>
    unfold askParts
    split
    · exact hs
    · split
      · exact ih hs
      · split
        · exact hs
        · exact ih (keeps_State_modCmd (keeps_upd hs))

theorem keeps_State_askAll {s₀ : State} {s : State} (hs : Keeps s₀ s) : Keeps s₀ (State.askAll s) := by
  unfold State.askAll
  repeat' first
    | with_reducible assumption | with_reducible intro _ | with_reducible apply keeps_forAll
    | with_reducible apply keeps_askParts

theorem keeps_State_release {s₀ : State} {s : State} {j : Nat} {seq : Nat} (hs : Keeps s₀ s) :
    Keeps s₀ (State.release s j seq) := by
  unfold State.release
  repeat' first
    | with_reducible assumption | with_reducible apply keeps_State_askAll
    | ((conv => arg 2; (try zeta); arg 30); with_reducible apply keeps_upd)

theorem keeps_State_beginTwo {s₀ : State} {s : State} {j : Nat} {seq : Nat} {want : Nat} (hs : Keeps s₀ s) :
    Keeps s₀ (State.beginTwo s j seq want) := by
  unfold State.beginTwo
  repeat' first
    | with_reducible assumption | with_reducible apply keeps_State_modCmd | with_reducible apply keeps_askParts

theorem keeps_State_showCellarBusy {s₀ : State} {s : State} (hs : Keeps s₀ s) : Keeps s₀ (State.showCellarBusy s) := by
  unfold State.showCellarBusy
  repeat' first | with_reducible assumption | with_reducible apply keeps_State_setFld

theorem keeps_State_spoil {s₀ : State} {s : State} {j : Nat} (hs : Keeps s₀ s) : Keeps s₀ (State.spoil s j) := by
  unfold State.spoil
  repeat' first
    | with_reducible assumption | with_reducible intro _ | with_reducible apply keeps_ite
    | with_reducible apply keeps_forAll | with_reducible apply keeps_State_setFld
    | with_reducible apply keeps_State_modJob | with_reducible apply keeps_State_touchEpoch
    | with_reducible apply keeps_State_scramble | with_reducible apply keeps_State_showCellarBusy

theorem keeps_State_abortTwo {s₀ : State} {s : State} {j : Nat} {seq : Nat} (hs : Keeps s₀ s) :
    Keeps s₀ (State.abortTwo s j seq) := by
  unfold State.abortTwo
  repeat' first
    | with_reducible assumption | with_reducible apply keeps_ite | with_reducible apply keeps_State_release
    | with_reducible apply keeps_State_spoil | split

theorem keeps_State_settleAbort {s₀ : State} {s : State} {j : Nat} {seq : Nat} (hs : Keeps s₀ s) :
    Keeps s₀ (State.settleAbort s j seq) := by
  unfold State.settleAbort
  repeat' first
    | with_reducible assumption | with_reducible apply keeps_ite | with_reducible apply keeps_State_modCmd
    | with_reducible apply keeps_State_finish | with_reducible apply keeps_State_abortTwo | split

theorem keeps_State_prepareFails {s₀ : State} {s : State} {j : Nat} {seq : Nat} {part : Nat} {st : Nat} (hs : Keeps s₀ s) :
    Keeps s₀ (State.prepareFails s j seq part st) := by
  unfold State.prepareFails
  repeat' first
    | with_reducible assumption | with_reducible apply keeps_State_modCmd | with_reducible apply keeps_State_outcome
    | with_reducible apply keeps_State_settleAbort

theorem keeps_State_partLost {s₀ : State} {s : State} {part : Nat} (hs : Keeps s₀ s) : Keeps s₀ (State.partLost s part) := by
  unfold State.partLost
  repeat' first
    | with_reducible assumption | with_reducible intro _ | with_reducible apply keeps_forAll
    | with_reducible apply keeps_State_prepareFails

end Sys2Proof.Laws
end

