-- ==== Sys2Proof/Laws/KeepsSets.lean ====
section
/-!
SUPPORT. Every operation of Sys2Proof/Machine/Sets.lean keeps what Sys2Proof/Laws/Keeps.lean names: the queue, the canonical
form of the memories and of the registers, and the fuses. The lemmas follow the order of the operations in that file.
-/
namespace Sys2Proof.Laws

open Sys2Proof.Machine

theorem keeps_State_putSet {s₀ : State} {s : State} {j : Nat} {new : Nat} {cause : Nat} (hs : Keeps s₀ s) :
    Keeps s₀ (State.putSet s j new cause) := by
  unfold State.putSet
  repeat' first
    | with_reducible assumption | with_reducible intro _ | with_reducible apply keeps_ite
    | with_reducible apply keeps_forAll | with_reducible apply keeps_State_setFld
    | with_reducible apply keeps_State_event

theorem keeps_State_formSet {s₀ : State} {s : State} {j : Nat} {report : Bool} (hs : Keeps s₀ s) :
    Keeps s₀ (State.formSet s j report) := by
  unfold State.formSet
  repeat' first
    | with_reducible assumption | with_reducible apply keeps_ite | with_reducible apply keeps_State_setFld
    | with_reducible apply keeps_State_putSet | split

theorem keeps_State_poisonPlace {s₀ : State} {s : State} {p : Place} (hs : Keeps s₀ s) :
    Keeps s₀ (State.poisonPlace s p) := by
  unfold State.poisonPlace
  repeat' first
    | with_reducible assumption | with_reducible apply keeps_ite | with_reducible apply keeps_State_touchEpoch
    | with_reducible apply keeps_State_scramble

theorem keeps_State_failParts {s₀ : State} {s : State} {lead : Nat} {gone : Nat} (hs : Keeps s₀ s) :
    Keeps s₀ (State.failParts s lead gone) := by
  unfold State.failParts
  repeat' first
    | with_reducible assumption | with_reducible intro _ | with_reducible apply keeps_ite
    | with_reducible apply keeps_forAll | with_reducible apply keeps_State_event
    | with_reducible apply keeps_State_modRun | with_reducible apply keeps_State_checkEnd
    | with_reducible apply keeps_State_modRed | with_reducible apply keeps_State_showRing
    | with_reducible apply keeps_State_endWait | with_reducible apply keeps_State_poisonPlace | split

theorem keeps_State_shrinkSets {s₀ : State} {s : State} {cause : Nat} (hs : Keeps s₀ s) :
    Keeps s₀ (State.shrinkSets s cause) := by
  unfold State.shrinkSets
  repeat' first
    | with_reducible assumption | with_reducible intro _ | with_reducible apply keeps_ite
    | with_reducible apply keeps_forAll | with_reducible apply keeps_State_putSet
    | with_reducible apply keeps_State_failParts | ((conv => arg 2; zeta); split)

theorem keeps_State_abandonFills {s₀ : State} {s : State} {d : Nat} (hs : Keeps s₀ s) :
    Keeps s₀ (State.abandonFills s d) := by
  unfold State.abandonFills
  repeat' first
    | with_reducible assumption | with_reducible intro _ | with_reducible apply keeps_ite
    | with_reducible apply keeps_forAll | with_reducible apply keeps_State_setFld
    | with_reducible apply keeps_State_bump | with_reducible apply keeps_State_modDie | with_reducible apply keeps_foldl
    | split

theorem keeps_State_scrambleDie {s₀ : State} {s : State} {d : Nat} (hs : Keeps s₀ s) : Keeps s₀ (State.scrambleDie s d) := by
  unfold State.scrambleDie
  repeat' first | with_reducible assumption | with_reducible apply keeps_State_scramble

theorem keeps_State_copyFails {s₀ : State} {s : State} {j : Nat} {c : Cmd} {d : Nat} (hs : Keeps s₀ s) :
    Keeps s₀ (State.copyFails s j c d) := by
  unfold State.copyFails
  repeat' first
    | with_reducible assumption | with_reducible apply keeps_ite | with_reducible apply keeps_State_event
    | with_reducible apply keeps_State_modCmd | with_reducible apply keeps_State_outcome
    | with_reducible apply keeps_State_poisonPlace

theorem keeps_State_copyLost {s₀ : State} {s : State} {d : Nat} (hs : Keeps s₀ s) : Keeps s₀ (State.copyLost s d) := by
  unfold State.copyLost
  repeat' first
    | with_reducible assumption | with_reducible intro _ | with_reducible apply keeps_forAll
    | with_reducible apply keeps_State_copyFails

theorem keeps_State_showSpares {s₀ : State} {s : State} {d : Nat} (hs : Keeps s₀ s) : Keeps s₀ (State.showSpares s d) := by
  unfold State.showSpares
  repeat' first | with_reducible assumption | with_reducible apply keeps_State_setFld

theorem keeps_State_leaveService {s₀ : State} {s : State} {d : Nat} {cause : Nat} {st : Nat} (hs : Keeps s₀ s) :
    Keeps s₀ (State.leaveService s d cause st) := by
  unfold State.leaveService
  repeat' first
    | with_reducible assumption | with_reducible intro _ | with_reducible apply keeps_ite
    | with_reducible apply keeps_forAll | with_reducible apply keeps_State_setFld
    | with_reducible apply keeps_State_bump | with_reducible apply keeps_State_modJob
    | with_reducible apply keeps_State_trace | with_reducible apply keeps_State_partLost
    | with_reducible apply keeps_State_shrinkSets | with_reducible apply keeps_State_abandonFills
    | with_reducible apply keeps_State_scrambleDie | with_reducible apply keeps_State_copyLost
    | with_reducible apply keeps_State_showSpares

end Sys2Proof.Laws
end

