-- ==== Sys2Proof/Laws/KeepsLoader.lean ====
section
/-!
SUPPORT. Every operation of Sys2Proof/Machine/Loader.lean keeps what Sys2Proof/Laws/Keeps.lean names: the queue, the canonical
form of the memories and of the registers, and the fuses. The lemmas follow the order of the operations in that file.
-/
namespace Sys2Proof.Laws

open Sys2Proof.Machine

theorem keeps_State_recordRej {s₀ : State} {s : State} {j : Nat} {seq : Nat} {pl : Mem} {st : Nat} {r : Rej}
    (hs : Keeps s₀ s) : Keeps s₀ (State.recordRej s j seq pl st r) := by
  unfold State.recordRej
  repeat' first
    | with_reducible assumption | with_reducible apply keeps_ite | with_reducible apply keeps_setReg
    | with_reducible apply keeps_State_bump | with_reducible apply keeps_State_event | split

theorem keeps_State_copyPlan {s₀ : State} {s : State} {j : Nat} {b : Binding} {pl : Mem} {states : Tab Nat}
    (hs : Keeps s₀ s) : Keeps s₀ (State.copyPlan s j b pl states) := by
  unfold State.copyPlan
  repeat' first
    | with_reducible assumption | with_reducible intro _ | with_reducible apply keeps_ite
    | with_reducible apply keeps_forAll | with_reducible apply keeps_State_drawn
    | with_reducible apply keeps_State_drawnN | with_reducible apply keeps_State_modJob
    | with_reducible apply keeps_State_larderWrite

theorem keeps_State_loadPlan {s₀ : State} {s : State} {j : Nat} {seq : Nat} (hs : Keeps s₀ s) :
    KeepsP s₀ (State.loadPlan s j seq) := by
  unfold State.loadPlan
  repeat' first
    | with_reducible assumption | with_reducible apply keepsP_ite | with_reducible apply keeps_State_setFld
    | with_reducible apply keeps_State_bump | with_reducible apply keeps_State_recordRej
    | with_reducible apply keeps_State_copyPlan
    | ((fail_if_success (conv => arg 2; (try zeta); arg 3)); with_reducible apply keepsP_mk) | split
    | ((conv => arg 2; zeta); split)

end Sys2Proof.Laws
end

