-- ==== Sys2Proof/Laws/KeepsCellar.lean ====
section
/-!
SUPPORT. Every operation of Sys2Proof/Machine/Cellar.lean keeps what Sys2Proof/Laws/Keeps.lean names: the queue, the canonical
form of the memories and of the registers, and the fuses. The lemmas follow the order of the operations in that file.
-/
namespace Sys2Proof.Laws

open Sys2Proof.Machine

theorem keeps_State_showCellar {s₀ : State} {s : State} (hs : Keeps s₀ s) : Keeps s₀ (State.showCellar s) := by
  unfold State.showCellar
  repeat' first
    | with_reducible assumption | with_reducible apply keeps_State_setFld
    | with_reducible apply keeps_State_showCellarBusy

theorem keeps_State_modCellar {s₀ : State} {s : State} {f : Cellar → Cellar} (hs : Keeps s₀ s) :
    Keeps s₀ (State.modCellar s f) := by
  unfold State.modCellar
  repeat' first | with_reducible assumption | ((conv => arg 2; (try zeta); arg 30); with_reducible apply keeps_upd)

theorem keeps_State_sweep {s₀ : State} {s : State} (hs : Keeps s₀ s) : Keeps s₀ (State.sweep s) := by
  unfold State.sweep
  repeat' first | with_reducible assumption | with_reducible apply keeps_State_modCellar

theorem keeps_State_deleteSnap {s₀ : State} {s : State} {id : Nat} (hs : Keeps s₀ s) : Keeps s₀ (State.deleteSnap s id) := by
  unfold State.deleteSnap
  repeat' first
    | with_reducible assumption | with_reducible apply keeps_State_modCellar | with_reducible apply keeps_State_sweep

theorem keeps_State_endTake {s₀ : State} {s : State} {j : Nat} {seq : Nat} {st : Nat} (hs : Keeps s₀ s) :
    Keeps s₀ (State.endTake s j seq st) := by
  unfold State.endTake
  repeat' first
    | with_reducible assumption | with_reducible apply keeps_State_setFld | with_reducible apply keeps_State_modJob
    | with_reducible apply keeps_State_outcome | with_reducible apply keeps_State_finish
    | with_reducible apply keeps_State_showCellar | with_reducible apply keeps_State_sweep

theorem keeps_State_takeStart {s₀ : State} {s : State} {j : Nat} {c : Cmd} {waits : Bool} (hs : Keeps s₀ s) :
    Keeps s₀ (State.takeStart s j c waits) := by
  unfold State.takeStart
  repeat' first
    | with_reducible assumption | with_reducible apply keeps_State_setFld | with_reducible apply keeps_State_modJob
    | with_reducible apply keeps_State_refuse | split

theorem keeps_execSnapTake {s₀ : State} {j : Slot} {s : State} (hs : Keeps s₀ s) : KeepsO s₀ (execSnapTake j s) := by
  unfold execSnapTake
  repeat' first
    | with_reducible assumption | with_reducible intro _ | with_reducible apply keeps_next
    | with_reducible apply keeps_ite | with_reducible apply keeps_State_modCmd | with_reducible apply keeps_State_params
    | with_reducible apply keeps_State_start | with_reducible apply keeps_State_takeStart | split

theorem keeps_pruneLoop {s₀ : State} {k : Nat} {s : State} {j : Nat} {plan : List Byte} {need n : Nat} (hs : Keeps s₀ s) :
    KeepsP s₀ (pruneLoop k s j plan need n) := by
  induction k generalizing s n with
  | zero => exact hs
  | succ k ih =>
    unfold pruneLoop
    split
    · exact hs
    · split
      · exact hs
      · exact ih (keeps_State_modCellar hs)

theorem keeps_State_freeze {s₀ : State} {s : State} {j : Nat} {cap : Capture} {c : Cmd} {plan : List Byte}
    (hs : Keeps s₀ s) : Keeps s₀ (State.freeze s j cap c plan) := by
  unfold State.freeze
  repeat' first
    | with_reducible assumption | with_reducible intro _ | with_reducible apply keeps_ite
    | with_reducible apply keeps_forAll | with_reducible apply keeps_State_setFld
    | with_reducible apply keeps_State_bump | with_reducible apply keeps_State_drawnN
    | with_reducible apply keeps_State_modJob | with_reducible apply keeps_State_touchEpoch
    | with_reducible apply keeps_State_scramble | with_reducible apply keeps_State_showCellarBusy
    | with_reducible apply keeps_State_showCellar | with_reducible apply keeps_State_modCellar
    | with_reducible apply keeps_State_endTake
    | (with_reducible refine keeps_fst ?_; with_reducible apply keeps_pruneLoop)

theorem keeps_State_thaw {s₀ : State} {s : State} {j : Nat} {cap : Capture} {x : Snap} (hs : Keeps s₀ s) :
    Keeps s₀ (State.thaw s j cap x) := by
  unfold State.thaw
  repeat' first
    | with_reducible assumption | with_reducible apply keeps_State_drawnN | with_reducible apply keeps_State_modJob
    | with_reducible apply keeps_State_showCellarBusy

theorem keeps_execSnapFreeze {s₀ : State} {j : Slot} {s : State} (hs : Keeps s₀ s) : KeepsO s₀ (execSnapFreeze j s) := by
  unfold execSnapFreeze
  repeat' first
    | with_reducible assumption | with_reducible apply keeps_next | with_reducible apply keeps_ite
    | with_reducible apply keeps_State_endTake | with_reducible apply keeps_State_freeze
    | with_reducible apply keeps_State_thaw | split

theorem keeps_State_storeRegion {s₀ : State} {s : State} {digest : List Byte} {shared : Bool} {m : Mem} {sectors : Nat}
    (hs : Keeps s₀ s) : Keeps s₀ (State.storeRegion s digest shared m sectors) := by
  unfold State.storeRegion
  repeat' first | with_reducible assumption | with_reducible apply keeps_State_modCellar

theorem keeps_execSnapSeal {s₀ : State} {j : Slot} {s : State} (hs : Keeps s₀ s) : KeepsO s₀ (execSnapSeal j s) := by
  unfold execSnapSeal
  repeat' first
    | with_reducible assumption | with_reducible intro _ | with_reducible apply keeps_next
    | with_reducible apply keeps_ite | with_reducible apply keeps_forAll | with_reducible apply keeps_State_setFld
    | with_reducible apply keeps_State_bump | with_reducible apply keeps_State_modCmd
    | with_reducible apply keeps_State_modCellar | with_reducible apply keeps_State_endTake
    | with_reducible apply keeps_State_storeRegion
    | (with_reducible refine keeps_fst ?_; with_reducible apply keeps_foldlP)
    | ((fail_if_success (conv => arg 2; (try zeta); arg 3)); with_reducible apply keepsP_mk)
    | with_reducible exact keeps_fst (by assumption) | split

theorem keeps_execSnapList {s₀ : State} {j : Slot} {s : State} (hs : Keeps s₀ s) : KeepsO s₀ (execSnapList j s) := by
  unfold execSnapList
  repeat' first
    | with_reducible assumption | with_reducible intro _ | with_reducible apply keeps_next
    | with_reducible apply keeps_ite | with_reducible apply keeps_State_hostWrite
    | with_reducible apply keeps_State_modCmd | with_reducible apply keeps_State_finish
    | with_reducible apply keeps_State_refuse | with_reducible apply keeps_State_start

theorem keeps_execSnapDelete {s₀ : State} {j : Slot} {s : State} (hs : Keeps s₀ s) : KeepsO s₀ (execSnapDelete j s) := by
  unfold execSnapDelete
  repeat' first
    | with_reducible assumption | with_reducible intro _ | with_reducible apply keeps_next
    | with_reducible apply keeps_State_start | with_reducible apply keeps_State_beginTwo

theorem keeps_State_putSpan {s₀ : State} {s : State} {e : SnapRegion} {m : Mem} {src : Nat} {d : Nat} {sp : Nat × Nat}
    (hs : Keeps s₀ s) : Keeps s₀ (State.putSpan s e m src d sp) := by
  unfold State.putSpan
  repeat' first
    | with_reducible assumption | with_reducible intro _ | with_reducible apply keeps_ite
    | with_reducible apply keeps_State_touchEpoch | with_reducible apply keeps_State_setTierMem
    | with_reducible apply paste_wf | with_reducible refine wf_tierMem (Keeps.wf ?_ (by assumption))

theorem keeps_State_restoreWrite {s₀ : State} {s : State} {j : Nat} {x : Snap} {target : List Nat} {attic : Bool}
    (hs : Keeps s₀ s) : KeepsP s₀ (State.restoreWrite s j x target attic) := by
  unfold State.restoreWrite
  repeat' first
    | with_reducible assumption | with_reducible intro _ | with_reducible apply keepsP_ite
    | with_reducible apply keeps_forAll | with_reducible apply keeps_State_bump
    | with_reducible apply keeps_State_modJob | with_reducible apply keeps_State_modLarder
    | with_reducible apply keeps_State_putSpan
    | ((fail_if_success (conv => arg 2; (try zeta); arg 3)); with_reducible apply keepsP_mk)
    | with_reducible apply scrub_wf | split

theorem keeps_State_restoreCommit {s₀ : State} {s : State} {j : Nat} {x : Snap} {target : List Nat} (hs : Keeps s₀ s) :
    KeepsP s₀ (State.restoreCommit s j x target) := by
  unfold State.restoreCommit
  repeat' first
    | with_reducible assumption | with_reducible intro _ | with_reducible apply keeps_ite
    | with_reducible apply keeps_forAll | with_reducible apply keeps_State_setFld
    | with_reducible apply keeps_State_bump | with_reducible apply keeps_State_modJob
    | with_reducible apply keeps_State_scramble | with_reducible apply keeps_State_setOwner
    | with_reducible apply keeps_State_showCellarBusy | with_reducible apply keeps_State_putSet
    | ((fail_if_success (conv => arg 2; (try zeta); arg 3)); with_reducible apply keepsP_mk)

theorem keeps_execSnapRestore {s₀ : State} {j : Slot} {s : State} (hs : Keeps s₀ s) : KeepsO s₀ (execSnapRestore j s) := by
  unfold execSnapRestore
  repeat' first
    | with_reducible assumption | with_reducible intro _ | with_reducible apply keeps_next
    | with_reducible apply keeps_State_setFld | with_reducible apply keeps_State_startOnDie
    | with_reducible apply keeps_State_beginTwo | with_reducible apply keeps_State_showCellarBusy

theorem keeps_State_rollbackRestore {s₀ : State} {s : State} {j : Nat} {target : List Nat} {xs : List Snap} (hs : Keeps s₀ s) :
    KeepsP s₀ (State.rollbackRestore s j target xs) := by
  induction xs generalizing s with
  | nil => exact hs
  | cons x rest ih =>
    unfold State.rollbackRestore
    split
    · exact ih hs
    · have h : Keeps s₀ (s.restoreWrite j x target false).1 := keeps_State_restoreWrite hs
      dsimp only
      split
      · exact ih (keeps_State_spoil h)
      · exact keeps_State_restoreCommit h

theorem keeps_State_dropCaptures {s₀ : State} {s : State} (hs : Keeps s₀ s) : Keeps s₀ (State.dropCaptures s) := by
  unfold State.dropCaptures
  repeat' first
    | with_reducible assumption | with_reducible intro _ | with_reducible apply keeps_forAll
    | with_reducible apply keeps_State_setFld | with_reducible apply keeps_State_modJob
    | with_reducible apply keeps_State_modCellar | with_reducible apply keeps_State_sweep

theorem keeps_execCellarRecovery {s₀ : State} {s : State} (hs : Keeps s₀ s) : KeepsO s₀ (execCellarRecovery s) := by
  unfold execCellarRecovery
  repeat' first
    | with_reducible assumption | with_reducible apply keeps_next | with_reducible apply keeps_ite
    | with_reducible apply keeps_State_setFld | with_reducible apply keeps_State_bump
    | with_reducible apply keeps_State_showCellar | with_reducible apply keeps_State_modCellar

end Sys2Proof.Laws
end

