-- ==== Sys2Proof/Laws/KeepsRunStart.lean ====
section
/-!
SUPPORT. Every operation of Sys2Proof/Machine/RunStart.lean keeps what Sys2Proof/Laws/Keeps.lean names: the queue, the canonical
form of the memories and of the registers, and the fuses. The lemmas follow the order of the operations in that file.
-/
namespace Sys2Proof.Laws

open Sys2Proof.Machine

theorem keeps_State_refuseGroup {s₀ : State} {s : State} {g : List (Nat × Cmd)} {st : Nat} (hs : Keeps s₀ s) :
    Keeps s₀ (State.refuseGroup s g st) := by
  unfold State.refuseGroup
  repeat' first
    | with_reducible assumption | with_reducible intro _ | with_reducible apply keeps_forAll
    | with_reducible apply keeps_State_modCmd | with_reducible apply keeps_State_refuse

theorem keeps_State_enterCore {s₀ : State} {s : State} {d : Nat} {l : Nat} {members : List Nat} (hs : Keeps s₀ s) :
    Keeps s₀ (State.enterCore s d l members) := by
  unfold State.enterCore
  repeat' first
    | with_reducible assumption | with_reducible intro _ | with_reducible apply keeps_forAll
    | with_reducible apply keeps_State_setFld | with_reducible apply keeps_State_modCore

theorem keeps_State_streamStart {s₀ : State} {s : State} {lead : Nat} {slot : Nat} {step : Nat} {mb : Nat}
    (hs : Keeps s₀ s) : Keeps s₀ (State.streamStart s lead slot step mb) := by
  unfold State.streamStart
  repeat' first | with_reducible assumption | with_reducible apply keeps_ite | with_reducible apply keeps_State_setFld

theorem keeps_State_startRun {s₀ : State} {s : State} {lead : Nat} {g : List (Nat × Cmd)} {c : Cmd} {sect : Nat}
    (hs : Keeps s₀ s) : Keeps s₀ (State.startRun s lead g c sect) := by
  unfold State.startRun
  repeat' first
    | with_reducible assumption | with_reducible intro _ | with_reducible apply keeps_forAll
    | with_reducible apply keeps_State_setFld | with_reducible apply keeps_State_modJob
    | with_reducible apply keeps_State_modCmd | with_reducible apply keeps_State_params
    | with_reducible apply keeps_State_dropTallies | with_reducible apply keeps_State_showAll
    | with_reducible apply keeps_State_enterCore | with_reducible apply keeps_State_streamStart

theorem keeps_State_tryStart {s₀ : State} {s : State} {lead : Nat} {g : List (Nat × Cmd)} {c : Cmd} (hs : Keeps s₀ s) :
    Keeps s₀ (State.tryStart s lead g c) := by
  unfold State.tryStart
  repeat' first
    | with_reducible assumption | with_reducible apply keeps_ite | with_reducible apply keeps_State_bump
    | with_reducible apply keeps_State_loadPlan | with_reducible apply keeps_State_refuseGroup
    | with_reducible apply keeps_State_startRun | with_reducible refine keeps_eq (by assumption) ?_ | split
    | ((conv => arg 2; zeta); split)

theorem keeps_State_leadRun {s₀ : State} {s : State} {lead : Nat} {c : Cmd} (hs : Keeps s₀ s) :
    Keeps s₀ (State.leadRun s lead c) := by
  unfold State.leadRun
  repeat' first
    | with_reducible assumption | with_reducible apply keeps_ite | with_reducible apply keeps_State_refuseGroup
    | with_reducible apply keeps_State_tryStart | ((conv => arg 2; (try zeta); arg 30); with_reducible apply keeps_upd)
    | split

theorem keeps_execRun {s₀ : State} {j : Slot} {s : State} (hs : Keeps s₀ s) : KeepsO s₀ (execRun j s) := by
  unfold execRun
  repeat' first
    | with_reducible assumption | with_reducible apply keeps_next | with_reducible apply keeps_ite
    | with_reducible apply keeps_State_internal | with_reducible apply keeps_State_modCmd
    | with_reducible apply keeps_State_refuse | with_reducible apply keeps_State_leadRun | split

end Sys2Proof.Laws
end

