-- ==== Sys2Proof/Laws/KeepsBeater.lean ====
section
/-!
SUPPORT. Every operation of Sys2Proof/Machine/Beater.lean keeps what Sys2Proof/Laws/Keeps.lean names: the queue, the canonical
form of the memories and of the registers, and the fuses. The lemmas follow the order of the operations in that file.
-/
namespace Sys2Proof.Laws

open Sys2Proof.Machine

theorem keeps_State_writeOut {s₀ : State} {s : State} {v : Vec} {k : Nat} {draws : Bool} {os : List OutEl}
    (hs : Keeps s₀ s) : Keeps s₀ (State.writeOut s v k draws os) := by
  unfold State.writeOut
  repeat' first
    | with_reducible assumption | with_reducible apply keeps_ite | with_reducible apply keeps_State_bump
    | with_reducible apply keeps_State_putElems | with_reducible apply keeps_State_modTally
    | with_reducible apply keeps_State_pairs | split | ((conv => arg 2; zeta); split)

theorem keeps_State_emit {s₀ : State} {s : State} {v : Vec} {k : Nat} {es : List Elem} {apply : Bool} {key : Option Nat}
    {raw : Elem → Option Nat} (hs : Keeps s₀ s) : Keeps s₀ (State.emit s v k es apply key raw) := by
  unfold State.emit
  repeat' first | with_reducible assumption | with_reducible apply keeps_State_writeOut

theorem keeps_State_foldQueue {s₀ : State} {s : State} {c : Ctx} {q : Nat} (hs : Keeps s₀ s) :
    Keeps s₀ (State.foldQueue s c q) := by
  unfold State.foldQueue
  repeat' first
    | with_reducible assumption | with_reducible intro _ | with_reducible apply keeps_forAll
    | with_reducible apply keeps_State_foldPairs | with_reducible apply keeps_State_retire
    | ((conv => arg 2; zeta); split)

theorem keeps_State_vec {s₀ : State} {s : State} {j : Slot} {d : Die} {l : Logical} {vop : Nat} {f : State → Vec → State}
    (hs : Keeps s₀ s) (hf : ∀ x0 x1, Keeps s₀ x0 → Keeps s₀ (f x0 x1)) : Keeps s₀ (State.vec s j d l vop f) := by
  unfold State.vec
  repeat' first
    | with_reducible assumption | with_reducible intro _ | with_reducible apply keeps_ite
    | with_reducible apply keepsP_ite | with_reducible apply keeps_setReg | with_reducible apply keeps_State_bump
    | with_reducible apply keeps_State_consume | with_reducible apply keeps_State_signal
    | with_reducible apply keeps_State_addFly | with_reducible apply keeps_State_issue
    | with_reducible apply keeps_State_foldQueue
    | (with_reducible refine keeps_fst ?_; with_reducible apply keeps_State_view) | with_reducible apply hf
    | with_reducible apply keeps_foldl | (with_reducible refine keeps_fst ?_; with_reducible apply keeps_foldlP)
    | ((fail_if_success (conv => arg 2; (try zeta); arg 3)); with_reducible apply keepsP_mk)
    | with_reducible exact keeps_fst (by assumption) | split

theorem keeps_State_elementwise {s₀ : State} {s : State} {v : Vec} {n : Nat} {f : Nat → Nat → Nat → Nat} (hs : Keeps s₀ s) :
    Keeps s₀ (State.elementwise s v n f) := by
  unfold State.elementwise
  repeat' first | with_reducible assumption | with_reducible apply keeps_State_emit

theorem keeps_execConvert {s₀ : State} {j : Slot} {d : Die} {l : Logical} {s : State} (hs : Keeps s₀ s) :
    KeepsO s₀ (execConvert j d l s) := by
  unfold execConvert
  repeat' first
    | with_reducible assumption | with_reducible intro _ | with_reducible apply keeps_next
    | with_reducible apply keeps_State_vec | with_reducible apply keeps_State_elementwise

theorem keeps_execAdd {s₀ : State} {j : Slot} {d : Die} {l : Logical} {s : State} (hs : Keeps s₀ s) :
    KeepsO s₀ (execAdd j d l s) := by
  unfold execAdd
  repeat' first
    | with_reducible assumption | with_reducible intro _ | with_reducible apply keeps_next
    | with_reducible apply keeps_State_vec | with_reducible apply keeps_State_elementwise

theorem keeps_execMul {s₀ : State} {j : Slot} {d : Die} {l : Logical} {s : State} (hs : Keeps s₀ s) :
    KeepsO s₀ (execMul j d l s) := by
  unfold execMul
  repeat' first
    | with_reducible assumption | with_reducible intro _ | with_reducible apply keeps_next
    | with_reducible apply keeps_State_vec | with_reducible apply keeps_State_elementwise

theorem keeps_execFma {s₀ : State} {j : Slot} {d : Die} {l : Logical} {s : State} (hs : Keeps s₀ s) :
    KeepsO s₀ (execFma j d l s) := by
  unfold execFma
  repeat' first
    | with_reducible assumption | with_reducible intro _ | with_reducible apply keeps_next
    | with_reducible apply keeps_State_vec | with_reducible apply keeps_State_elementwise

theorem keeps_execAxpy {s₀ : State} {j : Slot} {d : Die} {l : Logical} {s : State} (hs : Keeps s₀ s) :
    KeepsO s₀ (execAxpy j d l s) := by
  unfold execAxpy
  repeat' first
    | with_reducible assumption | with_reducible intro _ | with_reducible apply keeps_next
    | with_reducible apply keeps_State_vec | with_reducible apply keeps_State_elementwise

theorem keeps_execGelu {s₀ : State} {j : Slot} {d : Die} {l : Logical} {s : State} (hs : Keeps s₀ s) :
    KeepsO s₀ (execGelu j d l s) := by
  unfold execGelu
  repeat' first
    | with_reducible assumption | with_reducible intro _ | with_reducible apply keeps_next
    | with_reducible apply keeps_State_vec | with_reducible apply keeps_State_elementwise

theorem keeps_execSilu {s₀ : State} {j : Slot} {d : Die} {l : Logical} {s : State} (hs : Keeps s₀ s) :
    KeepsO s₀ (execSilu j d l s) := by
  unfold execSilu
  repeat' first
    | with_reducible assumption | with_reducible intro _ | with_reducible apply keeps_next
    | with_reducible apply keeps_State_vec | with_reducible apply keeps_State_elementwise

theorem keeps_execExp {s₀ : State} {j : Slot} {d : Die} {l : Logical} {s : State} (hs : Keeps s₀ s) :
    KeepsO s₀ (execExp j d l s) := by
  unfold execExp
  repeat' first
    | with_reducible assumption | with_reducible intro _ | with_reducible apply keeps_next
    | with_reducible apply keeps_State_vec | with_reducible apply keeps_State_elementwise

theorem keeps_execGeluBwd {s₀ : State} {j : Slot} {d : Die} {l : Logical} {s : State} (hs : Keeps s₀ s) :
    KeepsO s₀ (execGeluBwd j d l s) := by
  unfold execGeluBwd
  repeat' first
    | with_reducible assumption | with_reducible intro _ | with_reducible apply keeps_next
    | with_reducible apply keeps_State_vec | with_reducible apply keeps_State_elementwise

theorem keeps_execSiluBwd {s₀ : State} {j : Slot} {d : Die} {l : Logical} {s : State} (hs : Keeps s₀ s) :
    KeepsO s₀ (execSiluBwd j d l s) := by
  unfold execSiluBwd
  repeat' first
    | with_reducible assumption | with_reducible intro _ | with_reducible apply keeps_next
    | with_reducible apply keeps_State_vec | with_reducible apply keeps_State_elementwise

theorem keeps_State_rowwise {s₀ : State} {s : State} {v : Vec} {f : List (Nat × Nat) → Nat} (hs : Keeps s₀ s) :
    Keeps s₀ (State.rowwise s v f) := by
  unfold State.rowwise
  repeat' first | with_reducible assumption | with_reducible apply keeps_State_emit

theorem keeps_execSum {s₀ : State} {j : Slot} {d : Die} {l : Logical} {s : State} (hs : Keeps s₀ s) :
    KeepsO s₀ (execSum j d l s) := by
  unfold execSum
  repeat' first
    | with_reducible assumption | with_reducible intro _ | with_reducible apply keeps_next
    | with_reducible apply keeps_State_vec | with_reducible apply keeps_State_rowwise

theorem keeps_execMax {s₀ : State} {j : Slot} {d : Die} {l : Logical} {s : State} (hs : Keeps s₀ s) :
    KeepsO s₀ (execMax j d l s) := by
  unfold execMax
  repeat' first
    | with_reducible assumption | with_reducible intro _ | with_reducible apply keeps_next
    | with_reducible apply keeps_State_vec | with_reducible apply keeps_State_rowwise

theorem keeps_execMin {s₀ : State} {j : Slot} {d : Die} {l : Logical} {s : State} (hs : Keeps s₀ s) :
    KeepsO s₀ (execMin j d l s) := by
  unfold execMin
  repeat' first
    | with_reducible assumption | with_reducible intro _ | with_reducible apply keeps_next
    | with_reducible apply keeps_State_vec | with_reducible apply keeps_State_rowwise

theorem keeps_State_argwise {s₀ : State} {s : State} {v : Vec} {greatest : Bool} (hs : Keeps s₀ s) :
    Keeps s₀ (State.argwise s v greatest) := by
  unfold State.argwise
  repeat' first | with_reducible assumption | with_reducible apply keeps_State_emit

theorem keeps_execArgmax {s₀ : State} {j : Slot} {d : Die} {l : Logical} {s : State} (hs : Keeps s₀ s) :
    KeepsO s₀ (execArgmax j d l s) := by
  unfold execArgmax
  repeat' first
    | with_reducible assumption | with_reducible intro _ | with_reducible apply keeps_next
    | with_reducible apply keeps_State_vec | with_reducible apply keeps_State_argwise

theorem keeps_execArgmin {s₀ : State} {j : Slot} {d : Die} {l : Logical} {s : State} (hs : Keeps s₀ s) :
    KeepsO s₀ (execArgmin j d l s) := by
  unfold execArgmin
  repeat' first
    | with_reducible assumption | with_reducible intro _ | with_reducible apply keeps_next
    | with_reducible apply keeps_State_vec | with_reducible apply keeps_State_argwise

theorem keeps_State_sumsq {s₀ : State} {s : State} {v : Vec} (hs : Keeps s₀ s) : Keeps s₀ (State.sumsq s v) := by
  unfold State.sumsq
  repeat' first
    | with_reducible assumption | with_reducible apply keeps_State_setFld | with_reducible apply keeps_State_modCore

theorem keeps_execSumsq {s₀ : State} {j : Slot} {d : Die} {l : Logical} {s : State} (hs : Keeps s₀ s) :
    KeepsO s₀ (execSumsq j d l s) := by
  unfold execSumsq
  repeat' first
    | with_reducible assumption | with_reducible intro _ | with_reducible apply keeps_next
    | with_reducible apply keeps_State_vec | with_reducible apply keeps_State_sumsq

theorem keeps_State_layernorm {s₀ : State} {s : State} {v : Vec} (hs : Keeps s₀ s) : Keeps s₀ (State.layernorm s v) := by
  unfold State.layernorm
  repeat' first | with_reducible assumption | with_reducible apply keeps_State_emit

theorem keeps_execLayernorm {s₀ : State} {j : Slot} {d : Die} {l : Logical} {s : State} (hs : Keeps s₀ s) :
    KeepsO s₀ (execLayernorm j d l s) := by
  unfold execLayernorm
  repeat' first
    | with_reducible assumption | with_reducible intro _ | with_reducible apply keeps_next
    | with_reducible apply keeps_State_vec | with_reducible apply keeps_State_layernorm

theorem keeps_State_rmsnorm {s₀ : State} {s : State} {v : Vec} (hs : Keeps s₀ s) : Keeps s₀ (State.rmsnorm s v) := by
  unfold State.rmsnorm
  repeat' first | with_reducible assumption | with_reducible apply keeps_State_emit

theorem keeps_execRmsnorm {s₀ : State} {j : Slot} {d : Die} {l : Logical} {s : State} (hs : Keeps s₀ s) :
    KeepsO s₀ (execRmsnorm j d l s) := by
  unfold execRmsnorm
  repeat' first
    | with_reducible assumption | with_reducible intro _ | with_reducible apply keeps_next
    | with_reducible apply keeps_State_vec | with_reducible apply keeps_State_rmsnorm

theorem keeps_State_normBwd {s₀ : State} {s : State} {v : Vec} (hs : Keeps s₀ s) : Keeps s₀ (State.normBwd s v) := by
  unfold State.normBwd
  repeat' first | with_reducible assumption | with_reducible apply keeps_State_emit

theorem keeps_execNormBwd {s₀ : State} {j : Slot} {d : Die} {l : Logical} {s : State} (hs : Keeps s₀ s) :
    KeepsO s₀ (execNormBwd j d l s) := by
  unfold execNormBwd
  repeat' first
    | with_reducible assumption | with_reducible intro _ | with_reducible apply keeps_next
    | with_reducible apply keeps_State_vec | with_reducible apply keeps_State_normBwd

theorem keeps_State_normPgrad {s₀ : State} {s : State} {v : Vec} (hs : Keeps s₀ s) : Keeps s₀ (State.normPgrad s v) := by
  unfold State.normPgrad
  repeat' first | with_reducible assumption | with_reducible apply keeps_State_emit

theorem keeps_execNormPgrad {s₀ : State} {j : Slot} {d : Die} {l : Logical} {s : State} (hs : Keeps s₀ s) :
    KeepsO s₀ (execNormPgrad j d l s) := by
  unfold execNormPgrad
  repeat' first
    | with_reducible assumption | with_reducible intro _ | with_reducible apply keeps_next
    | with_reducible apply keeps_State_vec | with_reducible apply keeps_State_normPgrad

theorem keeps_execSoftmax {s₀ : State} {j : Slot} {d : Die} {l : Logical} {s : State} (hs : Keeps s₀ s) :
    KeepsO s₀ (execSoftmax j d l s) := by
  unfold execSoftmax
  repeat' first
    | with_reducible assumption | with_reducible intro _ | with_reducible apply keeps_next
    | with_reducible apply keeps_State_emit | with_reducible apply keeps_State_vec

theorem keeps_execSoftmaxBwd {s₀ : State} {j : Slot} {d : Die} {l : Logical} {s : State} (hs : Keeps s₀ s) :
    KeepsO s₀ (execSoftmaxBwd j d l s) := by
  unfold execSoftmaxBwd
  repeat' first
    | with_reducible assumption | with_reducible intro _ | with_reducible apply keeps_next
    | with_reducible apply keeps_State_emit | with_reducible apply keeps_State_vec

theorem keeps_execLse {s₀ : State} {j : Slot} {d : Die} {l : Logical} {s : State} (hs : Keeps s₀ s) :
    KeepsO s₀ (execLse j d l s) := by
  unfold execLse
  repeat' first
    | with_reducible assumption | with_reducible intro _ | with_reducible apply keeps_next
    | with_reducible apply keeps_State_vec | with_reducible apply keeps_State_rowwise

theorem keeps_State_skipUpdate {s₀ : State} {s : State} {v : Vec} (hs : Keeps s₀ s) : Keeps s₀ (State.skipUpdate s v) := by
  unfold State.skipUpdate
  repeat' first
    | with_reducible assumption | with_reducible apply keeps_ite | with_reducible apply keeps_State_setFld
    | with_reducible apply keeps_State_bump | with_reducible apply keeps_State_event
    | with_reducible apply keeps_State_modRun

theorem keeps_State_putState {s₀ : State} {s : State} {c : Ctx} {k : TileAt} {us : List Upd} (hs : Keeps s₀ s) :
    Keeps s₀ (State.putState s c k us) := by
  unfold State.putState
  repeat' first
    | with_reducible assumption | with_reducible intro _ | with_reducible apply keeps_State_updateIn
    | with_reducible apply write_wf | with_reducible apply setPoison_wf | with_reducible apply foldl_wf

theorem keeps_State_optimizer {s₀ : State} {s : State} {v : Vec} {adam : Bool} (hs : Keeps s₀ s) :
    Keeps s₀ (State.optimizer s v adam) := by
  unfold State.optimizer
  repeat' first
    | with_reducible assumption | with_reducible apply keeps_ite | with_reducible apply keeps_State_setFld
    | with_reducible apply keeps_State_bump | with_reducible apply keeps_State_modRun
    | with_reducible apply keeps_State_modTally | with_reducible apply keeps_State_emit
    | with_reducible apply keeps_State_skipUpdate | with_reducible apply keeps_State_putState | split

theorem keeps_execAdam {s₀ : State} {j : Slot} {d : Die} {l : Logical} {s : State} (hs : Keeps s₀ s) :
    KeepsO s₀ (execAdam j d l s) := by
  unfold execAdam
  repeat' first
    | with_reducible assumption | with_reducible intro _ | with_reducible apply keeps_next
    | with_reducible apply keeps_State_vec | with_reducible apply keeps_State_optimizer

theorem keeps_execSgd {s₀ : State} {j : Slot} {d : Die} {l : Logical} {s : State} (hs : Keeps s₀ s) :
    KeepsO s₀ (execSgd j d l s) := by
  unfold execSgd
  repeat' first
    | with_reducible assumption | with_reducible intro _ | with_reducible apply keeps_next
    | with_reducible apply keeps_State_vec | with_reducible apply keeps_State_optimizer

theorem keeps_State_stashPack {s₀ : State} {s : State} {v : Vec} (hs : Keeps s₀ s) : Keeps s₀ (State.stashPack s v) := by
  unfold State.stashPack
  repeat' first
    | with_reducible assumption | with_reducible apply keeps_State_bump | with_reducible apply keeps_State_writeOut

theorem keeps_execStashPack {s₀ : State} {j : Slot} {d : Die} {l : Logical} {s : State} (hs : Keeps s₀ s) :
    KeepsO s₀ (execStashPack j d l s) := by
  unfold execStashPack
  repeat' first
    | with_reducible assumption | with_reducible intro _ | with_reducible apply keeps_next
    | with_reducible apply keeps_State_vec | with_reducible apply keeps_State_stashPack

theorem keeps_execStashUnpack {s₀ : State} {j : Slot} {d : Die} {l : Logical} {s : State} (hs : Keeps s₀ s) :
    KeepsO s₀ (execStashUnpack j d l s) := by
  unfold execStashUnpack
  repeat' first
    | with_reducible assumption | with_reducible intro _ | with_reducible apply keeps_next
    | with_reducible apply keeps_State_emit | with_reducible apply keeps_State_vec

theorem keeps_State_dropout {s₀ : State} {s : State} {v : Vec} (hs : Keeps s₀ s) : Keeps s₀ (State.dropout s v) := by
  unfold State.dropout
  repeat' first | with_reducible assumption | with_reducible apply keeps_State_emit

theorem keeps_execDropout {s₀ : State} {j : Slot} {d : Die} {l : Logical} {s : State} (hs : Keeps s₀ s) :
    KeepsO s₀ (execDropout j d l s) := by
  unfold execDropout
  repeat' first
    | with_reducible assumption | with_reducible intro _ | with_reducible apply keeps_next
    | with_reducible apply keeps_State_vec | with_reducible apply keeps_State_dropout

theorem keeps_execDropoutBwd {s₀ : State} {j : Slot} {d : Die} {l : Logical} {s : State} (hs : Keeps s₀ s) :
    KeepsO s₀ (execDropoutBwd j d l s) := by
  unfold execDropoutBwd
  repeat' first
    | with_reducible assumption | with_reducible intro _ | with_reducible apply keeps_next
    | with_reducible apply keeps_State_vec | with_reducible apply keeps_State_dropout

theorem keeps_State_bs16Pack {s₀ : State} {s : State} {v : Vec} (hs : Keeps s₀ s) : Keeps s₀ (State.bs16Pack s v) := by
  unfold State.bs16Pack
  repeat' first
    | with_reducible assumption | with_reducible intro _ | with_reducible apply keeps_State_bump
    | with_reducible apply keeps_State_update | with_reducible apply writeP_wf | with_reducible apply foldl_wf

theorem keeps_execBs16Pack {s₀ : State} {j : Slot} {d : Die} {l : Logical} {s : State} (hs : Keeps s₀ s) :
    KeepsO s₀ (execBs16Pack j d l s) := by
  unfold execBs16Pack
  repeat' first
    | with_reducible assumption | with_reducible intro _ | with_reducible apply keeps_next
    | with_reducible apply keeps_State_vec | with_reducible apply keeps_State_bs16Pack

theorem keeps_State_bs16Unpack {s₀ : State} {s : State} {v : Vec} (hs : Keeps s₀ s) : Keeps s₀ (State.bs16Unpack s v) := by
  unfold State.bs16Unpack
  repeat' first
    | with_reducible assumption | with_reducible apply keeps_State_consume | with_reducible apply keeps_State_emit
    | split

theorem keeps_execBs16Unpack {s₀ : State} {j : Slot} {d : Die} {l : Logical} {s : State} (hs : Keeps s₀ s) :
    KeepsO s₀ (execBs16Unpack j d l s) := by
  unfold execBs16Unpack
  repeat' first
    | with_reducible assumption | with_reducible intro _ | with_reducible apply keeps_next
    | with_reducible apply keeps_State_vec | with_reducible apply keeps_State_bs16Unpack

theorem keeps_State_scatter {s₀ : State} {s : State} {v : Vec} {kind : Nat} (hs : Keeps s₀ s) :
    Keeps s₀ (State.scatter s v kind) := by
  unfold State.scatter
  repeat' first
    | with_reducible assumption | with_reducible intro _ | with_reducible apply keeps_State_bump
    | with_reducible apply keeps_State_updateIn | with_reducible apply keeps_State_consume
    | with_reducible apply atomic_wf | with_reducible apply foldl_wf | split

theorem keeps_execScatterAdd {s₀ : State} {j : Slot} {d : Die} {l : Logical} {s : State} (hs : Keeps s₀ s) :
    KeepsO s₀ (execScatterAdd j d l s) := by
  unfold execScatterAdd
  repeat' first
    | with_reducible assumption | with_reducible intro _ | with_reducible apply keeps_next
    | with_reducible apply keeps_State_vec | with_reducible apply keeps_State_scatter

theorem keeps_execCount {s₀ : State} {j : Slot} {d : Die} {l : Logical} {s : State} (hs : Keeps s₀ s) :
    KeepsO s₀ (execCount j d l s) := by
  unfold execCount
  repeat' first
    | with_reducible assumption | with_reducible intro _ | with_reducible apply keeps_next
    | with_reducible apply keeps_State_vec | with_reducible apply keeps_State_scatter

theorem keeps_execScatterSwap {s₀ : State} {j : Slot} {d : Die} {l : Logical} {s : State} (hs : Keeps s₀ s) :
    KeepsO s₀ (execScatterSwap j d l s) := by
  unfold execScatterSwap
  repeat' first
    | with_reducible assumption | with_reducible intro _ | with_reducible apply keeps_next
    | with_reducible apply keeps_State_vec | with_reducible apply keeps_State_scatter

theorem keeps_State_measureEntry {s₀ : State} {s : State} {v : Vec} (hs : Keeps s₀ s) :
    Keeps s₀ (State.measureEntry s v) := by
  unfold State.measureEntry
  repeat' first
    | with_reducible assumption | with_reducible apply keeps_State_modTally | with_reducible apply keeps_State_pairs
    | ((conv => arg 2; zeta); split)

theorem keeps_execMeasureEntry {s₀ : State} {j : Slot} {d : Die} {l : Logical} {s : State} (hs : Keeps s₀ s) :
    KeepsO s₀ (execMeasureEntry j d l s) := by
  unfold execMeasureEntry
  repeat' first
    | with_reducible assumption | with_reducible intro _ | with_reducible apply keeps_next
    | with_reducible apply keeps_State_vec | with_reducible apply keeps_State_measureEntry

theorem keeps_execMeasureFold {s₀ : State} {j : Slot} {d : Die} {l : Logical} {s : State} (hs : Keeps s₀ s) :
    KeepsO s₀ (execMeasureFold j d l s) := by
  unfold execMeasureFold
  repeat' first
    | with_reducible assumption | with_reducible apply keeps_next | with_reducible apply keeps_State_foldQueue | split

end Sys2Proof.Laws
end

