-- ==== Sys2Proof/Laws/KeepsLarder.lean ====
section
/-!
SUPPORT. Every operation of Sys2Proof/Machine/Larder.lean keeps what Sys2Proof/Laws/Keeps.lean names: the queue, the canonical
form of the memories and of the registers, and the fuses. The lemmas follow the order of the operations in that file.
-/
namespace Sys2Proof.Laws

open Sys2Proof.Machine

theorem keeps_State_deviceFails {s₀ : State} {s : State} {n : Nat} (hs : Keeps s₀ s) : Keeps s₀ (State.deviceFails s n) := by
  unfold State.deviceFails
  repeat' first
    | with_reducible assumption | with_reducible apply keeps_State_setFld
    | with_reducible apply keeps_State_leaveService

theorem keeps_State_larderUe {s₀ : State} {s : State} {la : Nat} (hs : Keeps s₀ s) : Keeps s₀ (State.larderUe s la) := by
  unfold State.larderUe
  repeat' first
    | with_reducible assumption | with_reducible intro _ | with_reducible apply keeps_State_setFld
    | with_reducible apply keeps_State_bump | with_reducible apply keeps_State_poisonLog
    | ((conv => arg 2; (try zeta); arg 30); with_reducible apply keeps_mem) | with_reducible apply setPoison_wf
    | with_reducible refine wf_host (Keeps.wf ?_ (by assumption))
    | with_reducible refine wf_larder (Keeps.wf ?_ (by assumption))
    | with_reducible refine wf_attic (Keeps.wf ?_ (by assumption))
    | with_reducible refine wf_shelf (Keeps.wf ?_ (by assumption))
    | with_reducible refine wf_store (Keeps.wf ?_ (by assumption))

theorem keeps_State_burst {s₀ : State} {s : State} {reads : List (Nat × Nat)} {writes : List (Nat × Nat)} {e : BurstErr}
    (hs : Keeps s₀ s) : Keeps s₀ (State.burst s reads writes e) := by
  unfold State.burst
  repeat' first
    | with_reducible assumption | with_reducible apply keeps_ite | with_reducible apply keeps_State_bump
    | with_reducible apply keeps_State_deviceFails | with_reducible apply keeps_State_larderUe | split

theorem keeps_State_bursts {s₀ : State} {s : State} {reads : List (Nat × Nat)} {writes : List (Nat × Nat)}
    {errs : List BurstErr} (hs : Keeps s₀ s) : Keeps s₀ (State.bursts s reads writes errs) := by
  unfold State.bursts
  repeat' first
    | with_reducible assumption | with_reducible intro _ | with_reducible apply keeps_State_burst
    | with_reducible apply keeps_foldl

theorem keeps_execPatrolScrub {s₀ : State} {g : Nat} {found : ScrubFind} {s : State} (hs : Keeps s₀ s) :
    KeepsO s₀ (execPatrolScrub g found s) := by
  unfold execPatrolScrub
  repeat' first
    | with_reducible assumption | with_reducible apply keeps_next | with_reducible apply keeps_ite
    | with_reducible apply keeps_State_bump | with_reducible apply keeps_State_poisonLog
    | with_reducible apply keeps_State_larderUe | split

end Sys2Proof.Laws
end

