-- ==== Sys2Proof/Laws/KeepsBoundary.lean ====
section
/-!
SUPPORT. Every operation of Sys2Proof/Machine/Boundary.lean keeps what Sys2Proof/Laws/Keeps.lean names: the queue, the canonical
form of the memories and of the registers, and the fuses. The lemmas follow the order of the operations in that file.
-/
namespace Sys2Proof.Laws

open Sys2Proof.Machine

theorem keeps_State_gnSet {s₀ : State} {s : State} {d : Nat} {l : Nat} {r : Nat × Bool × Bool} (hs : Keeps s₀ s) :
    Keeps s₀ (State.gnSet s d l r) := by
  unfold State.gnSet
  repeat' first | with_reducible assumption | with_reducible apply keeps_State_setFld

theorem keeps_State_gnCombine {s₀ : State} {s : State} {c : Ctx} {scope : Nat} (hs : Keeps s₀ s) :
    Keeps s₀ (State.gnCombine s c scope) := by
  unfold State.gnCombine
  repeat' first
    | with_reducible assumption | with_reducible intro _ | with_reducible apply keeps_forAll
    | with_reducible apply keeps_State_gnSet

theorem keeps_execPhaseBarrier {s₀ : State} {j : Slot} {s : State} (hs : Keeps s₀ s) : KeepsO s₀ (execPhaseBarrier j s) := by
  unfold execPhaseBarrier
  repeat' first
    | with_reducible assumption | with_reducible apply keeps_next | with_reducible apply keeps_ite
    | with_reducible apply keeps_State_modRun | with_reducible apply keeps_State_showAll
    | with_reducible apply keeps_State_gnCombine | split

theorem keeps_execYieldPoint {s₀ : State} {j : Slot} {s : State} (hs : Keeps s₀ s) : KeepsO s₀ (execYieldPoint j s) := by
  unfold execYieldPoint
  repeat' first
    | with_reducible assumption | with_reducible apply keeps_next | with_reducible apply keeps_ite
    | with_reducible apply keeps_State_modRun | with_reducible apply keeps_State_passYield | split

theorem keeps_State_byEngine {s₀ : State} {s : State} {c : Ctx} {pd : Nat} {restore : Bool} {f : State → State}
    (hs : Keeps s₀ s) (hf : ∀ x0, Keeps s₀ x0 → Keeps s₀ (f x0)) : Keeps s₀ (State.byEngine s c pd restore f) := by
  unfold State.byEngine
  repeat' first
    | with_reducible assumption | with_reducible apply keeps_State_engineOn | with_reducible apply keeps_State_engineOff
    | with_reducible apply hf

theorem keeps_State_loadCore {s₀ : State} {s : State} {lead : Nat} {d : Nat} {l : Nat} {members : List Nat}
    {v : SavedCore} (hs : Keeps s₀ s) : Keeps s₀ (State.loadCore s lead d l members v) := by
  unfold State.loadCore
  repeat' first
    | with_reducible assumption | with_reducible intro _ | with_reducible apply keeps_setReg
    | with_reducible apply keeps_forAll | with_reducible apply keeps_State_setFld
    | with_reducible apply keeps_State_modCore

theorem keeps_State_hidePrint {s₀ : State} {s : State} {c : Ctx} (hs : Keeps s₀ s) : Keeps s₀ (State.hidePrint s c) := by
  unfold State.hidePrint
  repeat' first
    | with_reducible assumption | with_reducible intro _ | with_reducible apply keeps_forAll
    | with_reducible apply keeps_State_setFld | with_reducible apply keeps_State_hideQueue

theorem keeps_State_spillDie {s₀ : State} {s : State} {c : Ctx} {pd : Nat} (hs : Keeps s₀ s) :
    Keeps s₀ (State.spillDie s c pd) := by
  unfold State.spillDie
  repeat' first
    | with_reducible assumption | with_reducible intro _ | with_reducible apply keeps_ite
    | with_reducible apply keeps_forAll | with_reducible apply keeps_State_modCore
    | with_reducible apply keeps_State_modLarder | with_reducible apply keeps_State_scramble
    | with_reducible apply keeps_State_bankReady | with_reducible apply keeps_State_setOwner
    | with_reducible apply keeps_State_modRun | with_reducible apply copy_wf | with_reducible apply scrub_wf
    | with_reducible refine wf_shelf (Keeps.wf ?_ (by assumption))
    | with_reducible refine wf_store (Keeps.wf ?_ (by assumption)) | split

theorem keeps_execJobSpill {s₀ : State} {j : Slot} {errs : List BurstErr} {s : State} (hs : Keeps s₀ s) :
    KeepsO s₀ (execJobSpill j errs s) := by
  unfold execJobSpill
  repeat' first
    | with_reducible assumption | with_reducible intro _ | with_reducible apply keeps_next
    | with_reducible apply keeps_ite | with_reducible apply keeps_forAll | with_reducible apply keeps_State_setFld
    | with_reducible apply keeps_State_bump | with_reducible apply keeps_State_modRun
    | with_reducible apply keeps_State_bursts | with_reducible apply keeps_State_byEngine
    | with_reducible apply keeps_State_hidePrint | with_reducible apply keeps_State_spillDie | split

theorem keeps_State_restoreDie {s₀ : State} {s : State} {c : Ctx} {pd : Nat} (hs : Keeps s₀ s) :
    Keeps s₀ (State.restoreDie s c pd) := by
  unfold State.restoreDie
  repeat' first
    | with_reducible assumption | with_reducible intro _ | with_reducible apply keeps_forAll
    | with_reducible apply keeps_State_modBank | with_reducible apply keeps_State_scramble
    | with_reducible apply keeps_State_bankReady | with_reducible apply keeps_State_setOwner
    | with_reducible apply keeps_State_setHanded | with_reducible apply keeps_State_loadCore
    | with_reducible apply copy_wf | with_reducible refine wf_larder (Keeps.wf ?_ (by assumption)) | split
    | ((conv => arg 2; zeta); split)

theorem keeps_execJobResume {s₀ : State} {j : Slot} {errs : List BurstErr} {s : State} (hs : Keeps s₀ s) :
    KeepsO s₀ (execJobResume j errs s) := by
  unfold execJobResume
  repeat' first
    | with_reducible assumption | with_reducible intro _ | with_reducible apply keeps_next
    | with_reducible apply keeps_ite | with_reducible apply keeps_forAll | with_reducible apply keeps_State_setFld
    | with_reducible apply keeps_State_bump | with_reducible apply keeps_State_modRun
    | with_reducible apply keeps_State_passYield | with_reducible apply keeps_State_bursts
    | with_reducible apply keeps_State_byEngine | with_reducible apply keeps_State_restoreDie | split

theorem keeps_State_setDigest {s₀ : State} {s : State} {a : Nat} {f : Fld} {bs : List Byte} (hs : Keeps s₀ s) :
    Keeps s₀ (State.setDigest s a f bs) := by
  unfold State.setDigest
  repeat' first
    | with_reducible assumption | with_reducible intro _ | with_reducible apply keeps_forAll
    | with_reducible apply keeps_State_setFld

theorem keeps_State_showWm {s₀ : State} {s : State} {d : Nat} {lead : Nat} {step : Nat} {w : List Byte × Bool}
    (hs : Keeps s₀ s) : Keeps s₀ (State.showWm s d lead step w) := by
  unfold State.showWm
  repeat' first
    | with_reducible assumption | with_reducible apply keeps_State_setFld | with_reducible apply keeps_State_setDigest

theorem keeps_State_hold {s₀ : State} {s : State} {j : Nat} {cause : Nat} (hs : Keeps s₀ s) :
    Keeps s₀ (State.hold s j cause) := by
  unfold State.hold
  repeat' first
    | with_reducible assumption | with_reducible apply keeps_State_setFld | with_reducible apply keeps_State_bump
    | with_reducible apply keeps_State_modRun

theorem keeps_State_needRollback {s₀ : State} {s : State} {j : Nat} {armed : Bool} (hs : Keeps s₀ s) :
    Keeps s₀ (State.needRollback s j armed) := by
  unfold State.needRollback
  repeat' first
    | with_reducible assumption | with_reducible apply keeps_ite | with_reducible apply keeps_State_setFld
    | with_reducible apply keeps_State_hold

theorem keeps_State_wmEffect {s₀ : State} {s : State} {j : Nat} {r : Run} {out : Nat} {disagree : Nat} {agree : Bool}
    (hs : Keeps s₀ s) : Keeps s₀ (State.wmEffect s j r out disagree agree) := by
  unfold State.wmEffect
  repeat' first
    | with_reducible assumption | with_reducible intro _ | with_reducible apply keeps_ite
    | with_reducible apply keeps_forAll | with_reducible apply keeps_State_setFld
    | with_reducible apply keeps_State_bump | with_reducible apply keeps_State_bumpSat
    | with_reducible apply keeps_State_modJob | with_reducible apply keeps_State_internal
    | with_reducible apply keeps_State_modRun | with_reducible apply keeps_State_leaveService
    | with_reducible apply keeps_State_needRollback

theorem keeps_execWatermark {s₀ : State} {j : Slot} {s : State} (hs : Keeps s₀ s) : KeepsO s₀ (execWatermark j s) := by
  unfold execWatermark
  repeat' first
    | with_reducible assumption | with_reducible intro _ | with_reducible apply keeps_next
    | with_reducible apply keeps_ite | with_reducible apply keeps_setReg | with_reducible apply keeps_forAll
    | with_reducible apply keeps_State_modJob | with_reducible apply keeps_State_event
    | with_reducible apply keeps_State_showWm | with_reducible apply keeps_State_wmEffect | split

theorem keeps_State_foldAll {s₀ : State} {s : State} {lead : Nat} (hs : Keeps s₀ s) : Keeps s₀ (State.foldAll s lead) := by
  unfold State.foldAll
  repeat' first
    | with_reducible assumption | with_reducible intro _ | with_reducible apply keeps_ite
    | with_reducible apply keeps_forAll | with_reducible apply keeps_State_foldPairs | split

theorem keeps_State_stewardBoundary {s₀ : State} {s : State} {lead : Nat} (hs : Keeps s₀ s) :
    Keeps s₀ (State.stewardBoundary s lead) := by
  unfold State.stewardBoundary
  repeat' first
    | with_reducible assumption | with_reducible apply keeps_State_stewardAll | with_reducible apply keeps_State_foldAll

theorem keeps_execStewardRun {s₀ : State} {j : Slot} {s : State} (hs : Keeps s₀ s) : KeepsO s₀ (execStewardRun j s) := by
  unfold execStewardRun
  repeat' first
    | with_reducible assumption | with_reducible apply keeps_next | with_reducible apply keeps_ite
    | with_reducible apply keeps_State_stewardBoundary

theorem keeps_execRollback {s₀ : State} {j : Slot} {s : State} (hs : Keeps s₀ s) : KeepsO s₀ (execRollback j s) := by
  unfold execRollback
  repeat' first
    | with_reducible assumption | with_reducible intro _ | with_reducible apply keeps_next
    | with_reducible apply keeps_ite | with_reducible apply keeps_forAll | with_reducible apply keeps_State_setFld
    | with_reducible apply keeps_State_bump | with_reducible apply keeps_State_event
    | with_reducible apply keeps_State_modRun | with_reducible apply keeps_State_dropTallies
    | with_reducible apply keeps_State_showSteward | with_reducible apply keeps_State_rollbackRestore
    | with_reducible apply keeps_State_hold | with_reducible refine keeps_eq (by assumption) ?_ | split

theorem keeps_State_finalDigests {s₀ : State} {s : State} {j : Nat} {r : Run} (hs : Keeps s₀ s) :
    Keeps s₀ (State.finalDigests s j r) := by
  unfold State.finalDigests
  repeat' first
    | with_reducible assumption | with_reducible intro _ | with_reducible apply keeps_forAll
    | with_reducible apply keeps_State_setFld | with_reducible apply keeps_State_modJob
    | with_reducible apply keeps_State_event | with_reducible apply keeps_State_ringErr
    | with_reducible apply keeps_State_setDigest

theorem keeps_execStepBoundary {s₀ : State} {j : Slot} {s : State} (hs : Keeps s₀ s) : KeepsO s₀ (execStepBoundary j s) := by
  unfold execStepBoundary
  repeat' first
    | with_reducible assumption | with_reducible intro _ | with_reducible apply keeps_next
    | with_reducible apply keeps_ite | with_reducible apply keeps_forAll | with_reducible apply keeps_State_modJob
    | with_reducible apply keeps_State_modCmd | with_reducible apply keeps_State_postCmd
    | with_reducible apply keeps_State_refuse | with_reducible apply keeps_State_params
    | with_reducible apply keeps_State_modRun | with_reducible apply keeps_State_hidePrint
    | with_reducible apply keeps_State_finalDigests | split

end Sys2Proof.Laws
end

