-- ==== Sys2Proof/Laws/KeepsFaults.lean ====
section
/-!
SUPPORT. Every operation of Sys2Proof/Machine/Faults.lean keeps what Sys2Proof/Laws/Keeps.lean names: the queue, the canonical
form of the memories and of the registers, and the fuses. The lemmas follow the order of the operations in that file.
-/
namespace Sys2Proof.Laws

open Sys2Proof.Machine

theorem keeps_State_showFill {s₀ : State} {s : State} {d : Nat} (hs : Keeps s₀ s) : Keeps s₀ (State.showFill s d) := by
  unfold State.showFill
  repeat' first
    | with_reducible assumption | with_reducible apply keeps_setReg | with_reducible apply keeps_State_setFld
    | with_reducible apply keeps_State_showSpares | split

theorem keeps_State_checkSpares {s₀ : State} {s : State} {d : Nat} (hs : Keeps s₀ s) : Keeps s₀ (State.checkSpares s d) := by
  unfold State.checkSpares
  repeat' first
    | with_reducible assumption | with_reducible apply keeps_ite | with_reducible apply keeps_State_leaveService

theorem keeps_State_queueFill {s₀ : State} {s : State} {d : Nat} {l : Nat} {p : Nat} {cause : Nat} (hs : Keeps s₀ s) :
    Keeps s₀ (State.queueFill s d l p cause) := by
  unfold State.queueFill
  repeat' first
    | with_reducible assumption | with_reducible apply keeps_ite | with_reducible apply keeps_State_modDie
    | with_reducible apply keeps_State_trace | with_reducible apply keeps_State_showFill
    | with_reducible apply keeps_State_checkSpares

theorem keeps_State_modFill {s₀ : State} {s : State} {d : Nat} {f : FillSt → FillSt} (hs : Keeps s₀ s) :
    Keeps s₀ (State.modFill s d f) := by
  unfold State.modFill
  repeat' first | with_reducible assumption | with_reducible apply keeps_State_modDie

theorem keeps_State_markCore {s₀ : State} {s : State} {d : Nat} {p : Nat} {cause : Nat} (hs : Keeps s₀ s) :
    Keeps s₀ (State.markCore s d p cause) := by
  unfold State.markCore
  repeat' first | with_reducible assumption | with_reducible apply keeps_State_setFld

theorem keeps_State_failSpare {s₀ : State} {s : State} {d : Nat} {q : Nat} {cause : Nat} (hs : Keeps s₀ s) :
    Keeps s₀ (State.failSpare s d q cause) := by
  unfold State.failSpare
  repeat' first
    | with_reducible assumption | with_reducible intro _ | with_reducible apply keeps_State_setFld
    | with_reducible apply keeps_State_markCore | ((conv => arg 2; (try zeta); arg 30); with_reducible apply keeps_nvm)
    | exact Nat.le_refl _

theorem keeps_State_fillFails {s₀ : State} {s : State} {d : Nat} {cause : Nat} (hs : Keeps s₀ s) :
    Keeps s₀ (State.fillFails s d cause) := by
  unfold State.fillFails
  repeat' first
    | with_reducible assumption | with_reducible apply keeps_State_bump | with_reducible apply keeps_State_showFill
    | with_reducible apply keeps_State_checkSpares | with_reducible apply keeps_State_modFill
    | with_reducible apply keeps_State_failSpare | split

theorem keeps_State_startFill {s₀ : State} {s : State} {d : Nat} (hs : Keeps s₀ s) : Keeps s₀ (State.startFill s d) := by
  unfold State.startFill
  repeat' first
    | with_reducible assumption | with_reducible apply keeps_ite | with_reducible apply keeps_State_setFld
    | with_reducible apply keeps_State_leaveService | with_reducible apply keeps_State_showFill
    | with_reducible apply keeps_State_modFill | split

theorem keeps_State_fillBanks {s₀ : State} {s : State} {d : Nat} {src : Nat} {dst : Nat} {n : Nat} (hs : Keeps s₀ s) :
    Keeps s₀ (State.fillBanks s d src dst n) := by
  unfold State.fillBanks
  repeat' first
    | with_reducible assumption | with_reducible intro _ | with_reducible apply keeps_ite
    | with_reducible apply keeps_forAll | with_reducible apply keeps_State_scramble
    | with_reducible apply keeps_State_bankWake | with_reducible apply keeps_State_bankReady
    | with_reducible apply keeps_State_setOwner | ((conv => arg 2; (try zeta); arg 30); with_reducible apply keeps_mem)
    | with_reducible apply copy_wf | with_reducible refine wf_host (Keeps.wf ?_ (by assumption))
    | with_reducible refine wf_larder (Keeps.wf ?_ (by assumption))
    | with_reducible refine wf_attic (Keeps.wf ?_ (by assumption))
    | with_reducible refine wf_shelf (Keeps.wf ?_ (by assumption))
    | with_reducible refine wf_store (Keeps.wf ?_ (by assumption))

theorem keeps_State_fillState {s₀ : State} {s : State} {d : Nat} {src : Nat} {dst : Nat} (hs : Keeps s₀ s) :
    Keeps s₀ (State.fillState s d src dst) := by
  unfold State.fillState
  repeat' first
    | with_reducible assumption | with_reducible intro _ | with_reducible apply keeps_setReg
    | with_reducible apply keeps_forAll | with_reducible apply keeps_State_setFld
    | with_reducible apply keeps_State_setCore

theorem keeps_State_fillCopy {s₀ : State} {s : State} {d : Nat} {n : Nat} (hs : Keeps s₀ s) :
    Keeps s₀ (State.fillCopy s d n) := by
  unfold State.fillCopy
  repeat' first
    | with_reducible assumption | with_reducible apply keeps_State_bump | with_reducible apply keeps_State_showFill
    | with_reducible apply keeps_State_modFill | with_reducible apply keeps_State_fillBanks
    | with_reducible apply keeps_State_fillState | split

theorem keeps_State_fillGo {s₀ : State} {s : State} {d : Nat} (hs : Keeps s₀ s) : KeepsP s₀ (State.fillGo s d) := by
  unfold State.fillGo
  repeat' first
    | with_reducible assumption | with_reducible apply keeps_State_startFill
    | ((fail_if_success (conv => arg 2; (try zeta); arg 3)); with_reducible apply keepsP_mk)

theorem keeps_execCoreFill {s₀ : State} {d : Die} {katOk : Bool} {s : State} (hs : Keeps s₀ s) :
    KeepsO s₀ (execCoreFill d katOk s) := by
  unfold execCoreFill
  repeat' first
    | with_reducible assumption | with_reducible apply keeps_next | with_reducible apply keeps_ite
    | with_reducible apply keeps_State_showFill | with_reducible apply keeps_State_modFill
    | with_reducible apply keeps_State_fillFails | with_reducible apply keeps_State_fillCopy
    | (with_reducible refine keeps_fst ?_; with_reducible apply keeps_State_fillGo)

theorem keeps_execFillReadTimeout {s₀ : State} {d : Die} {arrived : Bool} {s : State} (hs : Keeps s₀ s) :
    KeepsO s₀ (execFillReadTimeout d arrived s) := by
  unfold execFillReadTimeout
  repeat' first
    | with_reducible assumption | with_reducible apply keeps_next | with_reducible apply keeps_ite
    | with_reducible apply keeps_State_bump | with_reducible apply keeps_State_drawn
    | with_reducible apply keeps_State_fillCopy
    | (with_reducible refine keeps_fst ?_; with_reducible apply keeps_State_fillGo)

theorem keeps_State_mapTo {s₀ : State} {s : State} {d : Nat} {l : Nat} {q : Nat} {cause : Nat} (hs : Keeps s₀ s) :
    Keeps s₀ (State.mapTo s d l q cause) := by
  unfold State.mapTo
  repeat' first
    | with_reducible assumption | with_reducible intro _ | with_reducible apply keeps_State_setFld
    | with_reducible apply keeps_State_modNvm | with_reducible apply keeps_State_markCore | split | exact Nat.le_refl _

theorem keeps_State_holdAgain {s₀ : State} {s : State} {c : Ctx} {q : Nat} {f : Fly} (hs : Keeps s₀ s) :
    Keeps s₀ (State.holdAgain s c q f) := by
  unfold State.holdAgain
  repeat' first
    | with_reducible assumption | with_reducible apply keeps_State_showPending | with_reducible apply keeps_State_modFly

theorem keeps_State_reissue {s₀ : State} {s : State} {d : Nat} {l : Nat} {fs : List MmaFly} (hs : Keeps s₀ s) :
    Keeps s₀ (State.reissue s d l fs) := by
  unfold State.reissue
  repeat' first
    | with_reducible assumption | with_reducible intro _ | with_reducible apply keeps_forAll
    | with_reducible apply keeps_State_openMma | with_reducible apply keeps_State_holdAgain | split

theorem keeps_State_redoVec {s₀ : State} {s : State} {c : Ctx} {l : Nat} {f : Fly} (hs : Keeps s₀ s) :
    Keeps s₀ (State.redoVec s c l f) := by
  unfold State.redoVec
  repeat' first
    | with_reducible assumption | with_reducible intro _ | with_reducible apply keeps_ite
    | with_reducible apply keeps_forAll | with_reducible apply keeps_State_modCore
    | with_reducible apply keeps_State_changeBut | with_reducible apply keeps_State_retire
    | with_reducible apply keeps_State_holdAgain | with_reducible apply setPoison_wf

theorem keeps_State_redoVecs {s₀ : State} {s : State} {d : Nat} {l : Nat} (hs : Keeps s₀ s) :
    Keeps s₀ (State.redoVecs s d l) := by
  unfold State.redoVecs
  repeat' first
    | with_reducible assumption | with_reducible intro _ | with_reducible apply keeps_forAll
    | with_reducible apply keeps_State_redoVec | split

theorem keeps_State_moveDenials {s₀ : State} {s : State} {d : Nat} {src : Nat} {dst : Nat} (hs : Keeps s₀ s) :
    Keeps s₀ (State.moveDenials s d src dst) := by
  unfold State.moveDenials
  repeat' first
    | with_reducible assumption | with_reducible intro _ | with_reducible apply keeps_forAll
    | with_reducible apply keeps_State_modRun

theorem keeps_State_banksOff {s₀ : State} {s : State} {d : Nat} {p : Nat} (hs : Keeps s₀ s) :
    Keeps s₀ (State.banksOff s d p) := by
  unfold State.banksOff
  repeat' first
    | with_reducible assumption | with_reducible intro _ | with_reducible apply keeps_forAll
    | with_reducible apply keeps_State_modDie | with_reducible apply keeps_State_bankSleep
    | with_reducible apply keeps_State_setOwner | ((conv => arg 2; (try zeta); arg 30); with_reducible apply keeps_upd)

theorem keeps_execFillMapSwitch {s₀ : State} {d : Die} {s : State} (hs : Keeps s₀ s) : KeepsO s₀ (execFillMapSwitch d s) := by
  unfold execFillMapSwitch
  repeat' first
    | with_reducible assumption | with_reducible intro _ | with_reducible apply keeps_next
    | with_reducible apply keeps_ite | with_reducible apply keeps_setReg | with_reducible apply keeps_forAll
    | with_reducible apply keeps_State_bump | with_reducible apply keeps_State_modDie
    | with_reducible apply keeps_State_modCore | with_reducible apply keeps_State_event
    | with_reducible apply keeps_State_setOwner | with_reducible apply keeps_State_showQueue
    | with_reducible apply keeps_State_showFill | with_reducible apply keeps_State_mapTo
    | with_reducible apply keeps_State_reissue | with_reducible apply keeps_State_redoVecs
    | with_reducible apply keeps_State_moveDenials | with_reducible apply keeps_State_banksOff | split

theorem keeps_State_cancelPending {s₀ : State} {s : State} {d : Nat} {l : Nat} {p : Nat} (hs : Keeps s₀ s) :
    Keeps s₀ (State.cancelPending s d l p) := by
  unfold State.cancelPending
  repeat' first
    | with_reducible assumption | with_reducible intro _ | with_reducible apply keeps_forAll
    | with_reducible apply keeps_State_setQueue | with_reducible apply keeps_State_showPending | split

theorem keeps_execHeartbeatTimeout {s₀ : State} {d : Die} {p : Phys} {arrived : Bool} {s : State} (hs : Keeps s₀ s) :
    KeepsO s₀ (execHeartbeatTimeout d p arrived s) := by
  unfold execHeartbeatTimeout
  repeat' first
    | with_reducible assumption | with_reducible apply keeps_next | with_reducible apply keeps_ite
    | with_reducible apply keeps_State_setFld | with_reducible apply keeps_State_bump
    | with_reducible apply keeps_State_queueFill | with_reducible apply keeps_State_fillFails
    | with_reducible apply keeps_State_cancelPending | split

theorem keeps_execCoreRetire {s₀ : State} {d : Die} {p : Phys} {cause : Nat} {s : State} (hs : Keeps s₀ s) :
    KeepsO s₀ (execCoreRetire d p cause s) := by
  unfold execCoreRetire
  repeat' first
    | with_reducible assumption | with_reducible intro _ | with_reducible apply keeps_next
    | with_reducible apply keeps_ite | with_reducible apply keeps_forAll | with_reducible apply keeps_State_setFld
    | with_reducible apply keeps_State_bump | with_reducible apply keeps_State_bankWake
    | with_reducible apply keeps_State_showSpares | with_reducible apply keeps_State_queueFill
    | with_reducible apply keeps_State_mapTo | with_reducible apply keeps_State_banksOff
    | ((conv => arg 2; (try zeta); arg 30); with_reducible apply keeps_nvm) | split | exact Nat.le_refl _

theorem keeps_State_showMarch {s₀ : State} {s : State} {d : Nat} (hs : Keeps s₀ s) : Keeps s₀ (State.showMarch s d) := by
  unfold State.showMarch
  repeat' first
    | with_reducible assumption | with_reducible apply keeps_setReg | with_reducible apply keeps_State_setFld | split

theorem keeps_execMarchPreserving {s₀ : State} {j : Slot} {s : State} (hs : Keeps s₀ s) :
    KeepsO s₀ (execMarchPreserving j s) := by
  unfold execMarchPreserving
  repeat' first
    | with_reducible assumption | with_reducible intro _ | with_reducible apply keeps_next
    | with_reducible apply keeps_ite | with_reducible apply keeps_State_modDie | with_reducible apply keeps_State_refuse
    | with_reducible apply keeps_State_startOnDie | with_reducible apply keeps_State_bankReady
    | with_reducible apply keeps_State_setOwner | with_reducible apply keeps_State_showMarch | split

theorem keeps_State_failBank {s₀ : State} {s : State} {b : Nat} (hs : Keeps s₀ s) : Keeps s₀ (State.failBank s b) := by
  unfold State.failBank
  repeat' first
    | with_reducible assumption | with_reducible intro _ | with_reducible apply keeps_ite
    | with_reducible apply keeps_State_setFld | with_reducible apply keeps_State_bump
    | with_reducible apply keeps_State_showSpares | with_reducible apply keeps_State_leaveService
    | with_reducible apply keeps_State_checkSpares | with_reducible apply keeps_State_failSpare
    | with_reducible apply keeps_State_fillFails | ((conv => arg 2; (try zeta); arg 30); with_reducible apply keeps_nvm)
    | ((conv => arg 2; zeta); split) | exact Nat.le_refl _

theorem keeps_State_showRepairs {s₀ : State} {s : State} {b : Nat} (hs : Keeps s₀ s) : Keeps s₀ (State.showRepairs s b) := by
  unfold State.showRepairs
  repeat' first | with_reducible assumption | with_reducible apply keeps_State_setFld | split

theorem keeps_State_marchFound {s₀ : State} {s : State} {m : MarchReport} (hs : Keeps s₀ s) :
    Keeps s₀ (State.marchFound s m) := by
  unfold State.marchFound
  repeat' first
    | with_reducible assumption | with_reducible intro _ | with_reducible apply keeps_ite
    | with_reducible apply keeps_State_bump | with_reducible apply keeps_State_modNvm
    | with_reducible apply keeps_State_failBank | with_reducible apply keeps_State_showRepairs | exact Nat.le_refl _

theorem keeps_execMarchDone {s₀ : State} {d : Die} {rep : MarchReport} {s : State} (hs : Keeps s₀ s) :
    KeepsO s₀ (execMarchDone d rep s) := by
  unfold execMarchDone
  repeat' first
    | with_reducible assumption | with_reducible apply keeps_next | with_reducible apply keeps_ite
    | with_reducible apply keeps_State_modDie | with_reducible apply keeps_State_modCmd
    | with_reducible apply keeps_State_finish | with_reducible apply keeps_State_setOwner
    | with_reducible apply keeps_State_showMarch | with_reducible apply keeps_State_marchFound | split
    | ((conv => arg 2; zeta); split)

theorem keeps_State_clearBanks {s₀ : State} {s : State} {d : Nat} (hs : Keeps s₀ s) : Keeps s₀ (State.clearBanks s d) := by
  unfold State.clearBanks
  repeat' first
    | with_reducible assumption | with_reducible intro _ | with_reducible apply keeps_setReg
    | with_reducible apply keeps_forAll | with_reducible apply keeps_State_modDie
    | ((conv => arg 2; (try zeta); arg 30); with_reducible apply keeps_upd)
    | ((conv => arg 2; (try zeta); arg 30); with_reducible apply keeps_mem) | with_reducible apply scrub_wf
    | with_reducible refine wf_host (Keeps.wf ?_ (by assumption))
    | with_reducible refine wf_larder (Keeps.wf ?_ (by assumption))
    | with_reducible refine wf_attic (Keeps.wf ?_ (by assumption))
    | with_reducible refine wf_shelf (Keeps.wf ?_ (by assumption))
    | with_reducible refine wf_store (Keeps.wf ?_ (by assumption))

theorem keeps_State_powerBanks {s₀ : State} {s : State} {d : Nat} (hs : Keeps s₀ s) : Keeps s₀ (State.powerBanks s d) := by
  unfold State.powerBanks
  repeat' first
    | with_reducible assumption | with_reducible intro _ | with_reducible apply keeps_ite
    | with_reducible apply keeps_forAll | with_reducible apply keeps_State_setFld

theorem keeps_State_applyDeferred {s₀ : State} {s : State} {d : Nat} (hs : Keeps s₀ s) :
    Keeps s₀ (State.applyDeferred s d) := by
  unfold State.applyDeferred
  repeat' first
    | with_reducible assumption | with_reducible intro _
    | ((conv => arg 2; (try zeta); arg 30); with_reducible apply keeps_nvm) | exact Nat.le_refl _

theorem keeps_execDieSelfTest {s₀ : State} {d : Die} {s : State} (hs : Keeps s₀ s) : KeepsO s₀ (execDieSelfTest d s) := by
  unfold execDieSelfTest
  repeat' first
    | with_reducible assumption | with_reducible apply keeps_next | with_reducible apply keeps_ite
    | with_reducible apply keeps_State_setFld | with_reducible apply keeps_State_modDie
    | with_reducible apply keeps_State_clearBanks | with_reducible apply keeps_State_powerBanks
    | with_reducible apply keeps_State_applyDeferred

theorem keeps_execDieSelfTestDone {s₀ : State} {d : Die} {ok : Bool} {s : State} (hs : Keeps s₀ s) :
    KeepsO s₀ (execDieSelfTestDone d ok s) := by
  unfold execDieSelfTestDone
  repeat' first
    | with_reducible assumption | with_reducible apply keeps_next | with_reducible apply keeps_ite
    | with_reducible apply keeps_setReg | with_reducible apply keeps_State_setFld
    | with_reducible apply keeps_State_modDie | ((conv => arg 2; (try zeta); arg 30); with_reducible apply keeps_upd)

end Sys2Proof.Laws
end

