-- ==== Sys2Proof/Laws/KeepsSession.lean ====
section
/-!
SUPPORT. Every operation of Sys2Proof/Machine/Session.lean keeps what Sys2Proof/Laws/Keeps.lean names: the queue, the canonical
form of the memories and of the registers, and the fuses. The lemmas follow the order of the operations in that file.
-/
namespace Sys2Proof.Laws

open Sys2Proof.Machine

theorem keeps_State_modSec {s₀ : State} {s : State} {f : Sec → Sec} (hs : Keeps s₀ s) : Keeps s₀ (State.modSec s f) := by
  unfold State.modSec
  repeat' first | with_reducible assumption | ((conv => arg 2; (try zeta); arg 30); with_reducible apply keeps_upd)

theorem keeps_State_measureExtend {s₀ : State} {s : State} {i : Nat} {rec_ : List Byte} (hs : Keeps s₀ s) :
    Keeps s₀ (State.measureExtend s i rec_) := by
  unfold State.measureExtend
  repeat' first
    | with_reducible assumption | with_reducible intro _ | with_reducible apply keeps_forAll
    | with_reducible apply keeps_State_setFld

theorem keeps_State_secEvent {s₀ : State} {s : State} {code : Nat} {level : Nat} (hs : Keeps s₀ s) :
    Keeps s₀ (State.secEvent s code level) := by
  unfold State.secEvent
  repeat' first | with_reducible assumption | with_reducible apply keeps_State_measureExtend

theorem keeps_State_dropNonce {s₀ : State} {s : State} (hs : Keeps s₀ s) : Keeps s₀ (State.dropNonce s) := by
  unfold State.dropNonce
  repeat' first
    | with_reducible assumption | with_reducible intro _ | with_reducible apply keeps_forAll
    | with_reducible apply keeps_State_setFld

theorem keeps_State_newNonce {s₀ : State} {s : State} (hs : Keeps s₀ s) : Keeps s₀ (State.newNonce s) := by
  unfold State.newNonce
  repeat' first
    | with_reducible assumption | with_reducible intro _ | with_reducible apply keeps_forAll
    | with_reducible apply keeps_State_setFld | with_reducible apply keeps_State_drawn

theorem keeps_State_setHalt {s₀ : State} {s : State} {d : Nat} {p : Nat} {on : Bool} (hs : Keeps s₀ s) :
    Keeps s₀ (State.setHalt s d p on) := by
  unfold State.setHalt
  repeat' first
    | with_reducible assumption | with_reducible apply keeps_ite | with_reducible apply keeps_State_setFld
    | with_reducible apply keeps_State_modCore

theorem keeps_State_showJobs {s₀ : State} {s : State} (hs : Keeps s₀ s) : Keeps s₀ (State.showJobs s) := by
  unfold State.showJobs
  repeat' first
    | with_reducible assumption | with_reducible intro _ | with_reducible apply keeps_ite
    | with_reducible apply keeps_forAll | with_reducible apply keeps_State_showAll | split

theorem keeps_State_endSession {s₀ : State} {s : State} (hs : Keeps s₀ s) : Keeps s₀ (State.endSession s) := by
  unfold State.endSession
  repeat' first
    | with_reducible assumption | with_reducible intro _ | with_reducible apply keeps_ite
    | with_reducible apply keeps_forAll | with_reducible apply keeps_State_setFld
    | with_reducible apply keeps_State_modCore | with_reducible apply keeps_State_secAlert
    | with_reducible apply keeps_State_setOwner | with_reducible apply keeps_State_secEvent
    | with_reducible apply keeps_State_setHalt | with_reducible apply keeps_State_showJobs

theorem keeps_State_showLock {s₀ : State} {s : State} (hs : Keeps s₀ s) : Keeps s₀ (State.showLock s) := by
  unfold State.showLock
  repeat' first | with_reducible assumption | with_reducible apply keeps_ite | with_reducible apply keeps_State_setFld

theorem keeps_State_zeroise {s₀ : State} {s : State} (hs : Keeps s₀ s) : Keeps s₀ (State.zeroise s) := by
  unfold State.zeroise
  repeat' first
    | with_reducible assumption | with_reducible intro _ | with_reducible apply keeps_forAll
    | with_reducible apply keeps_State_modJob | with_reducible apply keeps_State_modSec
    | with_reducible apply keeps_State_showLock

theorem keeps_State_formOwner {s₀ : State} {s : State} {field : Bool} (hs : Keeps s₀ s) :
    Keeps s₀ (State.formOwner s field) := by
  unfold State.formOwner
  repeat' first | with_reducible assumption | with_reducible apply keeps_State_modSec

theorem keeps_State_formKeys {s₀ : State} {s : State} (hs : Keeps s₀ s) : Keeps s₀ (State.formKeys s) := by
  unfold State.formKeys
  repeat' first
    | with_reducible assumption | with_reducible intro _ | with_reducible apply keeps_forAll
    | with_reducible apply keeps_State_setFld | with_reducible apply keeps_State_modSec
    | with_reducible apply keeps_State_formOwner | ((conv => arg 2; (try zeta); arg 30); with_reducible apply keeps_nvm)
    | exact Nat.le_refl _ | (simp_all; done)

theorem keeps_State_discardJobs {s₀ : State} {s : State} (hs : Keeps s₀ s) : Keeps s₀ (State.discardJobs s) := by
  unfold State.discardJobs
  repeat' first
    | with_reducible assumption | with_reducible intro _ | with_reducible apply keeps_forAll
    | with_reducible apply keeps_State_setFld | with_reducible apply keeps_State_modJob

end Sys2Proof.Laws
end

