-- ==== Sys2Proof/Laws/KeepsReset.lean ====
section
/-!
SUPPORT. Every operation of Sys2Proof/Machine/Reset.lean keeps what Sys2Proof/Laws/Keeps.lean names: the queue, the canonical
form of the memories and of the registers, and the fuses. The lemmas follow the order of the operations in that file.
-/
namespace Sys2Proof.Laws

open Sys2Proof.Machine

theorem keeps_State_reapply {s₀ : State} {s : State} {d : Nat} (hs : Keeps s₀ s) : Keeps s₀ (State.reapply s d) := by
  unfold State.reapply
  repeat' first
    | with_reducible assumption | with_reducible intro _ | with_reducible apply keeps_forAll
    | with_reducible apply keeps_State_setFld | with_reducible apply keeps_State_showRepairs

theorem keeps_State_idleArrays {s₀ : State} {s : State} (hs : Keeps s₀ s) : Keeps s₀ (State.idleArrays s) := by
  unfold State.idleArrays
  repeat' first
    | with_reducible assumption | with_reducible intro _ | with_reducible apply keeps_setReg
    | with_reducible apply keeps_forAll

theorem keeps_State_zeroBanks {s₀ : State} {s : State} {d : Nat} (hs : Keeps s₀ s) : Keeps s₀ (State.zeroBanks s d) := by
  unfold State.zeroBanks
  repeat' first
    | with_reducible assumption | with_reducible intro _ | with_reducible apply keeps_setReg
    | with_reducible apply keeps_State_modDie | ((conv => arg 2; (try zeta); arg 30); with_reducible apply keeps_upd)
    | ((conv => arg 2; (try zeta); arg 30); with_reducible apply keeps_mem) | with_reducible apply scrub_wf
    | with_reducible refine wf_host (Keeps.wf ?_ (by assumption))
    | with_reducible refine wf_larder (Keeps.wf ?_ (by assumption))
    | with_reducible refine wf_attic (Keeps.wf ?_ (by assumption))
    | with_reducible refine wf_shelf (Keeps.wf ?_ (by assumption))
    | with_reducible refine wf_store (Keeps.wf ?_ (by assumption))

theorem keeps_State_clearCores {s₀ : State} {s : State} {d : Nat} (hs : Keeps s₀ s) : Keeps s₀ (State.clearCores s d) := by
  unfold State.clearCores
  repeat' first | with_reducible assumption | ((conv => arg 2; (try zeta); arg 30); with_reducible apply keeps_upd)

theorem keeps_State_loseMemory {s₀ : State} {s : State} (hs : Keeps s₀ s) : Keeps s₀ (State.loseMemory s) := by
  unfold State.loseMemory
  repeat' first
    | with_reducible assumption | with_reducible intro _ | with_reducible apply keeps_forAll
    | with_reducible apply keeps_State_scrambleDie

theorem keeps_State_showInput {s₀ : State} {s : State} {p : Nat} (hs : Keeps s₀ s) : Keeps s₀ (State.showInput s p) := by
  unfold State.showInput
  repeat' first
    | with_reducible assumption | with_reducible apply keeps_ite | with_reducible apply keeps_State_setFld
    | with_reducible apply keeps_State_drawn

theorem keeps_State_hardReset {s₀ : State} {s : State} (hs : Keeps s₀ s) : Keeps s₀ (State.hardReset s) := by
  unfold State.hardReset
  repeat' first
    | with_reducible assumption | with_reducible intro _ | with_reducible apply keeps_resetRegs
    | with_reducible apply keeps_State_dropCaptures
    | ((conv => arg 2; (try zeta); arg 30); with_reducible apply keeps_all) | exact Nat.le_refl _

theorem keeps_State_fullReset {s₀ : State} {s : State} (hs : Keeps s₀ s) : Keeps s₀ (State.fullReset s) := by
  unfold State.fullReset
  repeat' first
    | with_reducible assumption | with_reducible apply keeps_State_syncAlert
    | with_reducible apply keeps_State_hardReset

theorem keeps_State_toP4 {s₀ : State} {s : State} (hs : Keeps s₀ s) : Keeps s₀ (State.toP4 s) := by
  unfold State.toP4
  repeat' first
    | with_reducible assumption | with_reducible apply keeps_State_loseMemory
    | with_reducible apply keeps_State_fullReset | ((conv => arg 2; (try zeta); arg 30); with_reducible apply keeps_upd)

theorem keeps_State_loseInput {s₀ : State} {s : State} {dv : Nat} (hs : Keeps s₀ s) : Keeps s₀ (State.loseInput s dv) := by
  unfold State.loseInput
  repeat' first
    | with_reducible assumption | with_reducible intro _ | with_reducible apply keeps_State_toP4
    | ((conv => arg 2; (try zeta); arg 30); with_reducible apply keeps_all) | exact Nat.le_refl _

theorem keeps_State_flrReset {s₀ : State} {s : State} (hs : Keeps s₀ s) : Keeps s₀ (State.flrReset s) := by
  unfold State.flrReset
  repeat' first
    | with_reducible assumption | with_reducible intro _ | with_reducible apply keeps_resetRegs
    | with_reducible apply keeps_forAll | with_reducible apply keeps_State_setFld
    | with_reducible apply keeps_State_modDie | with_reducible apply keeps_State_dropCaptures
    | with_reducible apply keeps_State_modSec | with_reducible apply keeps_State_dropNonce
    | with_reducible apply keeps_State_endSession | with_reducible apply keeps_State_discardJobs
    | with_reducible apply keeps_State_reapply | with_reducible apply keeps_State_idleArrays
    | with_reducible apply keeps_State_zeroBanks | with_reducible apply keeps_State_clearCores
    | ((conv => arg 2; (try zeta); arg 30); with_reducible apply keeps_all) | exact Nat.le_refl _

theorem keeps_State_dieResetState {s₀ : State} {s : State} {d : Nat} (hs : Keeps s₀ s) :
    Keeps s₀ (State.dieResetState s d) := by
  unfold State.dieResetState
  repeat' first
    | with_reducible assumption | with_reducible intro _ | with_reducible apply keeps_ite
    | with_reducible apply keeps_resetRegs | with_reducible apply keeps_forAll | with_reducible apply keeps_State_setFld
    | with_reducible apply keeps_State_modDie | with_reducible apply keeps_State_zeroLarder
    | with_reducible apply keeps_State_dropNonce | with_reducible apply keeps_State_reapply
    | with_reducible apply keeps_State_zeroBanks | with_reducible apply keeps_State_clearCores

theorem keeps_State_enterP3 {s₀ : State} {s : State} (hs : Keeps s₀ s) : Keeps s₀ (State.enterP3 s) := by
  unfold State.enterP3
  repeat' first
    | with_reducible assumption | with_reducible intro _ | with_reducible apply keeps_ite
    | with_reducible apply keeps_resetRegs | with_reducible apply keeps_forAll | with_reducible apply keeps_State_setFld
    | with_reducible apply keeps_State_modSec | with_reducible apply keeps_State_endSession
    | with_reducible apply keeps_State_discardJobs | with_reducible apply keeps_State_loseMemory
    | ((conv => arg 2; (try zeta); arg 30); with_reducible apply keeps_upd)

end Sys2Proof.Laws
end

