-- ==== Sys2Proof/Laws/KeepsGovernor.lean ====
section
/-!
SUPPORT. Every operation of Sys2Proof/Machine/Governor.lean keeps what Sys2Proof/Laws/Keeps.lean names: the queue, the canonical
form of the memories and of the registers, and the fuses. The lemmas follow the order of the operations in that file.
-/
namespace Sys2Proof.Laws

open Sys2Proof.Machine

theorem keeps_State_voltAt {s₀ : State} {s : State} {d : Nat} {p : Nat} {f : Nat} (hs : Keeps s₀ s) :
    KeepsP s₀ (State.voltAt s d p f) := by
  unfold State.voltAt
  repeat' first
    | with_reducible assumption | with_reducible apply keepsP_ite | with_reducible apply keeps_State_drawn
    | ((fail_if_success (conv => arg 2; (try zeta); arg 3)); with_reducible apply keepsP_mk) | split

theorem keeps_State_showIsland {s₀ : State} {s : State} {d : Nat} {p : Nat} (hs : Keeps s₀ s) :
    Keeps s₀ (State.showIsland s d p) := by
  unfold State.showIsland
  repeat' first
    | with_reducible assumption | with_reducible apply keeps_ite | with_reducible apply keeps_State_setFld
    | (with_reducible refine keeps_fst ?_; with_reducible apply keeps_State_voltAt)

theorem keeps_State_modIsland {s₀ : State} {s : State} {d : Nat} {p : Nat} {f : Core → Core} (hs : Keeps s₀ s) :
    Keeps s₀ (State.modIsland s d p f) := by
  unfold State.modIsland
  repeat' first
    | with_reducible assumption | with_reducible apply keeps_State_modCore | with_reducible apply keeps_State_showIsland

theorem keeps_State_alertOn {s₀ : State} {s : State} {b : Nat} {was : Bool} {now : Bool} (hs : Keeps s₀ s) :
    Keeps s₀ (State.alertOn s b was now) := by
  unfold State.alertOn
  repeat' first | with_reducible assumption | with_reducible apply keeps_ite | with_reducible apply keeps_State_pwrAlert

theorem keeps_State_showLevels {s₀ : State} {s : State} (hs : Keeps s₀ s) : Keeps s₀ (State.showLevels s) := by
  unfold State.showLevels
  repeat' first
    | with_reducible assumption | with_reducible intro _ | with_reducible apply keeps_forAll
    | with_reducible apply keeps_State_setFld | with_reducible apply keeps_State_alertOn

theorem keeps_State_addRamp {s₀ : State} {s : State} {die : Option Nat} {state : Nat} {serves : RampFor} (hs : Keeps s₀ s) :
    Keeps s₀ (State.addRamp s die state serves) := by
  unfold State.addRamp
  repeat' first
    | with_reducible assumption | with_reducible apply keeps_State_setFld
    | ((conv => arg 2; (try zeta); arg 30); with_reducible apply keeps_upd)

theorem keeps_State_addRamps {s₀ : State} {s : State} {serves : Nat → RampFor} (hs : Keeps s₀ s) :
    Keeps s₀ (State.addRamps s serves) := by
  unfold State.addRamps
  repeat' first
    | with_reducible assumption | with_reducible intro _ | with_reducible apply keeps_forAll
    | with_reducible apply keeps_State_addRamp

theorem keeps_State_setLevel {s₀ : State} {s : State} {d : Nat} {w : Nat} {serves : RampFor} (hs : Keeps s₀ s) :
    KeepsP s₀ (State.setLevel s d w serves) := by
  unfold State.setLevel
  repeat' first
    | with_reducible assumption | with_reducible apply keeps_State_setFld | with_reducible apply keeps_State_trace
    | with_reducible apply keeps_State_showLevels | with_reducible apply keeps_State_addRamps
    | ((fail_if_success (conv => arg 2; (try zeta); arg 3)); with_reducible apply keepsP_mk)

theorem keeps_execPwr {s₀ : State} {j : Slot} {d : Die} {s : State} (hs : Keeps s₀ s) : KeepsO s₀ (execPwr j d s) := by
  unfold execPwr
  repeat' first
    | with_reducible assumption | with_reducible intro _ | with_reducible apply keeps_next
    | with_reducible apply keeps_ite | with_reducible apply keeps_State_signal | with_reducible apply keeps_State_launch
    | with_reducible apply keeps_State_issue
    | (with_reducible refine keeps_fst ?_; with_reducible apply keeps_State_setLevel)

theorem keeps_State_pwrDone {s₀ : State} {s : State} {d : Nat} {j : Nat} (hs : Keeps s₀ s) :
    Keeps s₀ (State.pwrDone s d j) := by
  unfold State.pwrDone
  repeat' first | with_reducible assumption | with_reducible apply keeps_State_retire | split

theorem keeps_execLingerExpiry {s₀ : State} {d : Die} {s : State} (hs : Keeps s₀ s) : KeepsO s₀ (execLingerExpiry d s) := by
  unfold execLingerExpiry
  repeat' first
    | with_reducible assumption | with_reducible apply keeps_next | with_reducible apply keeps_ite
    | (with_reducible refine keeps_fst ?_; with_reducible apply keeps_State_setLevel)

theorem keeps_execSetPowerCap {s₀ : State} {j : Slot} {s : State} (hs : Keeps s₀ s) : KeepsO s₀ (execSetPowerCap j s) := by
  unfold execSetPowerCap
  repeat' first
    | with_reducible assumption | with_reducible intro _ | with_reducible apply keeps_next
    | with_reducible apply keeps_ite | with_reducible apply keeps_State_setFld | with_reducible apply keeps_State_modCmd
    | with_reducible apply keeps_State_finish | with_reducible apply keeps_State_refuse
    | with_reducible apply keeps_State_start | with_reducible apply keeps_State_showLevels
    | with_reducible apply keeps_State_addRamps | ((conv => arg 2; zeta); split)

theorem keeps_State_enterP2 {s₀ : State} {s : State} (hs : Keeps s₀ s) : Keeps s₀ (State.enterP2 s) := by
  unfold State.enterP2
  repeat' first
    | with_reducible assumption | with_reducible intro _ | with_reducible apply keeps_ite
    | with_reducible apply keeps_forAll | with_reducible apply keeps_State_bankSleep
    | with_reducible apply keeps_State_setOwner | ((conv => arg 2; (try zeta); arg 30); with_reducible apply keeps_upd)

theorem keeps_State_leaveP2 {s₀ : State} {s : State} (hs : Keeps s₀ s) : Keeps s₀ (State.leaveP2 s) := by
  unfold State.leaveP2
  repeat' first
    | with_reducible assumption | with_reducible intro _ | with_reducible apply keeps_ite
    | with_reducible apply keeps_forAll | with_reducible apply keeps_State_bankWake
    | with_reducible apply keeps_State_setOwner | ((conv => arg 2; (try zeta); arg 30); with_reducible apply keeps_upd)

theorem keeps_State_arrive {s₀ : State} {s : State} {p : Nat} (hs : Keeps s₀ s) : Keeps s₀ (State.arrive s p) := by
  unfold State.arrive
  repeat' first
    | with_reducible assumption | with_reducible apply keeps_ite | with_reducible apply keeps_State_setFld
    | with_reducible apply keeps_State_setPstate | with_reducible apply keeps_State_showJobs
    | ((conv => arg 2; (try zeta); arg 30); with_reducible apply keeps_upd)

theorem keeps_State_stateReached {s₀ : State} {s : State} {j : Nat} (hs : Keeps s₀ s) :
    Keeps s₀ (State.stateReached s j) := by
  unfold State.stateReached
  repeat' first
    | with_reducible assumption | with_reducible apply keeps_State_postCmd | with_reducible apply keeps_State_arrive
    | split

theorem keeps_State_beginStage {s₀ : State} {s : State} {n : Nat} (hs : Keeps s₀ s) : Keeps s₀ (State.beginStage s n) := by
  unfold State.beginStage
  repeat' first | with_reducible assumption | with_reducible apply keeps_State_setFld

theorem keeps_State_beginState {s₀ : State} {s : State} {j : Nat} {dest : Nat} (hs : Keeps s₀ s) :
    Keeps s₀ (State.beginState s j dest) := by
  unfold State.beginState
  repeat' first
    | with_reducible assumption | with_reducible intro _ | with_reducible apply keeps_ite
    | with_reducible apply keeps_forAll | with_reducible apply keeps_State_setFld
    | with_reducible apply keeps_State_showLevels | with_reducible apply keeps_State_addRamp
    | with_reducible apply keeps_State_stateReached | with_reducible apply keeps_State_beginStage
    | ((conv => arg 2; (try zeta); arg 30); with_reducible apply keeps_upd)

theorem keeps_execIdleToP1 {s₀ : State} {s : State} (hs : Keeps s₀ s) : KeepsO s₀ (execIdleToP1 s) := by
  unfold execIdleToP1
  repeat' first
    | with_reducible assumption | with_reducible apply keeps_next | with_reducible apply keeps_ite
    | with_reducible apply keeps_State_setPstate

theorem keeps_State_woken {s₀ : State} {s : State} (hs : Keeps s₀ s) : Keeps s₀ (State.woken s) := by
  unfold State.woken
  repeat' first
    | with_reducible assumption | with_reducible apply keeps_State_leaveP2 | with_reducible apply keeps_State_arrive
    | with_reducible apply keeps_State_stateReached
    | ((conv => arg 2; (try zeta); arg 30); with_reducible apply keeps_upd) | split

theorem keeps_execPowerWake {s₀ : State} {s : State} (hs : Keeps s₀ s) : KeepsO s₀ (execPowerWake s) := by
  unfold execPowerWake
  repeat' first
    | with_reducible assumption | with_reducible apply keeps_next | with_reducible apply keeps_ite
    | with_reducible apply keeps_State_setFld | with_reducible apply keeps_State_addRamp
    | with_reducible apply keeps_State_arrive | with_reducible apply keeps_State_woken
    | ((conv => arg 2; (try zeta); arg 30); with_reducible apply keeps_upd)

theorem keeps_State_rampBegins {s₀ : State} {s : State} (hs : Keeps s₀ s) : Keeps s₀ (State.rampBegins s) := by
  unfold State.rampBegins
  repeat' first
    | with_reducible assumption | with_reducible apply keeps_ite | with_reducible apply keeps_State_setFld
    | with_reducible apply keeps_State_bump | split

theorem keeps_State_rampServes {s₀ : State} {s : State} {r : Ramp} (hs : Keeps s₀ s) : Keeps s₀ (State.rampServes s r) := by
  unfold State.rampServes
  repeat' first
    | with_reducible assumption | with_reducible apply keeps_ite | with_reducible apply keeps_State_finish
    | with_reducible apply keeps_State_showInput | with_reducible apply keeps_State_toP4
    | with_reducible apply keeps_State_enterP3 | with_reducible apply keeps_State_pwrDone
    | with_reducible apply keeps_State_enterP2 | with_reducible apply keeps_State_stateReached
    | ((conv => arg 2; (try zeta); arg 30); with_reducible apply keeps_upd) | split

theorem keeps_execRampComplete {s₀ : State} {s : State} (hs : Keeps s₀ s) : KeepsO s₀ (execRampComplete s) := by
  unfold execRampComplete
  repeat' first
    | with_reducible assumption | with_reducible intro _ | with_reducible apply keeps_next
    | with_reducible apply keeps_ite | with_reducible apply keeps_forAll | with_reducible apply keeps_State_setFld
    | with_reducible apply keeps_State_bump | with_reducible apply keeps_State_trace
    | with_reducible apply keeps_State_showInput | with_reducible apply keeps_State_showLevels
    | with_reducible apply keeps_State_rampBegins | with_reducible apply keeps_State_rampServes
    | ((conv => arg 2; (try zeta); arg 30); with_reducible apply keeps_upd) | split

theorem keeps_State_showGaps {s₀ : State} {s : State} (hs : Keeps s₀ s) : Keeps s₀ (State.showGaps s) := by
  unfold State.showGaps
  repeat' first
    | with_reducible assumption | with_reducible apply keeps_State_setFld | with_reducible apply keeps_State_alertOn

theorem keeps_State_fitWork {s₀ : State} {s : State} {d : Nat} {w : Nat} (hs : Keeps s₀ s) :
    Keeps s₀ (State.fitWork s d w) := by
  unfold State.fitWork
  repeat' first
    | with_reducible assumption | with_reducible intro _ | with_reducible apply keeps_ite
    | with_reducible apply keeps_forAll | with_reducible apply keeps_State_modDie
    | with_reducible apply keeps_State_modIsland | split

theorem keeps_execBallastAdjust {s₀ : State} {work : List Nat} {s : State} (hs : Keeps s₀ s) :
    KeepsO s₀ (execBallastAdjust work s) := by
  unfold execBallastAdjust
  repeat' first
    | with_reducible assumption | with_reducible intro _ | with_reducible apply keeps_next
    | with_reducible apply keeps_ite | with_reducible apply keeps_forAll | with_reducible apply keeps_State_setFld
    | with_reducible apply keeps_State_bump | with_reducible apply keeps_State_showGaps
    | with_reducible apply keeps_State_fitWork | ((conv => arg 2; (try zeta); arg 30); with_reducible apply keeps_upd)

theorem keeps_State_showThrottle {s₀ : State} {s : State} (hs : Keeps s₀ s) : Keeps s₀ (State.showThrottle s) := by
  unfold State.showThrottle
  repeat' first
    | with_reducible assumption | with_reducible apply keeps_State_setFld | with_reducible apply keeps_State_alertOn

theorem keeps_State_throttle {s₀ : State} {s : State} {d : Nat} {p : Nat} (hs : Keeps s₀ s) :
    Keeps s₀ (State.throttle s d p) := by
  unfold State.throttle
  repeat' first | with_reducible assumption | with_reducible apply keeps_State_modIsland

theorem keeps_State_reading {s₀ : State} {s : State} {r : Reading} (hs : Keeps s₀ s) : Keeps s₀ (State.reading s r) := by
  unfold State.reading
  repeat' first
    | with_reducible assumption | with_reducible intro _ | with_reducible apply keeps_ite
    | with_reducible apply keeps_forAll | with_reducible apply keeps_State_modDie
    | with_reducible apply keeps_State_modCore | with_reducible apply keeps_State_alertOn
    | with_reducible apply keeps_State_throttle

theorem keeps_execThermalRead {s₀ : State} {rs : List Reading} {coolIn : Nat} {coolOut : Nat} {s : State}
    (hs : Keeps s₀ s) : KeepsO s₀ (execThermalRead rs coolIn coolOut s) := by
  unfold execThermalRead
  repeat' first
    | with_reducible assumption | with_reducible intro _ | with_reducible apply keeps_next
    | with_reducible apply keeps_ite | with_reducible apply keeps_forAll | with_reducible apply keeps_State_setFld
    | with_reducible apply keeps_State_bump | with_reducible apply keeps_State_pwrAlert
    | with_reducible apply keeps_State_showGaps | with_reducible apply keeps_State_showThrottle
    | with_reducible apply keeps_State_reading | split

theorem keeps_execThrottleReleaseStep {s₀ : State} {d : Die} {p : Phys} {s : State} (hs : Keeps s₀ s) :
    KeepsO s₀ (execThrottleReleaseStep d p s) := by
  unfold execThrottleReleaseStep
  repeat' first
    | with_reducible assumption | with_reducible apply keeps_next | with_reducible apply keeps_ite
    | with_reducible apply keeps_State_modIsland | with_reducible apply keeps_State_showThrottle | split

theorem keeps_execThermalTrip {s₀ : State} {r : Reading} {s : State} (hs : Keeps s₀ s) : KeepsO s₀ (execThermalTrip r s) := by
  unfold execThermalTrip
  repeat' first
    | with_reducible assumption | with_reducible intro _ | with_reducible apply keeps_next
    | with_reducible apply keeps_ite | with_reducible apply keeps_State_showInput
    | with_reducible apply keeps_State_toP4 | ((conv => arg 2; (try zeta); arg 30); with_reducible apply keeps_all)
    | exact Nat.le_refl _

end Sys2Proof.Laws
end

