-- ==== Sys2Proof/Laws/KeepsRing.lean ====
section
/-!
SUPPORT. Every operation of Sys2Proof/Machine/Ring.lean keeps what Sys2Proof/Laws/Keeps.lean names: the queue, the canonical
form of the memories and of the registers, and the fuses. The lemmas follow the order of the operations in that file.
-/
namespace Sys2Proof.Laws

open Sys2Proof.Machine

theorem keeps_State_compressOwn {s₀ : State} {s : State} {c : Ctx} {bucket : Nat} (hs : Keeps s₀ s) :
    Keeps s₀ (State.compressOwn s c bucket) := by
  unfold State.compressOwn
  repeat' first
    | with_reducible assumption | with_reducible intro _ | with_reducible apply keeps_forAll
    | with_reducible apply keeps_State_modJob | with_reducible apply keeps_State_update
    | with_reducible apply keeps_State_holdStage | with_reducible apply writeP_wf | split
    | ((conv => arg 2; zeta); split)

theorem keeps_State_redAlone {s₀ : State} {s : State} {c : Ctx} {bucket : Nat} (hs : Keeps s₀ s) :
    Keeps s₀ (State.redAlone s c bucket) := by
  unfold State.redAlone
  repeat' first
    | with_reducible assumption | with_reducible intro _ | with_reducible apply keeps_forAll
    | with_reducible apply keeps_State_modRed | with_reducible apply keeps_State_putRec | split

theorem keeps_execRed {s₀ : State} {j : Slot} {d : Die} {s : State} (hs : Keeps s₀ s) : KeepsO s₀ (execRed j d s) := by
  unfold execRed
  repeat' first
    | with_reducible assumption | with_reducible intro _ | with_reducible apply keeps_next
    | with_reducible apply keeps_ite | with_reducible apply keeps_State_setFld | with_reducible apply keeps_State_modRun
    | with_reducible apply keeps_State_launch | with_reducible apply keeps_State_issue
    | with_reducible apply keeps_State_showRing | with_reducible apply keeps_State_pump
    | with_reducible apply keeps_State_endWait | with_reducible apply keeps_State_compressOwn
    | with_reducible apply keeps_State_redAlone | split | ((conv => arg 2; zeta); split)

theorem keeps_State_ringArrive {s₀ : State} {s : State} {c : Ctx} {r : RedSt} (hs : Keeps s₀ s) :
    Keeps s₀ (State.ringArrive s c r) := by
  unfold State.ringArrive
  repeat' first
    | with_reducible assumption | with_reducible apply keeps_ite | with_reducible apply keeps_State_bump
    | with_reducible apply keeps_State_drawn | with_reducible apply keeps_State_modRed

theorem keeps_execRingCreditGrant {s₀ : State} {j : Slot} {d : Die} {s : State} (hs : Keeps s₀ s) :
    KeepsO s₀ (execRingCreditGrant j d s) := by
  unfold execRingCreditGrant
  repeat' first
    | with_reducible assumption | with_reducible apply keeps_next | with_reducible apply keeps_ite
    | with_reducible apply keeps_State_modRed | with_reducible apply keeps_State_pump
    | with_reducible apply keeps_State_ringArrive | split | ((conv => arg 2; zeta); split)

theorem keeps_State_acceptChunk {s₀ : State} {s : State} {c : Ctx} {r : RedSt} {h : Hop} {w : List Byte} (hs : Keeps s₀ s) :
    Keeps s₀ (State.acceptChunk s c r h w) := by
  unfold State.acceptChunk
  repeat' first
    | with_reducible assumption | with_reducible apply keeps_ite | with_reducible apply keeps_State_bump
    | with_reducible apply keeps_State_bumpSat | with_reducible apply keeps_State_trace
    | with_reducible apply keeps_State_modRun | with_reducible apply keeps_State_ringErr
    | with_reducible apply keeps_State_modRed | with_reducible apply keeps_State_putRec
    | with_reducible apply keeps_State_holdStage

theorem keeps_execRingChunkReceive {s₀ : State} {j : Slot} {d : Die} {bad : Bool} {s : State} (hs : Keeps s₀ s) :
    KeepsO s₀ (execRingChunkReceive j d bad s) := by
  unfold execRingChunkReceive
  repeat' first
    | with_reducible assumption | with_reducible apply keeps_next | with_reducible apply keeps_ite
    | with_reducible apply keeps_State_bump | with_reducible apply keeps_State_drawnN
    | with_reducible apply keeps_State_modRun | with_reducible apply keeps_State_countPath
    | with_reducible apply keeps_State_ringErr | with_reducible apply keeps_State_modRed
    | with_reducible apply keeps_State_pump | with_reducible apply keeps_State_pumpDie
    | with_reducible apply keeps_State_ringArrive | with_reducible apply keeps_State_acceptChunk | split
    | ((conv => arg 2; zeta); split)

theorem keeps_execRedComplete {s₀ : State} {j : Slot} {d : Die} {s : State} (hs : Keeps s₀ s) :
    KeepsO s₀ (execRedComplete j d s) := by
  unfold execRedComplete
  repeat' first
    | with_reducible assumption | with_reducible apply keeps_next | with_reducible apply keeps_State_bump
    | with_reducible apply keeps_State_modRun | with_reducible apply keeps_State_retire
    | with_reducible apply keeps_State_showRing | split | ((conv => arg 2; zeta); split)

theorem keeps_execRingTimeout {s₀ : State} {j : Slot} {d : Die} {bucket : Nat} {s : State} (hs : Keeps s₀ s) :
    KeepsO s₀ (execRingTimeout j d bucket s) := by
  unfold execRingTimeout
  repeat' first
    | with_reducible assumption | with_reducible apply keeps_next | with_reducible apply keeps_ite
    | with_reducible apply keeps_State_endWait | split

theorem keeps_execPeerCheck {s₀ : State} {j : Slot} {d : Die} {beats : Bool} {links : Bool} {s : State} (hs : Keeps s₀ s) :
    KeepsO s₀ (execPeerCheck j d beats links s) := by
  unfold execPeerCheck
  repeat' first
    | with_reducible assumption | with_reducible apply keeps_next | with_reducible apply keeps_ite
    | with_reducible apply keeps_State_modDie | with_reducible apply keeps_State_leaveService

theorem keeps_State_linkGoDown {s₀ : State} {s : State} {l : Nat} (hs : Keeps s₀ s) : Keeps s₀ (State.linkGoDown s l) := by
  unfold State.linkGoDown
  repeat' first
    | with_reducible assumption | with_reducible apply keeps_ite | with_reducible apply keeps_State_setLink
    | ((conv => arg 2; (try zeta); arg 30); with_reducible apply keeps_upd)

theorem keeps_State_replay {s₀ : State} {s : State} {k : LinkEnd} (hs : Keeps s₀ s) : Keeps s₀ (State.replay s k) := by
  unfold State.replay
  repeat' first
    | with_reducible assumption | with_reducible apply keeps_ite | with_reducible apply keeps_State_bump
    | with_reducible apply keeps_State_linkGoDown
    | ((conv => arg 2; (try zeta); arg 30); with_reducible apply keeps_upd)

theorem keeps_State_linkFails {s₀ : State} {s : State} {l : Nat} (hs : Keeps s₀ s) : Keeps s₀ (State.linkFails s l) := by
  unfold State.linkFails
  repeat' first
    | with_reducible assumption | with_reducible apply keeps_ite | with_reducible apply keeps_State_modDie
    | with_reducible apply keeps_State_setLink | with_reducible apply keeps_State_showDegraded
    | with_reducible apply keeps_State_shrinkSets | with_reducible apply keeps_State_leaveService
    | ((conv => arg 2; (try zeta); arg 30); with_reducible apply keeps_upd)

theorem keeps_execLinkFlitReceive {s₀ : State} {k : LinkEnd} {crcOk : Bool} {s : State} (hs : Keeps s₀ s) :
    KeepsO s₀ (execLinkFlitReceive k crcOk s) := by
  unfold execLinkFlitReceive
  repeat' first
    | with_reducible assumption | with_reducible apply keeps_next | with_reducible apply keeps_ite
    | with_reducible apply keeps_State_replay | ((conv => arg 2; (try zeta); arg 30); with_reducible apply keeps_upd)

theorem keeps_execLinkHandshakeTimeout {s₀ : State} {k : LinkEnd} {arrived : Bool} {s : State} (hs : Keeps s₀ s) :
    KeepsO s₀ (execLinkHandshakeTimeout k arrived s) := by
  unfold execLinkHandshakeTimeout
  repeat' first
    | with_reducible assumption | with_reducible apply keeps_next | with_reducible apply keeps_ite
    | with_reducible apply keeps_State_bump | with_reducible apply keeps_State_replay

theorem keeps_execLinkRetrain {s₀ : State} {k : LinkNo} {ok : Bool} {s : State} (hs : Keeps s₀ s) :
    KeepsO s₀ (execLinkRetrain k ok s) := by
  unfold execLinkRetrain
  repeat' first
    | with_reducible assumption | with_reducible apply keeps_next | with_reducible apply keeps_ite
    | with_reducible apply keeps_State_setLink | with_reducible apply keeps_State_linkFails
    | ((conv => arg 2; (try zeta); arg 30); with_reducible apply keeps_upd)

end Sys2Proof.Laws
end

