-- ==== Sys2Proof/Laws/KeepsAgeing.lean ====
section
/-!
SUPPORT. Every operation of Sys2Proof/Machine/Ageing.lean keeps what Sys2Proof/Laws/Keeps.lean names: the queue, the canonical
form of the memories and of the registers, and the fuses. The lemmas follow the order of the operations in that file.
-/
namespace Sys2Proof.Laws

open Sys2Proof.Machine

theorem keeps_State_putIsland {s₀ : State} {s : State} {d : Nat} {p : Nat} (hs : Keeps s₀ s) :
    Keeps s₀ (State.putIsland s d p) := by
  unfold State.putIsland
  repeat' first
    | with_reducible assumption | with_reducible apply keeps_State_setFld
    | (with_reducible refine keeps_fst ?_; with_reducible apply keeps_State_voltAt)

theorem keeps_State_loadIslands {s₀ : State} {s : State} {d : Nat} (hs : Keeps s₀ s) : Keeps s₀ (State.loadIslands s d) := by
  unfold State.loadIslands
  repeat' first
    | with_reducible assumption | with_reducible intro _ | with_reducible apply keeps_forAll
    | with_reducible apply keeps_State_setFld

theorem keeps_State_showGrade {s₀ : State} {s : State} (hs : Keeps s₀ s) : Keeps s₀ (State.showGrade s) := by
  unfold State.showGrade
  repeat' first
    | with_reducible assumption | with_reducible apply keeps_ite | with_reducible apply keeps_State_setFld
    | with_reducible apply keeps_State_pwrAlert

theorem keeps_State_loadAgeing {s₀ : State} {s : State} (hs : Keeps s₀ s) : Keeps s₀ (State.loadAgeing s) := by
  unfold State.loadAgeing
  repeat' first
    | with_reducible assumption | with_reducible intro _ | with_reducible apply keeps_forAll
    | with_reducible apply keeps_State_setFld | with_reducible apply keeps_State_loadIslands
    | ((conv => arg 2; zeta); split)

theorem keeps_execAgeingSample {s₀ : State} {d : Die} {p : Phys} {dev : Nat} {s : State} (hs : Keeps s₀ s) :
    KeepsO s₀ (execAgeingSample d p dev s) := by
  unfold execAgeingSample
  repeat' first
    | with_reducible assumption | with_reducible apply keeps_next | with_reducible apply keeps_ite
    | ((conv => arg 2; (try zeta); arg 30); with_reducible apply keeps_upd)

theorem keeps_execSlackMeasure {s₀ : State} {d : Die} {p : Phys} {slack : Nat} {s : State} (hs : Keeps s₀ s) :
    KeepsO s₀ (execSlackMeasure d p slack s) := by
  unfold execSlackMeasure
  repeat' first
    | with_reducible assumption | with_reducible apply keeps_next | with_reducible apply keeps_ite
    | with_reducible apply keeps_State_setFld | with_reducible apply keeps_State_bump
    | with_reducible apply keeps_State_modIsland

theorem keeps_execSramVminMeasure {s₀ : State} {b : BankNo} {op : Nat} {ret : Nat} {s : State} (hs : Keeps s₀ s) :
    KeepsO s₀ (execSramVminMeasure b op ret s) := by
  unfold execSramVminMeasure
  repeat' first
    | with_reducible assumption | with_reducible intro _ | with_reducible apply keeps_next
    | with_reducible apply keeps_ite | ((conv => arg 2; (try zeta); arg 30); with_reducible apply keeps_nvm)
    | exact Nat.le_refl _

theorem keeps_State_portFails {s₀ : State} {s : State} {x : Nat} (hs : Keeps s₀ s) : Keeps s₀ (State.portFails s x) := by
  unfold State.portFails
  repeat' first
    | with_reducible assumption | with_reducible apply keeps_State_portDrops
    | ((conv => arg 2; (try zeta); arg 30); with_reducible apply keeps_upd)

theorem keeps_execEyeCheck {s₀ : State} {q : Nat} {width : Nat} {height : Nat} {minWidth : Nat} {retrainOk : Bool}
    {s : State} (hs : Keeps s₀ s) : KeepsO s₀ (execEyeCheck q width height minWidth retrainOk s) := by
  unfold execEyeCheck
  repeat' first
    | with_reducible assumption | with_reducible intro _ | with_reducible apply keeps_next
    | with_reducible apply keeps_ite | with_reducible apply keeps_State_deviceFails
    | with_reducible apply keeps_State_linkFails | with_reducible apply keeps_State_portFails
    | ((conv => arg 2; (try zeta); arg 30); with_reducible apply keeps_nvm) | exact Nat.le_refl _

theorem keeps_State_planIsland {s₀ : State} {s : State} {x : IslandPrediction} (hs : Keeps s₀ s) :
    Keeps s₀ (State.planIsland s x) := by
  unfold State.planIsland
  repeat' first
    | with_reducible assumption | with_reducible apply keeps_State_setFld
    | ((conv => arg 2; (try zeta); arg 30); with_reducible apply keeps_upd)

theorem keeps_execAgeingReplan {s₀ : State} {pred : List IslandPrediction} {s : State} (hs : Keeps s₀ s) :
    KeepsO s₀ (execAgeingReplan pred s) := by
  unfold execAgeingReplan
  repeat' first
    | with_reducible assumption | with_reducible intro _ | with_reducible apply keeps_next
    | with_reducible apply keeps_ite | with_reducible apply keeps_forAll | with_reducible apply keeps_State_setFld
    | with_reducible apply keeps_State_bump | with_reducible apply keeps_State_modCore
    | with_reducible apply keeps_State_putIsland | with_reducible apply keeps_State_showGrade
    | with_reducible apply keeps_State_planIsland
    | ((conv => arg 2; (try zeta); arg 30); with_reducible apply keeps_nvm) | exact Nat.le_refl _

theorem keeps_execReadAgeing {s₀ : State} {j : Slot} {s : State} (hs : Keeps s₀ s) : KeepsO s₀ (execReadAgeing j s) := by
  unfold execReadAgeing
  repeat' first
    | with_reducible assumption | with_reducible intro _ | with_reducible apply keeps_next
    | with_reducible apply keeps_State_hostWrite | with_reducible apply keeps_State_modCmd
    | with_reducible apply keeps_State_finish | with_reducible apply keeps_State_start

end Sys2Proof.Laws
end

