-- ==== Sys2Proof/Laws/KeepsStartup.lean ====
section
/-!
SUPPORT. Every operation of Sys2Proof/Machine/Startup.lean keeps what Sys2Proof/Laws/Keeps.lean names: the queue, the canonical
form of the memories and of the registers, and the fuses. The lemmas follow the order of the operations in that file.
-/
namespace Sys2Proof.Laws

open Sys2Proof.Machine

theorem keeps_State_filter {s₀ : State} {s : State} {ns : Nat} (hs : Keeps s₀ s) : KeepsP s₀ (State.filter s ns) := by
  unfold State.filter
  repeat' first
    | with_reducible assumption | with_reducible apply keeps_ite | with_reducible apply keepsP_ite
    | with_reducible apply keeps_State_bump | with_reducible apply keeps_State_drawn
    | ((fail_if_success (conv => arg 2; (try zeta); arg 3)); with_reducible apply keepsP_mk)

theorem keeps_State_powerUp {s₀ : State} {s : State} (hs : Keeps s₀ s) : Keeps s₀ (State.powerUp s) := by
  unfold State.powerUp
  repeat' first
    | with_reducible assumption | with_reducible intro _ | with_reducible apply keeps_ite
    | with_reducible apply keeps_setReg | with_reducible apply keeps_State_setFld
    | with_reducible apply keeps_State_showLock | with_reducible apply keeps_State_beginStage
    | with_reducible apply keeps_State_loadAgeing
    | ((conv => arg 2; (try zeta); arg 30); with_reducible apply keeps_upd)
    | ((conv => arg 2; (try zeta); arg 30); with_reducible apply keeps_nvm) | split | exact Nat.le_refl _

theorem keeps_execPowerInputEntry {s₀ : State} {dv : Nat} {s : State} (hs : Keeps s₀ s) :
    KeepsO s₀ (execPowerInputEntry dv s) := by
  unfold execPowerInputEntry
  repeat' first
    | with_reducible assumption | with_reducible apply keeps_next | with_reducible apply keeps_ite
    | with_reducible apply keeps_resetRegs | with_reducible apply keeps_State_setFld
    | with_reducible apply keeps_State_powerUp | ((conv => arg 2; (try zeta); arg 30); with_reducible apply keeps_upd)

theorem keeps_execChargeComplete {s₀ : State} {s : State} (hs : Keeps s₀ s) : KeepsO s₀ (execChargeComplete s) := by
  unfold execChargeComplete
  repeat' first
    | with_reducible assumption | with_reducible apply keeps_next | with_reducible apply keeps_ite
    | ((conv => arg 2; (try zeta); arg 30); with_reducible apply keeps_upd)

theorem keeps_execPowerLoss {s₀ : State} {dv : Nat} {us : Nat} {s : State} (hs : Keeps s₀ s) :
    KeepsO s₀ (execPowerLoss dv us s) := by
  unfold execPowerLoss
  repeat' first
    | with_reducible assumption | with_reducible apply keeps_next | with_reducible apply keeps_ite
    | with_reducible apply keeps_State_loseInput

theorem keeps_execPwrgdAssert {s₀ : State} {ns : Nat} {s : State} (hs : Keeps s₀ s) : KeepsO s₀ (execPwrgdAssert ns s) := by
  unfold execPwrgdAssert
  repeat' first
    | with_reducible assumption | with_reducible apply keeps_next | with_reducible apply keeps_ite
    | with_reducible apply keeps_State_setFld | with_reducible apply keeps_State_powerUp
    | (with_reducible refine keeps_fst ?_; with_reducible apply keeps_State_filter)
    | ((conv => arg 2; (try zeta); arg 30); with_reducible apply keeps_upd)

theorem keeps_execPwrgdDeassert {s₀ : State} {ns : Nat} {s : State} (hs : Keeps s₀ s) :
    KeepsO s₀ (execPwrgdDeassert ns s) := by
  unfold execPwrgdDeassert
  repeat' first
    | with_reducible assumption | with_reducible intro _ | with_reducible apply keeps_next
    | with_reducible apply keeps_ite | with_reducible apply keeps_forAll | with_reducible apply keeps_State_setFld
    | with_reducible apply keeps_State_showLevels | with_reducible apply keeps_State_addRamp
    | (with_reducible refine keeps_fst ?_; with_reducible apply keeps_State_filter)
    | ((conv => arg 2; (try zeta); arg 30); with_reducible apply keeps_upd)

theorem keeps_execPerstAssert {s₀ : State} {ns : Nat} {s : State} (hs : Keeps s₀ s) : KeepsO s₀ (execPerstAssert ns s) := by
  unfold execPerstAssert
  repeat' first
    | with_reducible assumption | with_reducible apply keeps_next | with_reducible apply keeps_ite
    | with_reducible apply keeps_State_fullReset
    | (with_reducible refine keeps_fst ?_; with_reducible apply keeps_State_filter)
    | ((conv => arg 2; (try zeta); arg 30); with_reducible apply keeps_upd)

theorem keeps_execPerstDeassert {s₀ : State} {ns : Nat} {s : State} (hs : Keeps s₀ s) :
    KeepsO s₀ (execPerstDeassert ns s) := by
  unfold execPerstDeassert
  repeat' first
    | with_reducible assumption | with_reducible apply keeps_next | with_reducible apply keeps_ite
    | with_reducible apply keeps_State_setFld | with_reducible apply keeps_State_powerUp
    | (with_reducible refine keeps_fst ?_; with_reducible apply keeps_State_filter)
    | ((conv => arg 2; (try zeta); arg 30); with_reducible apply keeps_upd)

theorem keeps_State_maybeReady {s₀ : State} {s : State} (hs : Keeps s₀ s) : Keeps s₀ (State.maybeReady s) := by
  unfold State.maybeReady
  repeat' first
    | with_reducible assumption | with_reducible apply keeps_ite | with_reducible apply keeps_State_setFld
    | with_reducible apply keeps_State_fetchAll | with_reducible apply keeps_State_arrive
    | with_reducible apply keeps_State_stateReached
    | ((conv => arg 2; (try zeta); arg 30); with_reducible apply keeps_upd) | split

theorem keeps_execLarderZeroingDone {s₀ : State} {s : State} (hs : Keeps s₀ s) : KeepsO s₀ (execLarderZeroingDone s) := by
  unfold execLarderZeroingDone
  repeat' first
    | with_reducible assumption | with_reducible intro _ | with_reducible apply keeps_next
    | with_reducible apply keeps_ite | with_reducible apply keeps_forAll | with_reducible apply keeps_State_zeroLarder
    | with_reducible apply keeps_State_maybeReady
    | ((conv => arg 2; (try zeta); arg 30); with_reducible apply keeps_upd)

theorem keeps_State_stage1 {s₀ : State} {s : State} (hs : Keeps s₀ s) : KeepsP s₀ (State.stage1 s) := by
  unfold State.stage1
  repeat' first
    | with_reducible assumption | with_reducible apply keeps_ite | with_reducible apply keepsP_ite
    | with_reducible apply keeps_State_setFld | with_reducible apply keeps_State_measureExtend
    | with_reducible apply keeps_State_showLock | with_reducible apply keeps_State_formKeys
    | ((fail_if_success (conv => arg 2; (try zeta); arg 3)); with_reducible apply keepsP_mk)

theorem keeps_State_stage2 {s₀ : State} {s : State} {bad : Nat} (hs : Keeps s₀ s) : KeepsP s₀ (State.stage2 s bad) := by
  unfold State.stage2
  repeat' first
    | with_reducible assumption | with_reducible intro _ | with_reducible apply keeps_ite
    | with_reducible apply keeps_forAll | with_reducible apply keeps_State_setFld
    | with_reducible apply keeps_State_modSec | with_reducible apply keeps_State_measureExtend
    | ((fail_if_success (conv => arg 2; (try zeta); arg 3)); with_reducible apply keepsP_mk)

theorem keeps_State_loadMaps {s₀ : State} {s : State} {d : Nat} (hs : Keeps s₀ s) : Keeps s₀ (State.loadMaps s d) := by
  unfold State.loadMaps
  repeat' first
    | with_reducible assumption | with_reducible intro _ | with_reducible apply keeps_setReg
    | with_reducible apply keeps_forAll | with_reducible apply keeps_State_setFld | ((conv => arg 2; zeta); split)

theorem keeps_State_begin3 {s₀ : State} {s : State} (hs : Keeps s₀ s) : Keeps s₀ (State.begin3 s) := by
  unfold State.begin3
  repeat' first
    | with_reducible assumption | with_reducible intro _ | with_reducible apply keeps_forAll
    | with_reducible apply keeps_State_reapply | with_reducible apply keeps_State_loadMaps

theorem keeps_State_stage3 {s₀ : State} {s : State} {found : List MarchReport} (hs : Keeps s₀ s) :
    KeepsP s₀ (State.stage3 s found) := by
  unfold State.stage3
  repeat' first
    | with_reducible assumption | with_reducible intro _ | with_reducible apply keeps_ite
    | with_reducible apply keeps_forAll | with_reducible apply keeps_State_showSpares
    | with_reducible apply keeps_State_leaveService | with_reducible apply keeps_State_mapTo
    | with_reducible apply keeps_State_marchFound | with_reducible apply keeps_State_clearBanks
    | with_reducible apply keeps_State_powerBanks | with_reducible apply keeps_State_putIsland
    | with_reducible apply keeps_State_showGrade
    | ((fail_if_success (conv => arg 2; (try zeta); arg 3)); with_reducible apply keepsP_mk) | split

theorem keeps_State_stage4 {s₀ : State} {s : State} {bad : Nat} (hs : Keeps s₀ s) : KeepsP s₀ (State.stage4 s bad) := by
  unfold State.stage4
  repeat' first
    | with_reducible assumption | with_reducible intro _ | with_reducible apply keeps_forAll
    | with_reducible apply keeps_State_setFld | with_reducible apply keeps_State_leaveService
    | ((fail_if_success (conv => arg 2; (try zeta); arg 3)); with_reducible apply keepsP_mk)
    | ((conv => arg 2; (try zeta); arg 30); with_reducible apply keeps_upd)

theorem keeps_State_stage5 {s₀ : State} {s : State} {bad : Nat} (hs : Keeps s₀ s) : KeepsP s₀ (State.stage5 s bad) := by
  unfold State.stage5
  repeat' first
    | with_reducible assumption | with_reducible intro _ | with_reducible apply keeps_ite
    | with_reducible apply keeps_forAll | with_reducible apply keeps_State_setLink
    | with_reducible apply keeps_State_showDegraded
    | ((fail_if_success (conv => arg 2; (try zeta); arg 3)); with_reducible apply keepsP_mk)

theorem keeps_State_stage6 {s₀ : State} {s : State} {bad : Nat} (hs : Keeps s₀ s) : KeepsP s₀ (State.stage6 s bad) := by
  unfold State.stage6
  repeat' first
    | with_reducible assumption | with_reducible intro _ | with_reducible apply keeps_forAll
    | with_reducible apply keeps_State_modDie | with_reducible apply keeps_State_leaveService
    | ((fail_if_success (conv => arg 2; (try zeta); arg 3)); with_reducible apply keepsP_mk)

theorem keeps_State_stage8 {s₀ : State} {s : State} {x0 : PortReport} {x1 : PortReport} (hs : Keeps s₀ s) :
    KeepsP s₀ (State.stage8 s x0 x1) := by
  unfold State.stage8
  repeat' first
    | with_reducible assumption | with_reducible intro _ | with_reducible apply keeps_ite
    | with_reducible apply keeps_forAll | with_reducible apply keeps_State_setFld
    | ((fail_if_success (conv => arg 2; (try zeta); arg 3)); with_reducible apply keepsP_mk)
    | ((conv => arg 2; (try zeta); arg 30); with_reducible apply keeps_upd)

theorem keeps_State_stage9 {s₀ : State} {s : State} (hs : Keeps s₀ s) : KeepsP s₀ (State.stage9 s) := by
  unfold State.stage9
  repeat' first
    | with_reducible assumption | with_reducible intro _ | with_reducible apply keeps_ite
    | with_reducible apply keeps_forAll | with_reducible apply keeps_State_setFld
    | with_reducible apply keeps_State_setPstate | with_reducible apply keeps_State_showInput
    | with_reducible apply keeps_State_showLevels
    | ((fail_if_success (conv => arg 2; (try zeta); arg 3)); with_reducible apply keepsP_mk)

theorem keeps_State_stage {s₀ : State} {s : State} {n : Nat} {r : StageReport} (hs : Keeps s₀ s) :
    KeepsP s₀ (State.stage s n r) := by
  unfold State.stage
  repeat' first
    | with_reducible assumption | with_reducible apply keepsP_ite | with_reducible apply keeps_State_stage1
    | with_reducible apply keeps_State_stage2 | with_reducible apply keeps_State_stage3
    | with_reducible apply keeps_State_stage4 | with_reducible apply keeps_State_stage5
    | with_reducible apply keeps_State_stage6 | with_reducible apply keeps_State_stage8
    | with_reducible apply keeps_State_stage9
    | ((fail_if_success (conv => arg 2; (try zeta); arg 3)); with_reducible apply keepsP_mk)

theorem keeps_execStartupStage {s₀ : State} {rep : StageReport} {s : State} (hs : Keeps s₀ s) :
    KeepsO s₀ (execStartupStage rep s) := by
  unfold execStartupStage
  repeat' first
    | with_reducible assumption | with_reducible apply keeps_next | with_reducible apply keeps_ite
    | with_reducible apply keeps_State_setFld | with_reducible apply keeps_State_beginStage
    | with_reducible apply keeps_State_powerUp | with_reducible apply keeps_State_maybeReady
    | with_reducible apply keeps_State_begin3
    | (with_reducible refine keeps_fst ?_; with_reducible apply keeps_State_stage)
    | ((conv => arg 2; (try zeta); arg 30); with_reducible apply keeps_upd)

theorem keeps_execFlr {s₀ : State} {s : State} (hs : Keeps s₀ s) : KeepsO s₀ (execFlr s) := by
  unfold execFlr
  repeat' first
    | with_reducible assumption | with_reducible intro _ | with_reducible apply keeps_next
    | with_reducible apply keeps_ite | with_reducible apply keeps_forAll | with_reducible apply keeps_State_setFld
    | with_reducible apply keeps_State_syncAlert | with_reducible apply keeps_State_flrReset
    | with_reducible apply keeps_State_showLevels | with_reducible apply keeps_State_addRamp
    | with_reducible apply keeps_State_addRamps | with_reducible apply keeps_State_beginStage
    | ((conv => arg 2; (try zeta); arg 30); with_reducible apply keeps_upd)

theorem keeps_execFlrComplete {s₀ : State} {s : State} (hs : Keeps s₀ s) : KeepsO s₀ (execFlrComplete s) := by
  unfold execFlrComplete
  repeat' first
    | with_reducible assumption | with_reducible intro _ | with_reducible apply keeps_next
    | with_reducible apply keeps_ite | with_reducible apply keeps_forAll | with_reducible apply keeps_State_setFld
    | with_reducible apply keeps_State_zeroLarder | with_reducible apply keeps_State_fetchAll
    | with_reducible apply keeps_State_powerBanks | with_reducible apply keeps_State_arrive
    | with_reducible apply keeps_State_maybeReady

end Sys2Proof.Laws
end

