-- ==== Sys2Proof/Laws/KeepsCopy.lean ====
section
/-!
SUPPORT. Every operation of Sys2Proof/Machine/Copy.lean keeps what Sys2Proof/Laws/Keeps.lean names: the queue, the canonical
form of the memories and of the registers, and the fuses. The lemmas follow the order of the operations in that file.
-/
namespace Sys2Proof.Laws

open Sys2Proof.Machine

theorem keeps_State_copyAttic {s₀ : State} {s : State} {j : Nat} {c : Cmd} (hs : Keeps s₀ s) :
    Keeps s₀ (State.copyAttic s j c) := by
  unfold State.copyAttic
  repeat' first
    | with_reducible assumption | with_reducible intro _ | with_reducible apply keeps_ite
    | with_reducible apply keeps_forAll | with_reducible apply keeps_State_atticIssue

theorem keeps_State_copyStart {s₀ : State} {s : State} {j : Nat} {c : Cmd} {errs : List BurstErr} (hs : Keeps s₀ s) :
    Keeps s₀ (State.copyStart s j c errs) := by
  unfold State.copyStart
  repeat' first
    | with_reducible assumption | with_reducible intro _ | with_reducible apply keeps_ite
    | with_reducible apply keeps_forAll | with_reducible apply keeps_State_modCmd
    | with_reducible apply keeps_State_refuse | with_reducible apply keeps_State_engineOn
    | with_reducible apply keeps_State_copyFails | with_reducible apply keeps_State_bursts
    | with_reducible apply keeps_State_copyAttic | split

theorem keeps_State_copyBegin {s₀ : State} {s : State} {j : Nat} {op : Nat} {errs : List BurstErr} (hs : Keeps s₀ s) :
    Keeps s₀ (State.copyBegin s j op errs) := by
  unfold State.copyBegin
  repeat' first
    | with_reducible assumption | with_reducible intro _ | with_reducible apply keeps_ite
    | with_reducible apply keeps_State_start | with_reducible apply keeps_State_startOnDie
    | with_reducible apply keeps_State_copyStart | ((conv => arg 2; zeta); split)

theorem keeps_execCopy {s₀ : State} {j : Slot} {errs : List BurstErr} {s : State} (hs : Keeps s₀ s) :
    KeepsO s₀ (execCopy j errs s) := by
  unfold execCopy
  repeat' first
    | with_reducible assumption | with_reducible apply keeps_next | with_reducible apply keeps_State_copyBegin

theorem keeps_execFill {s₀ : State} {j : Slot} {s : State} (hs : Keeps s₀ s) : KeepsO s₀ (execFill j s) := by
  unfold execFill
  repeat' first
    | with_reducible assumption | with_reducible apply keeps_next | with_reducible apply keeps_State_copyBegin

theorem keeps_State_copyMove {s₀ : State} {s : State} {c : Cmd} {gs : Option (List Nat)} (hs : Keeps s₀ s) :
    Keeps s₀ (State.copyMove s c gs) := by
  unfold State.copyMove
  repeat' first
    | with_reducible assumption | with_reducible intro _ | with_reducible apply keeps_ite
    | with_reducible apply keeps_State_touchEpoch | with_reducible apply keeps_State_setTierMem
    | with_reducible apply copy_wf | with_reducible apply writeP_wf | with_reducible apply foldl_wf
    | with_reducible refine wf_tierMem (Keeps.wf ?_ (by assumption)) | split

theorem keeps_State_copyPoison {s₀ : State} {s : State} {j : Nat} {c : Cmd} {gs : Option (List Nat)} (hs : Keeps s₀ s) :
    Keeps s₀ (State.copyPoison s j c gs) := by
  unfold State.copyPoison
  repeat' first
    | with_reducible assumption | with_reducible apply keeps_ite | with_reducible apply keeps_State_event
    | with_reducible apply keeps_State_outcome | with_reducible apply keeps_State_poisonLog | split

theorem keeps_State_copyFree {s₀ : State} {s : State} {j : Nat} {c : Cmd} {bytes : Nat} (hs : Keeps s₀ s) :
    Keeps s₀ (State.copyFree s j c bytes) := by
  unfold State.copyFree
  repeat' first
    | with_reducible assumption | with_reducible intro _ | with_reducible apply keeps_forAll
    | with_reducible apply keeps_State_engineOff | split

theorem keeps_State_copyStop {s₀ : State} {s : State} {j : Nat} {c : Cmd} (hs : Keeps s₀ s) :
    Keeps s₀ (State.copyStop s j c) := by
  unfold State.copyStop
  repeat' first
    | with_reducible assumption | with_reducible apply keeps_ite | with_reducible apply keeps_State_drawn
    | with_reducible apply keeps_State_copyMove | with_reducible apply keeps_State_copyPoison
    | with_reducible apply keeps_State_copyFree | ((conv => arg 2; (try zeta); arg 30); with_reducible apply keeps_upd)

theorem keeps_execCopyComplete {s₀ : State} {j : Slot} {seq : Nat} {errs : List BurstErr} {s : State} (hs : Keeps s₀ s) :
    KeepsO s₀ (execCopyComplete j seq errs s) := by
  unfold execCopyComplete
  repeat' first
    | with_reducible assumption | with_reducible apply keeps_next | with_reducible apply keeps_ite
    | with_reducible apply keeps_State_finish | with_reducible apply keeps_State_countPath
    | with_reducible apply keeps_State_copyFails | with_reducible apply keeps_State_bursts
    | with_reducible apply keeps_State_copyMove | with_reducible apply keeps_State_copyPoison
    | with_reducible apply keeps_State_copyFree | with_reducible apply keeps_State_copyStop | split
    | ((conv => arg 2; zeta); split)

end Sys2Proof.Laws
end

