-- ==== Sys2Proof/Laws/KeepsCommit.lean ====
section
/-!
SUPPORT. Every operation of Sys2Proof/Machine/Commit.lean keeps what Sys2Proof/Laws/Keeps.lean names: the queue, the canonical
form of the memories and of the registers, and the fuses. The lemmas follow the order of the operations in that file.
-/
namespace Sys2Proof.Laws

open Sys2Proof.Machine

theorem keeps_State_hubDone {s₀ : State} {s : State} {j : Nat} {seq : Nat} {result : Nat} (hs : Keeps s₀ s) :
    Keeps s₀ (State.hubDone s j seq result) := by
  unfold State.hubDone
  repeat' first
    | with_reducible assumption | with_reducible apply keeps_State_modCmd | with_reducible apply keeps_State_finish

theorem keeps_execNop {s₀ : State} {j : Slot} {s : State} (hs : Keeps s₀ s) : KeepsO s₀ (execNop j s) := by
  unfold execNop
  repeat' first
    | with_reducible assumption | with_reducible intro _ | with_reducible apply keeps_next
    | with_reducible apply keeps_State_start | with_reducible apply keeps_State_hubDone

theorem keeps_execIdentify {s₀ : State} {j : Slot} {s : State} (hs : Keeps s₀ s) : KeepsO s₀ (execIdentify j s) := by
  unfold execIdentify
  repeat' first
    | with_reducible assumption | with_reducible intro _ | with_reducible apply keeps_next
    | with_reducible apply keeps_State_hostWrite | with_reducible apply keeps_State_start
    | with_reducible apply keeps_State_hubDone

theorem keeps_execWatermarkNow {s₀ : State} {j : Slot} {s : State} (hs : Keeps s₀ s) : KeepsO s₀ (execWatermarkNow j s) := by
  unfold execWatermarkNow
  repeat' first
    | with_reducible assumption | with_reducible intro _ | with_reducible apply keeps_next
    | with_reducible apply keeps_State_modJob | with_reducible apply keeps_State_start
    | with_reducible apply keeps_State_hubDone

theorem keeps_execReadDigests {s₀ : State} {j : Slot} {s : State} (hs : Keeps s₀ s) : KeepsO s₀ (execReadDigests j s) := by
  unfold execReadDigests
  repeat' first
    | with_reducible assumption | with_reducible intro _ | with_reducible apply keeps_next
    | with_reducible apply keeps_State_hostWrite | with_reducible apply keeps_State_start
    | with_reducible apply keeps_State_hubDone

theorem keeps_execSetWindows {s₀ : State} {j : Slot} {s : State} (hs : Keeps s₀ s) : KeepsO s₀ (execSetWindows j s) := by
  unfold execSetWindows
  repeat' first
    | with_reducible assumption | with_reducible intro _ | with_reducible apply keeps_next
    | with_reducible apply keeps_ite | with_reducible apply keeps_State_refuse | with_reducible apply keeps_State_start
    | with_reducible apply keeps_State_beginTwo

theorem keeps_execPlanBind {s₀ : State} {j : Slot} {s : State} (hs : Keeps s₀ s) : KeepsO s₀ (execPlanBind j s) := by
  unfold execPlanBind
  repeat' first
    | with_reducible assumption | with_reducible intro _ | with_reducible apply keeps_next
    | with_reducible apply keeps_ite | with_reducible apply keeps_State_refuse | with_reducible apply keeps_State_start
    | with_reducible apply keeps_State_beginTwo

theorem keeps_execPlanUnbind {s₀ : State} {j : Slot} {s : State} (hs : Keeps s₀ s) : KeepsO s₀ (execPlanUnbind j s) := by
  unfold execPlanUnbind
  repeat' first
    | with_reducible assumption | with_reducible intro _ | with_reducible apply keeps_next
    | with_reducible apply keeps_State_start | with_reducible apply keeps_State_beginTwo

theorem keeps_execErrmemClear {s₀ : State} {j : Slot} {s : State} (hs : Keeps s₀ s) : KeepsO s₀ (execErrmemClear j s) := by
  unfold execErrmemClear
  repeat' first
    | with_reducible assumption | with_reducible intro _ | with_reducible apply keeps_next
    | with_reducible apply keeps_State_start | with_reducible apply keeps_State_beginTwo

theorem keeps_execDieReadmit {s₀ : State} {j : Slot} {s : State} (hs : Keeps s₀ s) : KeepsO s₀ (execDieReadmit j s) := by
  unfold execDieReadmit
  repeat' first
    | with_reducible assumption | with_reducible intro _ | with_reducible apply keeps_next
    | with_reducible apply keeps_State_startOnDie | with_reducible apply keeps_State_beginTwo

theorem keeps_execDieReset {s₀ : State} {j : Slot} {s : State} (hs : Keeps s₀ s) : KeepsO s₀ (execDieReset j s) := by
  unfold execDieReset
  repeat' first
    | with_reducible assumption | with_reducible intro _ | with_reducible apply keeps_next
    | with_reducible apply keeps_State_startOnDie | with_reducible apply keeps_State_beginTwo

theorem keeps_execSetPowerState {s₀ : State} {j : Slot} {s : State} (hs : Keeps s₀ s) :
    KeepsO s₀ (execSetPowerState j s) := by
  unfold execSetPowerState
  repeat' first
    | with_reducible assumption | with_reducible intro _ | with_reducible apply keeps_next
    | with_reducible apply keeps_ite | with_reducible apply keeps_State_start
    | with_reducible apply keeps_State_beginTwo | with_reducible apply keeps_State_hubDone

theorem keeps_State_prepare {s₀ : State} {s : State} {j : Nat} {c : Cmd} {p : Nat} (hs : Keeps s₀ s) :
    KeepsP s₀ (State.prepare s j c p) := by
  unfold State.prepare
  repeat' first
    | with_reducible assumption | with_reducible apply keepsP_ite | with_reducible apply keeps_State_restoreWrite
    | ((fail_if_success (conv => arg 2; (try zeta); arg 3)); with_reducible apply keepsP_mk)
    | ((conv => arg 2; zeta); split)

theorem keeps_State_putWindows {s₀ : State} {s : State} {j : Nat} {c : Cmd} (hs : Keeps s₀ s) :
    Keeps s₀ (State.putWindows s j c) := by
  unfold State.putWindows
  repeat' first | with_reducible assumption | with_reducible apply keeps_State_modJob

theorem keeps_State_clearStream {s₀ : State} {s : State} {j : Nat} (hs : Keeps s₀ s) : Keeps s₀ (State.clearStream s j) := by
  unfold State.clearStream
  repeat' first | with_reducible assumption | with_reducible apply keeps_State_setFld

theorem keeps_State_bind {s₀ : State} {s : State} {j : Nat} {c : Cmd} (hs : Keeps s₀ s) : Keeps s₀ (State.bind s j c) := by
  unfold State.bind
  repeat' first
    | with_reducible assumption | with_reducible apply keeps_State_setFld | with_reducible apply keeps_State_drawnN
    | with_reducible apply keeps_State_modJob | with_reducible apply keeps_State_formSet
    | with_reducible apply keeps_State_clearStream

theorem keeps_State_unbind {s₀ : State} {s : State} {j : Nat} (hs : Keeps s₀ s) : Keeps s₀ (State.unbind s j) := by
  unfold State.unbind
  repeat' first
    | with_reducible assumption | with_reducible apply keeps_State_modJob | with_reducible apply keeps_State_formSet
    | with_reducible apply keeps_State_clearStream

theorem keeps_State_readmit {s₀ : State} {s : State} {d : Nat} (hs : Keeps s₀ s) : Keeps s₀ (State.readmit s d) := by
  unfold State.readmit
  repeat' first
    | with_reducible assumption | with_reducible apply keeps_State_setFld | with_reducible apply keeps_State_showSpares
    | with_reducible apply keeps_State_applyDeferred | with_reducible apply keeps_State_showLevels
    | with_reducible apply keeps_State_addRamps

theorem keeps_State_resetDie {s₀ : State} {s : State} {d : Nat} (hs : Keeps s₀ s) : Keeps s₀ (State.resetDie s d) := by
  unfold State.resetDie
  repeat' first
    | with_reducible assumption | with_reducible apply keeps_ite | with_reducible apply keeps_setReg
    | with_reducible apply keeps_State_setFld | with_reducible apply keeps_State_showSpares
    | with_reducible apply keeps_State_leaveService | with_reducible apply keeps_State_dieResetState
    | with_reducible apply keeps_State_showLevels | with_reducible apply keeps_State_loadIslands
    | with_reducible apply keeps_State_loadMaps | ((conv => arg 2; (try zeta); arg 30); with_reducible apply keeps_upd)

theorem keeps_State_commit {s₀ : State} {s : State} {j : Nat} {c : Cmd} (hs : Keeps s₀ s) :
    Keeps s₀ (State.commit s j c) := by
  unfold State.commit
  repeat' first
    | with_reducible assumption | with_reducible apply keeps_ite | with_reducible apply keeps_State_modJob
    | with_reducible apply keeps_State_modCmd | with_reducible apply keeps_State_showCellar
    | with_reducible apply keeps_State_deleteSnap | with_reducible apply keeps_State_beginState
    | with_reducible apply keeps_State_putWindows | with_reducible apply keeps_State_bind
    | with_reducible apply keeps_State_unbind | with_reducible apply keeps_State_readmit
    | with_reducible apply keeps_State_resetDie
    | (with_reducible refine keeps_fst ?_; with_reducible apply keeps_State_restoreCommit) | split

theorem keeps_State_decideTwo {s₀ : State} {s : State} {j : Nat} {seq : Nat} (hs : Keeps s₀ s) :
    Keeps s₀ (State.decideTwo s j seq) := by
  unfold State.decideTwo
  repeat' first
    | with_reducible assumption | with_reducible intro _ | with_reducible apply keeps_ite
    | with_reducible apply keeps_forAll | with_reducible apply keeps_State_modCmd
    | with_reducible apply keeps_State_internally | with_reducible apply keeps_State_postCmd
    | with_reducible apply keeps_State_release | with_reducible apply keeps_State_spoil
    | with_reducible apply keeps_State_commit | ((conv => arg 2; (try zeta); arg 30); with_reducible apply keeps_nvm)
    | split | ((conv => arg 2; zeta); split) | exact Nat.le_refl _

theorem keeps_execPrepareReply {s₀ : State} {j : Slot} {part : Part} {ok : Bool} {s : State} (hs : Keeps s₀ s) :
    KeepsO s₀ (execPrepareReply j part ok s) := by
  unfold execPrepareReply
  repeat' first
    | with_reducible assumption | with_reducible apply keeps_next | with_reducible apply keeps_ite
    | with_reducible apply keeps_State_bump | with_reducible apply keeps_State_drawn
    | with_reducible apply keeps_State_modCmd | with_reducible apply keeps_State_settleAbort
    | with_reducible apply keeps_State_prepareFails | with_reducible apply keeps_State_prepare
    | with_reducible apply keeps_State_decideTwo | with_reducible refine keeps_eq (by assumption) ?_ | split
    | ((conv => arg 2; zeta); split)

theorem keeps_execPrepareTimeout {s₀ : State} {j : Slot} {part : Part} {s : State} (hs : Keeps s₀ s) :
    KeepsO s₀ (execPrepareTimeout j part s) := by
  unfold execPrepareTimeout
  repeat' first
    | with_reducible assumption | with_reducible apply keeps_next | with_reducible apply keeps_ite
    | with_reducible apply keeps_State_prepareFails | split

end Sys2Proof.Laws
end

