-- ==== Sys2Proof/Laws/KeepsJobReset.lean ====
section
/-!
SUPPORT. Every operation of Sys2Proof/Machine/JobReset.lean keeps what Sys2Proof/Laws/Keeps.lean names: the queue, the canonical
form of the memories and of the registers, and the fuses. The lemmas follow the order of the operations in that file.
-/
namespace Sys2Proof.Laws

open Sys2Proof.Machine

theorem keeps_State_deadlineStops {s₀ : State} {s : State} {j : Nat} {c : Cmd} (hs : Keeps s₀ s) :
    Keeps s₀ (State.deadlineStops s j c) := by
  unfold State.deadlineStops
  repeat' first
    | with_reducible assumption | with_reducible apply keeps_ite | with_reducible apply keeps_State_modCmd
    | with_reducible apply keeps_State_finish | with_reducible apply keeps_State_stopRun
    | with_reducible apply keeps_State_checkEnd | with_reducible apply keeps_State_abortTwo
    | with_reducible apply keeps_State_endTake | with_reducible apply keeps_State_modSec | split

theorem keeps_execDeadlineExpiry {s₀ : State} {j : Slot} {seq : Nat} {s : State} (hs : Keeps s₀ s) :
    KeepsO s₀ (execDeadlineExpiry j seq s) := by
  unfold execDeadlineExpiry
  repeat' first
    | with_reducible assumption | with_reducible apply keeps_next | with_reducible apply keeps_ite
    | with_reducible apply keeps_State_modCmd | with_reducible apply keeps_State_deadlineWins
    | with_reducible apply keeps_State_finish | with_reducible apply keeps_State_deadlineStops | split

theorem keeps_consumeLoop {s₀ : State} {n : Nat} {s : State} {j : Nat} (hs : Keeps s₀ s) : Keeps s₀ (consumeLoop n s j) := by
  induction n generalizing s with
  | zero => exact hs
  | succ n ih =>
    unfold consumeLoop
    dsimp only
    split
    · exact hs
    · exact ih (keeps_State_modQp (keeps_State_setFld (keeps_State_setFld (keeps_State_setFld hs))))

theorem keeps_State_consume2 {s₀ : State} {s : State} {j : Nat} (hs : Keeps s₀ s) : Keeps s₀ (State.consume2 s j) := by
  unfold State.consume2
  repeat' first
    | with_reducible assumption | with_reducible apply keeps_ite | with_reducible apply keeps_State_setFld
    | with_reducible apply keeps_consumeLoop

theorem keeps_State_dropRollback {s₀ : State} {s : State} {j : Nat} (hs : Keeps s₀ s) :
    Keeps s₀ (State.dropRollback s j) := by
  unfold State.dropRollback
  repeat' first
    | with_reducible assumption | with_reducible intro _ | with_reducible apply keeps_ite
    | with_reducible apply keeps_forAll | with_reducible apply keeps_State_setFld
    | with_reducible apply keeps_State_touchEpoch | with_reducible apply keeps_State_scramble
    | with_reducible apply keeps_State_modRun | with_reducible apply keeps_State_dropTallies
    | with_reducible apply keeps_State_showSteward | split

theorem keeps_State_resetJob {s₀ : State} {s : State} {j : Nat} (hs : Keeps s₀ s) : Keeps s₀ (State.resetJob s j) := by
  unfold State.resetJob
  repeat' first
    | with_reducible assumption | with_reducible intro _ | with_reducible apply keeps_ite
    | with_reducible apply keeps_forAll | with_reducible apply keeps_State_setFld
    | with_reducible apply keeps_State_modJob | with_reducible apply keeps_State_modCmd
    | with_reducible apply keeps_State_outcome | with_reducible apply keeps_State_stopRun
    | with_reducible apply keeps_State_checkEnd | with_reducible apply keeps_State_abortTwo
    | with_reducible apply keeps_State_showCellar | with_reducible apply keeps_State_sweep
    | with_reducible apply keeps_State_modSec | with_reducible apply keeps_State_consume2
    | with_reducible apply keeps_State_dropRollback | split

theorem keeps_execKeagerJobReset {s₀ : State} {j : Slot} {s : State} (hs : Keeps s₀ s) :
    KeepsO s₀ (execKeagerJobReset j s) := by
  unfold execKeagerJobReset
  repeat' first
    | with_reducible assumption | with_reducible intro _ | with_reducible apply keeps_next
    | with_reducible apply keeps_ite | with_reducible apply keeps_State_served
    | with_reducible apply keeps_State_resetJob

theorem keeps_State_closeRun {s₀ : State} {s : State} {j : Nat} (hs : Keeps s₀ s) : Keeps s₀ (State.closeRun s j) := by
  unfold State.closeRun
  repeat' first
    | with_reducible assumption | with_reducible intro _ | with_reducible apply keeps_ite
    | with_reducible apply keeps_forAll | with_reducible apply keeps_State_modCmd
    | with_reducible apply keeps_State_finish | with_reducible apply keeps_State_params
    | with_reducible apply keeps_State_modRun | with_reducible apply keeps_State_hidePrint
    | with_reducible apply keeps_State_stewardBoundary | split

theorem keeps_State_emptySlots {s₀ : State} {s : State} {j : Nat} (hs : Keeps s₀ s) : Keeps s₀ (State.emptySlots s j) := by
  unfold State.emptySlots
  repeat' first
    | with_reducible assumption | with_reducible intro _ | with_reducible apply keeps_ite
    | with_reducible apply keeps_setReg | with_reducible apply keeps_forAll | with_reducible apply keeps_State_setFld
    | with_reducible apply keeps_State_modCore

theorem keeps_State_freeBanks {s₀ : State} {s : State} {j : Nat} (hs : Keeps s₀ s) : Keeps s₀ (State.freeBanks s j) := by
  unfold State.freeBanks
  repeat' first
    | with_reducible assumption | with_reducible intro _ | with_reducible apply keeps_ite
    | with_reducible apply keeps_forAll | with_reducible apply keeps_State_setOwner

theorem keeps_State_resetEffects {s₀ : State} {s : State} {j : Nat} (hs : Keeps s₀ s) :
    Keeps s₀ (State.resetEffects s j) := by
  unfold State.resetEffects
  repeat' first
    | with_reducible assumption | with_reducible apply keeps_setReg | with_reducible apply keeps_State_setFld
    | with_reducible apply keeps_State_modJob | with_reducible apply keeps_State_dropTallies
    | with_reducible apply keeps_State_clearStream | with_reducible apply keeps_State_emptySlots
    | with_reducible apply keeps_State_freeBanks

theorem keeps_execJobResetDone {s₀ : State} {j : Slot} {s : State} (hs : Keeps s₀ s) : KeepsO s₀ (execJobResetDone j s) := by
  unfold execJobResetDone
  repeat' first
    | with_reducible assumption | with_reducible intro _ | with_reducible apply keeps_next
    | with_reducible apply keeps_ite | with_reducible apply keeps_forAll | with_reducible apply keeps_State_setFld
    | with_reducible apply keeps_State_postHeld | with_reducible apply keeps_State_finish
    | with_reducible apply keeps_State_conclude | with_reducible apply keeps_State_fetch
    | with_reducible apply keeps_State_showSteward | with_reducible apply keeps_State_copyStop | with_reducible apply keeps_State_closeRun
    | with_reducible apply keeps_State_resetEffects

end Sys2Proof.Laws
end

