-- ==== Sys2Proof/Laws/KeepsSecurity.lean ====
section
/-!
SUPPORT. Every operation of Sys2Proof/Machine/Security.lean keeps what Sys2Proof/Laws/Keeps.lean names: the queue, the canonical
form of the memories and of the registers, and the fuses. The lemmas follow the order of the operations in that file.
-/
namespace Sys2Proof.Laws

open Sys2Proof.Machine

theorem keeps_State_tokenRefused {s₀ : State} {s : State} (hs : Keeps s₀ s) : Keeps s₀ (State.tokenRefused s) := by
  unfold State.tokenRefused
  repeat' first
    | with_reducible assumption | with_reducible apply keeps_State_bump | with_reducible apply keeps_State_secAlert

theorem keeps_State_judge {s₀ : State} {s : State} {t : List Byte} {kind : Nat} (hs : Keeps s₀ s) :
    KeepsP s₀ (State.judge s t kind) := by
  unfold State.judge
  repeat' first
    | with_reducible assumption | with_reducible apply keepsP_ite | with_reducible apply keeps_State_bump
    | with_reducible apply keeps_State_dropNonce | with_reducible apply keeps_State_tokenRefused
    | ((fail_if_success (conv => arg 2; (try zeta); arg 3)); with_reducible apply keepsP_mk) | split

theorem keeps_State_beginSession {s₀ : State} {s : State} {level : Nat} {path : Nat} (hs : Keeps s₀ s) :
    Keeps s₀ (State.beginSession s level path) := by
  unfold State.beginSession
  repeat' first
    | with_reducible assumption | with_reducible apply keeps_ite | with_reducible apply keeps_State_setFld
    | with_reducible apply keeps_State_secAlert | with_reducible apply keeps_State_secEvent

theorem keeps_State_d2Zeroise {s₀ : State} {s : State} (hs : Keeps s₀ s) : Keeps s₀ (State.d2Zeroise s) := by
  unfold State.d2Zeroise
  repeat' first
    | with_reducible assumption | with_reducible apply keeps_State_setFld | with_reducible apply keeps_State_secAlert
    | with_reducible apply keeps_State_secEvent | with_reducible apply keeps_State_zeroise

theorem keeps_State_d2Keager {s₀ : State} {s : State} {j : Nat} (hs : Keeps s₀ s) : Keeps s₀ (State.d2Keager s j) := by
  unfold State.d2Keager
  repeat' first
    | with_reducible assumption | with_reducible apply keeps_ite | with_reducible apply keeps_State_modCmd
    | with_reducible apply keeps_State_internally | with_reducible apply keeps_State_postCmd
    | with_reducible apply keeps_State_modSec | with_reducible apply keeps_State_beginSession
    | with_reducible apply keeps_State_d2Zeroise | split

theorem keeps_State_d2Asked {s₀ : State} {s : State} {who : Asker} (hs : Keeps s₀ s) : Keeps s₀ (State.d2Asked s who) := by
  unfold State.d2Asked
  repeat' first
    | with_reducible assumption | with_reducible apply keeps_ite | with_reducible apply keeps_State_modSec
    | with_reducible apply keeps_State_arrive

theorem keeps_execDebugEnter {s₀ : State} {j : Slot} {s : State} (hs : Keeps s₀ s) : KeepsO s₀ (execDebugEnter j s) := by
  unfold execDebugEnter
  repeat' first
    | with_reducible assumption | with_reducible intro _ | with_reducible apply keeps_next
    | with_reducible apply keeps_ite | with_reducible apply keeps_State_refuse | with_reducible apply keeps_State_start
    | with_reducible apply keeps_State_hubDone | with_reducible apply keeps_State_judge
    | with_reducible apply keeps_State_beginSession | with_reducible apply keeps_State_d2Keager
    | with_reducible apply keeps_State_d2Asked | with_reducible refine keeps_eq (by assumption) ?_ | split
    | ((conv => arg 2; zeta); split)

theorem keeps_execDebugExit {s₀ : State} {j : Slot} {s : State} (hs : Keeps s₀ s) : KeepsO s₀ (execDebugExit j s) := by
  unfold execDebugExit
  repeat' first
    | with_reducible assumption | with_reducible intro _ | with_reducible apply keeps_next
    | with_reducible apply keeps_ite | with_reducible apply keeps_State_refuse | with_reducible apply keeps_State_start
    | with_reducible apply keeps_State_endSession | with_reducible apply keeps_State_hubDone

theorem keeps_State_enterReturn {s₀ : State} {s : State} (hs : Keeps s₀ s) : Keeps s₀ (State.enterReturn s) := by
  unfold State.enterReturn
  repeat' first
    | with_reducible assumption | with_reducible intro _ | with_reducible apply keeps_setReg
    | with_reducible apply keeps_State_setFld | with_reducible apply keeps_State_modCellar
    | with_reducible apply keeps_State_modSec | with_reducible apply keeps_State_secEvent
    | with_reducible apply keeps_State_endSession | with_reducible apply keeps_State_zeroise
    | with_reducible apply keeps_State_discardJobs
    | ((conv => arg 2; (try zeta); arg 30); with_reducible apply keeps_nvm) | exact Nat.le_refl _ | rfl

theorem keeps_State_returnRow {s₀ : State} {s : State} {j : Nat} (hs : Keeps s₀ s) : Keeps s₀ (State.returnRow s j) := by
  unfold State.returnRow
  repeat' first
    | with_reducible assumption | with_reducible intro _
    | with_reducible apply keeps_State_refuse | with_reducible apply keeps_State_start
    | with_reducible apply keeps_State_hubDone | with_reducible apply keeps_State_judge
    | with_reducible apply keeps_State_enterReturn | with_reducible refine keeps_eq (by assumption) ?_ | split

theorem keeps_State_returnCut {s₀ : State} {s t : State} {past : Bool} {dv : Nat} (hs : Keeps s₀ s) (ht : Keeps s₀ t) :
    Keeps s₀ (State.returnCut s t past dv) := by
  unfold State.returnCut
  repeat' first
    | with_reducible assumption | with_reducible apply keeps_ite | with_reducible apply keeps_State_loseInput
    | with_reducible apply keeps_State_modCellar | with_reducible apply keeps_State_modNvm | exact Nat.le_refl _ | rfl | simp

theorem keeps_execEnterReturn {s₀ : State} {j : Slot} {cut : Option (Bool × Nat)} {s : State} (hs : Keeps s₀ s) :
    KeepsO s₀ (execEnterReturn j cut s) := by
  unfold execEnterReturn
  repeat' first
    | with_reducible assumption | with_reducible apply keeps_next | with_reducible apply keeps_State_returnRow
    | with_reducible apply keeps_State_returnCut | split

theorem keeps_execAttest {s₀ : State} {j : Slot} {s : State} (hs : Keeps s₀ s) : KeepsO s₀ (execAttest j s) := by
  unfold execAttest
  repeat' first
    | with_reducible assumption | with_reducible intro _ | with_reducible apply keeps_next
    | with_reducible apply keeps_ite | with_reducible apply keeps_State_bump
    | with_reducible apply keeps_State_hostWrite | with_reducible apply keeps_State_refuse
    | with_reducible apply keeps_State_start | with_reducible apply keeps_State_hubDone | split

theorem keeps_execGetCert {s₀ : State} {j : Slot} {s : State} (hs : Keeps s₀ s) : KeepsO s₀ (execGetCert j s) := by
  unfold execGetCert
  repeat' first
    | with_reducible assumption | with_reducible intro _ | with_reducible apply keeps_next
    | with_reducible apply keeps_ite | with_reducible apply keeps_State_bump
    | with_reducible apply keeps_State_hostWrite | with_reducible apply keeps_State_modCmd
    | with_reducible apply keeps_State_outcome | with_reducible apply keeps_State_finish
    | with_reducible apply keeps_State_refuse | with_reducible apply keeps_State_start
    | with_reducible apply keeps_State_hubDone | split

theorem keeps_execNewNonce {s₀ : State} {s : State} (hs : Keeps s₀ s) : KeepsO s₀ (execNewNonce s) := by
  unfold execNewNonce
  repeat' first
    | with_reducible assumption | with_reducible intro _ | with_reducible apply keeps_next
    | with_reducible apply keeps_State_served | with_reducible apply keeps_State_newNonce

theorem keeps_State_haltWrite {s₀ : State} {s : State} {w : Nat} (hs : Keeps s₀ s) : Keeps s₀ (State.haltWrite s w) := by
  unfold State.haltWrite
  repeat' first
    | with_reducible assumption | with_reducible intro _ | with_reducible apply keeps_ite
    | with_reducible apply keeps_forAll | with_reducible apply keeps_State_setHalt
    | with_reducible apply keeps_State_showJobs

theorem keeps_execHalt {s₀ : State} {w : Nat} {s : State} (hs : Keeps s₀ s) : KeepsO s₀ (execHalt w s) := by
  unfold execHalt
  repeat' first
    | with_reducible assumption | with_reducible intro _ | with_reducible apply keeps_next
    | with_reducible apply keeps_State_served | with_reducible apply keeps_State_haltWrite

theorem keeps_execResume {s₀ : State} {w : Nat} {s : State} (hs : Keeps s₀ s) : KeepsO s₀ (execResume w s) := by
  unfold execResume
  repeat' first
    | with_reducible assumption | with_reducible intro _ | with_reducible apply keeps_next
    | with_reducible apply keeps_State_served | with_reducible apply keeps_State_haltWrite

end Sys2Proof.Laws
end

