-- ==== Sys2Proof/Laws/KeepsMailbox.lean ====
section
/-!
SUPPORT. Every operation of Sys2Proof/Machine/Mailbox.lean keeps what Sys2Proof/Laws/Keeps.lean names: the queue, the canonical
form of the memories and of the registers, and the fuses. The lemmas follow the order of the operations in that file.
-/
namespace Sys2Proof.Laws

open Sys2Proof.Machine

theorem keeps_State_modMbox {s₀ : State} {s : State} {f : Mbox → Mbox} (hs : Keeps s₀ s) : Keeps s₀ (State.modMbox s f) := by
  unfold State.modMbox
  repeat' first | with_reducible assumption | ((conv => arg 2; (try zeta); arg 30); with_reducible apply keeps_upd)

theorem keeps_State_showBusy {s₀ : State} {s : State} (hs : Keeps s₀ s) : Keeps s₀ (State.showBusy s) := by
  unfold State.showBusy
  repeat' first | with_reducible assumption | with_reducible apply keeps_State_setFld

theorem keeps_State_mboxReply {s₀ : State} {s : State} {path : MboxPath} {msg : Nat} {tag : Nat} {status : Nat}
    {payload : List Byte} (hs : Keeps s₀ s) : Keeps s₀ (State.mboxReply s path msg tag status payload) := by
  unfold State.mboxReply
  repeat' first
    | with_reducible assumption | with_reducible apply keeps_State_setFld | with_reducible apply keeps_State_secAlert
    | with_reducible apply keeps_State_modMbox | split

theorem keeps_State_mboxServed {s₀ : State} {s : State} {r : MboxReq} {status : Nat} {payload : List Byte}
    (hs : Keeps s₀ s) : Keeps s₀ (State.mboxServed s r status payload) := by
  unfold State.mboxServed
  repeat' first
    | with_reducible assumption | with_reducible apply keeps_State_bump | with_reducible apply keeps_State_modMbox
    | with_reducible apply keeps_State_showBusy | with_reducible apply keeps_State_mboxReply

theorem keeps_State_msgGetState {s₀ : State} {s : State} {r : MboxReq} (hs : Keeps s₀ s) :
    Keeps s₀ (State.msgGetState s r) := by
  unfold State.msgGetState
  repeat' first | with_reducible assumption | with_reducible apply keeps_State_mboxServed

theorem keeps_State_claimed {s₀ : State} {s : State} {key : List Byte} (hs : Keeps s₀ s) :
    Keeps s₀ (State.claimed s key) := by
  unfold State.claimed
  repeat' first
    | with_reducible assumption | with_reducible intro _ | with_reducible apply keeps_ite
    | with_reducible apply keeps_State_setFld | with_reducible apply keeps_State_drawnN
    | with_reducible apply keeps_State_secAlert | with_reducible apply keeps_State_secEvent
    | with_reducible apply keeps_State_endSession | with_reducible apply keeps_State_showLock
    | with_reducible apply keeps_State_formOwner | ((conv => arg 2; (try zeta); arg 30); with_reducible apply keeps_nvm)
    | exact Nat.le_refl _ | rfl

theorem keeps_State_msgClaim {s₀ : State} {s : State} {r : MboxReq} (hs : Keeps s₀ s) : Keeps s₀ (State.msgClaim s r) := by
  unfold State.msgClaim
  repeat' first
    | with_reducible assumption | with_reducible apply keeps_ite | with_reducible apply keeps_State_mboxServed
    | with_reducible apply keeps_State_claimed

theorem keeps_State_msgAttest {s₀ : State} {s : State} {r : MboxReq} (hs : Keeps s₀ s) : Keeps s₀ (State.msgAttest s r) := by
  unfold State.msgAttest
  repeat' first
    | with_reducible assumption | with_reducible apply keeps_ite | with_reducible apply keeps_State_bump
    | with_reducible apply keeps_State_mboxServed | split

theorem keeps_State_msgGetCert {s₀ : State} {s : State} {r : MboxReq} (hs : Keeps s₀ s) :
    Keeps s₀ (State.msgGetCert s r) := by
  unfold State.msgGetCert
  repeat' first
    | with_reducible assumption | with_reducible apply keeps_ite | with_reducible apply keeps_State_bump
    | with_reducible apply keeps_State_mboxServed | split

theorem keeps_State_msgNewNonce {s₀ : State} {s : State} {r : MboxReq} (hs : Keeps s₀ s) :
    Keeps s₀ (State.msgNewNonce s r) := by
  unfold State.msgNewNonce
  repeat' first
    | with_reducible assumption | with_reducible apply keeps_ite | with_reducible apply keeps_State_newNonce
    | with_reducible apply keeps_State_mboxServed

theorem keeps_State_d2Mailbox {s₀ : State} {s : State} {r : MboxReq} (hs : Keeps s₀ s) : Keeps s₀ (State.d2Mailbox s r) := by
  unfold State.d2Mailbox
  repeat' first
    | with_reducible assumption | with_reducible apply keeps_State_modSec
    | with_reducible apply keeps_State_beginSession | with_reducible apply keeps_State_d2Zeroise
    | with_reducible apply keeps_State_mboxServed

theorem keeps_State_msgDebugEnter {s₀ : State} {s : State} {r : MboxReq} (hs : Keeps s₀ s) :
    Keeps s₀ (State.msgDebugEnter s r) := by
  unfold State.msgDebugEnter
  repeat' first
    | with_reducible assumption | with_reducible apply keeps_ite | with_reducible apply keeps_State_judge
    | with_reducible apply keeps_State_beginSession | with_reducible apply keeps_State_d2Asked
    | with_reducible apply keeps_State_mboxServed | with_reducible apply keeps_State_d2Mailbox
    | with_reducible refine keeps_eq (by assumption) ?_ | split

theorem keeps_State_msgDebugExit {s₀ : State} {s : State} {r : MboxReq} (hs : Keeps s₀ s) :
    Keeps s₀ (State.msgDebugExit s r) := by
  unfold State.msgDebugExit
  repeat' first
    | with_reducible assumption | with_reducible apply keeps_ite | with_reducible apply keeps_State_endSession
    | with_reducible apply keeps_State_mboxServed

theorem keeps_State_msgFwWrite {s₀ : State} {s : State} {r : MboxReq} (hs : Keeps s₀ s) :
    Keeps s₀ (State.msgFwWrite s r) := by
  unfold State.msgFwWrite
  repeat' first
    | with_reducible assumption | with_reducible apply keeps_ite | with_reducible apply keeps_State_modMbox
    | with_reducible apply keeps_State_mboxServed

theorem keeps_State_msgFwVerify {s₀ : State} {s : State} {r : MboxReq} (hs : Keeps s₀ s) :
    Keeps s₀ (State.msgFwVerify s r) := by
  unfold State.msgFwVerify
  repeat' first
    | with_reducible assumption | with_reducible intro _ | with_reducible apply keeps_ite
    | with_reducible apply keeps_State_bump | with_reducible apply keeps_State_measureExtend
    | with_reducible apply keeps_State_mboxServed
    | ((conv => arg 2; (try zeta); arg 30); with_reducible apply keeps_nvm) | split | exact Nat.le_refl _

theorem keeps_State_msgFwActivate {s₀ : State} {s : State} {r : MboxReq} (hs : Keeps s₀ s) :
    Keeps s₀ (State.msgFwActivate s r) := by
  unfold State.msgFwActivate
  repeat' first
    | with_reducible assumption | with_reducible intro _ | with_reducible apply keeps_ite
    | with_reducible apply keeps_State_setFld | with_reducible apply keeps_State_measureExtend
    | with_reducible apply keeps_State_mboxServed
    | ((conv => arg 2; (try zeta); arg 30); with_reducible apply keeps_nvm) | split | exact Nat.le_refl _
    | exact Nat.le_max_left _ _

theorem keeps_State_msgUnknown {s₀ : State} {s : State} {r : MboxReq} (hs : Keeps s₀ s) :
    Keeps s₀ (State.msgUnknown s r) := by
  unfold State.msgUnknown
  repeat' first
    | with_reducible assumption | with_reducible apply keeps_State_drawn | with_reducible apply keeps_State_mboxServed

theorem keeps_State_mboxServe {s₀ : State} {s : State} {r : MboxReq} (hs : Keeps s₀ s) : Keeps s₀ (State.mboxServe s r) := by
  unfold State.mboxServe
  repeat' first
    | with_reducible assumption | with_reducible apply keeps_ite | with_reducible apply keeps_State_modMbox
    | with_reducible apply keeps_State_showBusy | with_reducible apply keeps_State_msgGetState
    | with_reducible apply keeps_State_msgClaim | with_reducible apply keeps_State_msgAttest
    | with_reducible apply keeps_State_msgGetCert | with_reducible apply keeps_State_msgNewNonce
    | with_reducible apply keeps_State_msgDebugEnter | with_reducible apply keeps_State_msgDebugExit
    | with_reducible apply keeps_State_msgFwWrite | with_reducible apply keeps_State_msgFwVerify
    | with_reducible apply keeps_State_msgFwActivate | with_reducible apply keeps_State_msgUnknown

theorem keeps_mboxDrain {s₀ : State} {n : Nat} {s : State} (hs : Keeps s₀ s) : Keeps s₀ (mboxDrain n s) := by
  induction n generalizing s with
  | zero => exact hs
  | succ n ih =>
    unfold mboxDrain
    split
    · exact hs
    · split
      · exact hs
      · dsimp only
        split
        · exact ih (keeps_State_mboxServe hs)
        · exact keeps_State_mboxServe hs

theorem keeps_State_mboxGoOn {s₀ : State} {s : State} (hs : Keeps s₀ s) : Keeps s₀ (State.mboxGoOn s) := by
  unfold State.mboxGoOn
  repeat' first | with_reducible assumption | with_reducible apply keeps_mboxDrain

theorem keeps_State_mboxArrive {s₀ : State} {s : State} {r : MboxReq} (hs : Keeps s₀ s) :
    Keeps s₀ (State.mboxArrive s r) := by
  unfold State.mboxArrive
  repeat' first
    | with_reducible assumption | with_reducible apply keeps_ite | with_reducible apply keeps_State_modMbox
    | with_reducible apply keeps_State_showBusy | with_reducible apply keeps_State_mboxReply

theorem keeps_State_smbusSeen {s₀ : State} {s : State} {path : MboxPath} (hs : Keeps s₀ s) :
    Keeps s₀ (State.smbusSeen s path) := by
  unfold State.smbusSeen
  repeat' first
    | with_reducible assumption | with_reducible apply keeps_ite | with_reducible apply keeps_State_setFld
    | with_reducible apply keeps_State_bump | with_reducible apply keeps_State_drawn

theorem keeps_State_mboxRow {s₀ : State} {s : State} {msg : Nat} {m : MboxMsg} (hs : Keeps s₀ s) :
    Keeps s₀ (State.mboxRow s msg m) := by
  unfold State.mboxRow
  repeat' first
    | with_reducible assumption | with_reducible apply keeps_ite | with_reducible apply keeps_State_mboxServe
    | with_reducible apply keeps_State_mboxGoOn | with_reducible apply keeps_State_mboxArrive
    | with_reducible apply keeps_State_smbusSeen | split

theorem keeps_State_mboxSubmit {s₀ : State} {s : State} (hs : Keeps s₀ s) : Keeps s₀ (State.mboxSubmit s) := by
  unfold State.mboxSubmit
  repeat' first
    | with_reducible assumption | with_reducible apply keeps_ite | with_reducible apply keeps_State_mboxGoOn
    | with_reducible apply keeps_State_mboxArrive

theorem keeps_execMboxGo {s₀ : State} {s : State} (hs : Keeps s₀ s) : KeepsO s₀ (execMboxGo s) := by
  unfold execMboxGo
  repeat' first
    | with_reducible assumption | with_reducible intro _ | with_reducible apply keeps_next
    | with_reducible apply keeps_State_served | with_reducible apply keeps_State_mboxSubmit

theorem keeps_execGetState {s₀ : State} {m : MboxMsg} {s : State} (hs : Keeps s₀ s) : KeepsO s₀ (execGetState m s) := by
  unfold execGetState
  repeat' first | with_reducible assumption | with_reducible apply keeps_next | with_reducible apply keeps_State_mboxRow

theorem keeps_State_claimCut {s₀ : State} {s t : State} {dv : Nat} (hs : Keeps s₀ s) (ht : Keeps s₀ t) :
    Keeps s₀ (State.claimCut s t dv) := by
  unfold State.claimCut
  repeat' first
    | with_reducible assumption | with_reducible apply keeps_ite | with_reducible apply keeps_State_loseInput
    | with_reducible apply keeps_State_drawnN | with_reducible apply keeps_State_modNvm | exact Nat.le_refl _ | rfl | simp

theorem keeps_execClaim {s₀ : State} {m : MboxMsg} {cut : Option Nat} {s : State} (hs : Keeps s₀ s) :
    KeepsO s₀ (execClaim m cut s) := by
  unfold execClaim
  repeat' first
    | with_reducible assumption | with_reducible apply keeps_next | with_reducible apply keeps_State_mboxRow
    | with_reducible apply keeps_State_claimCut | split

theorem keeps_execMboxAttest {s₀ : State} {m : MboxMsg} {s : State} (hs : Keeps s₀ s) : KeepsO s₀ (execMboxAttest m s) := by
  unfold execMboxAttest
  repeat' first | with_reducible assumption | with_reducible apply keeps_next | with_reducible apply keeps_State_mboxRow

theorem keeps_execMboxGetCert {s₀ : State} {m : MboxMsg} {s : State} (hs : Keeps s₀ s) : KeepsO s₀ (execMboxGetCert m s) := by
  unfold execMboxGetCert
  repeat' first | with_reducible assumption | with_reducible apply keeps_next | with_reducible apply keeps_State_mboxRow

theorem keeps_execMboxNewNonce {s₀ : State} {m : MboxMsg} {s : State} (hs : Keeps s₀ s) :
    KeepsO s₀ (execMboxNewNonce m s) := by
  unfold execMboxNewNonce
  repeat' first | with_reducible assumption | with_reducible apply keeps_next | with_reducible apply keeps_State_mboxRow

theorem keeps_execMboxDebugEnter {s₀ : State} {m : MboxMsg} {s : State} (hs : Keeps s₀ s) :
    KeepsO s₀ (execMboxDebugEnter m s) := by
  unfold execMboxDebugEnter
  repeat' first | with_reducible assumption | with_reducible apply keeps_next | with_reducible apply keeps_State_mboxRow

theorem keeps_execMboxDebugExit {s₀ : State} {m : MboxMsg} {s : State} (hs : Keeps s₀ s) :
    KeepsO s₀ (execMboxDebugExit m s) := by
  unfold execMboxDebugExit
  repeat' first | with_reducible assumption | with_reducible apply keeps_next | with_reducible apply keeps_State_mboxRow

theorem keeps_execFwWrite {s₀ : State} {m : MboxMsg} {s : State} (hs : Keeps s₀ s) : KeepsO s₀ (execFwWrite m s) := by
  unfold execFwWrite
  repeat' first | with_reducible assumption | with_reducible apply keeps_next | with_reducible apply keeps_State_mboxRow

theorem keeps_execFwVerify {s₀ : State} {m : MboxMsg} {s : State} (hs : Keeps s₀ s) : KeepsO s₀ (execFwVerify m s) := by
  unfold execFwVerify
  repeat' first | with_reducible assumption | with_reducible apply keeps_next | with_reducible apply keeps_State_mboxRow

theorem keeps_execFwActivate {s₀ : State} {m : MboxMsg} {s : State} (hs : Keeps s₀ s) : KeepsO s₀ (execFwActivate m s) := by
  unfold execFwActivate
  repeat' first | with_reducible assumption | with_reducible apply keeps_next | with_reducible apply keeps_State_mboxRow

theorem keeps_State_mctpReply {s₀ : State} {s : State} {path : MctpPath} {bs : List Byte} (hs : Keeps s₀ s) :
    Keeps s₀ (State.mctpReply s path bs) := by
  unfold State.mctpReply
  repeat' first
    | with_reducible assumption | with_reducible apply keeps_State_modMbox | with_reducible apply keeps_State_smbusSeen
    | split

theorem keeps_execSetEndpointId {s₀ : State} {path : MctpPath} {eid : Nat} {s : State} (hs : Keeps s₀ s) :
    KeepsO s₀ (execSetEndpointId path eid s) := by
  unfold execSetEndpointId
  repeat' first
    | with_reducible assumption | with_reducible apply keeps_next | with_reducible apply keeps_ite
    | with_reducible apply keeps_State_modMbox | with_reducible apply keeps_State_mctpReply

theorem keeps_execGetEndpointId {s₀ : State} {path : MctpPath} {s : State} (hs : Keeps s₀ s) :
    KeepsO s₀ (execGetEndpointId path s) := by
  unfold execGetEndpointId
  repeat' first
    | with_reducible assumption | with_reducible apply keeps_next | with_reducible apply keeps_ite
    | with_reducible apply keeps_State_mctpReply

theorem keeps_execGetMctpVersionSupport {s₀ : State} {path : MctpPath} {ty : Nat} {s : State} (hs : Keeps s₀ s) :
    KeepsO s₀ (execGetMctpVersionSupport path ty s) := by
  unfold execGetMctpVersionSupport
  repeat' first
    | with_reducible assumption | with_reducible apply keeps_next | with_reducible apply keeps_ite
    | with_reducible apply keeps_State_mctpReply

theorem keeps_execGetMessageTypeSupport {s₀ : State} {path : MctpPath} {s : State} (hs : Keeps s₀ s) :
    KeepsO s₀ (execGetMessageTypeSupport path s) := by
  unfold execGetMessageTypeSupport
  repeat' first
    | with_reducible assumption | with_reducible apply keeps_next | with_reducible apply keeps_ite
    | with_reducible apply keeps_State_mctpReply

theorem keeps_execSmbusAlertResponse {s₀ : State} {s : State} (hs : Keeps s₀ s) : KeepsO s₀ (execSmbusAlertResponse s) := by
  unfold execSmbusAlertResponse
  repeat' first
    | with_reducible assumption | with_reducible apply keeps_next | with_reducible apply keeps_ite
    | with_reducible apply keeps_State_modMbox

end Sys2Proof.Laws
end

