-- ==== Sys2Proof/Laws/KeepsHostBus.lean ====
section
/-!
SUPPORT. Every operation of Sys2Proof/Machine/HostBus.lean keeps what Sys2Proof/Laws/Keeps.lean names: the queue, the canonical
form of the memories and of the registers, and the fuses. The lemmas follow the order of the operations in that file.
-/
namespace Sys2Proof.Laws

open Sys2Proof.Machine

theorem keeps_State_plainWrite {s₀ : State} {s : State} {a : Nat} {v : Nat} {mask : Nat} (hs : Keeps s₀ s) :
    Keeps s₀ (State.plainWrite s a v mask) := by
  unfold State.plainWrite
  repeat' first | with_reducible assumption | with_reducible apply keeps_setReg | split

theorem keeps_State_showIslands {s₀ : State} {s : State} (hs : Keeps s₀ s) : Keeps s₀ (State.showIslands s) := by
  unfold State.showIslands
  repeat' first
    | with_reducible assumption | with_reducible intro _ | with_reducible apply keeps_forAll
    | with_reducible apply keeps_State_showIsland

theorem keeps_State_bankWrite {s₀ : State} {s : State} {b : Nat} {o : Nat} {a : Nat} {v : Nat} {mask : Nat}
    (hs : Keeps s₀ s) : Keeps s₀ (State.bankWrite s b o a v mask) := by
  unfold State.bankWrite
  repeat' first
    | with_reducible assumption | with_reducible apply keeps_ite | with_reducible apply keeps_State_bankOwnWrite
    | with_reducible apply keeps_State_bankPwrReq | with_reducible apply keeps_State_dbgWrite
    | with_reducible apply keeps_State_plainWrite

theorem keeps_State_hubWrite {s₀ : State} {s : State} {a : Nat} {v : Nat} {mask : Nat} (hs : Keeps s₀ s) :
    Keeps s₀ (State.hubWrite s a v mask) := by
  unfold State.hubWrite
  repeat' first
    | with_reducible assumption | with_reducible apply keeps_ite | with_reducible apply keeps_State_syncAlert
    | with_reducible apply keeps_State_qcfgWrite | with_reducible apply keeps_State_sqTail
    | with_reducible apply keeps_State_cqHead | with_reducible apply keeps_State_evtHead
    | with_reducible apply keeps_State_newNonce | with_reducible apply keeps_State_resetJob
    | with_reducible apply keeps_State_haltWrite | with_reducible apply keeps_State_mboxSubmit
    | with_reducible apply keeps_State_plainWrite | with_reducible apply keeps_State_showIslands

theorem keeps_State_regWrite {s₀ : State} {s : State} {a : Nat} {v : Nat} {mask : Nat} (hs : Keeps s₀ s) :
    Keeps s₀ (State.regWrite s a v mask) := by
  unfold State.regWrite
  repeat' first
    | with_reducible assumption | with_reducible apply keeps_ite | with_reducible apply keeps_State_arrInject
    | with_reducible apply keeps_State_plainWrite | with_reducible apply keeps_State_bankWrite
    | with_reducible apply keeps_State_hubWrite | split

theorem keeps_State_write4 {s₀ : State} {s : State} {a : Nat} {v : Nat} (hs : Keeps s₀ s) :
    Keeps s₀ (State.write4 s a v) := by
  unfold State.write4
  repeat' first | with_reducible assumption | with_reducible apply keeps_ite | with_reducible apply keeps_State_regWrite

theorem keeps_State_bar0Write {s₀ : State} {s : State} {a : Nat} {size : Nat} {v : Nat} (hs : Keeps s₀ s) :
    Keeps s₀ (State.bar0Write s a size v) := by
  unfold State.bar0Write
  repeat' first
    | with_reducible assumption | with_reducible apply keeps_ite | with_reducible apply keeps_State_modMbox
    | with_reducible apply keeps_State_regWrite | with_reducible apply keeps_State_write4

theorem keeps_execRegisterWrite {s₀ : State} {addr : Nat} {size : Nat} {data : Nat} {s : State} (hs : Keeps s₀ s) :
    KeepsO s₀ (execRegisterWrite addr size data s) := by
  unfold execRegisterWrite
  repeat' first
    | with_reducible assumption | with_reducible apply keeps_next | with_reducible exact keeps_fault
    | with_reducible apply keepsO_ite | with_reducible apply keeps_State_bar0Write

theorem keeps_State_seeQueue {s₀ : State} {s : State} {a : Nat} (hs : Keeps s₀ s) : Keeps s₀ (State.seeQueue s a) := by
  unfold State.seeQueue
  repeat' first
    | with_reducible assumption | with_reducible intro _ | with_reducible apply keeps_ite
    | with_reducible apply keeps_forAll | with_reducible apply keeps_State_showQueue

theorem keeps_State_regRead {s₀ : State} {s : State} {a : Nat} (hs : Keeps s₀ s) : KeepsP s₀ (State.regRead s a) := by
  unfold State.regRead
  repeat' first
    | with_reducible assumption | with_reducible apply keepsP_ite | with_reducible apply keeps_State_dbgRead
    | ((fail_if_success (conv => arg 2; (try zeta); arg 3)); with_reducible apply keepsP_mk) | split

theorem keeps_State_value4 {s₀ : State} {s : State} {a : Nat} (hs : Keeps s₀ s) : KeepsP s₀ (State.value4 s a) := by
  unfold State.value4
  repeat' first
    | with_reducible assumption | with_reducible apply keepsP_ite
    | (with_reducible refine keeps_fst ?_; with_reducible apply keeps_State_regRead)
    | ((fail_if_success (conv => arg 2; (try zeta); arg 3)); with_reducible apply keepsP_mk)

theorem keeps_State_value8 {s₀ : State} {s : State} {a : Nat} (hs : Keeps s₀ s) : KeepsP s₀ (State.value8 s a) := by
  unfold State.value8
  repeat' first
    | with_reducible assumption | with_reducible apply keepsP_ite | with_reducible apply keeps_State_regRead
    | (with_reducible refine keeps_fst ?_; with_reducible apply keeps_State_value4)
    | ((fail_if_success (conv => arg 2; (try zeta); arg 3)); with_reducible apply keepsP_mk)

theorem keeps_State_regValue {s₀ : State} {s : State} {a : Nat} {size : Nat} (hs : Keeps s₀ s) :
    KeepsP s₀ (State.regValue s a size) := by
  unfold State.regValue
  repeat' first
    | with_reducible assumption | with_reducible apply keepsP_ite | with_reducible apply keeps_State_seeQueue
    | with_reducible apply keeps_State_value4 | with_reducible apply keeps_State_value8
    | ((fail_if_success (conv => arg 2; (try zeta); arg 3)); with_reducible apply keepsP_mk)

theorem keeps_State_read4 {s₀ : State} {s : State} {a : Nat} (hs : Keeps s₀ s) : KeepsP s₀ (State.read4 s a) := by
  unfold State.read4
  repeat' first
    | with_reducible assumption | with_reducible apply keepsP_ite | with_reducible apply keeps_State_seeQueue
    | with_reducible apply keeps_State_value4 | with_reducible apply keeps_State_regValue
    | (with_reducible refine keeps_fst ?_; with_reducible apply keeps_State_regRead)
    | ((fail_if_success (conv => arg 2; (try zeta); arg 3)); with_reducible apply keepsP_mk)
    | ((conv => arg 2; (try zeta); arg 30); with_reducible apply keeps_upd) | split

theorem keeps_execBar0HalfRead {s₀ : State} {addr : Nat} {size : Nat} {s : State} (hs : Keeps s₀ s) :
    KeepsO s₀ (execBar0HalfRead addr size s) := by
  unfold execBar0HalfRead
  repeat' first
    | with_reducible assumption | with_reducible apply keeps_next | with_reducible exact keeps_fault
    | with_reducible apply keepsO_ite | (with_reducible refine keeps_fst ?_; with_reducible apply keeps_State_regValue)
    | (with_reducible refine keeps_fst ?_; with_reducible apply keeps_State_read4)
    | ((conv => arg 2; (try zeta); arg 30); with_reducible apply keeps_upd) | split

theorem keeps_State_unpop {s₀ : State} {s : State} {la : Nat} (hs : Keeps s₀ s) : Keeps s₀ (State.unpop s la) := by
  unfold State.unpop
  repeat' first | with_reducible assumption | with_reducible apply keeps_ite | with_reducible apply keeps_State_setFld

theorem keeps_execBar2Read {s₀ : State} {off : Nat} {len : Nat} {errs : List BurstErr} {s : State} (hs : Keeps s₀ s) :
    KeepsO s₀ (execBar2Read off len errs s) := by
  unfold execBar2Read
  repeat' first
    | with_reducible assumption | with_reducible apply keeps_next | with_reducible exact keeps_fault
    | with_reducible apply keeps_ite | with_reducible apply keepsO_ite | with_reducible apply keeps_State_drawnN
    | with_reducible apply keeps_State_poisonLog | with_reducible apply keeps_State_bursts
    | with_reducible apply keeps_State_unpop | ((conv => arg 2; (try zeta); arg 30); with_reducible apply keeps_upd)
    | split

theorem keeps_State_bar2Piece {s₀ : State} {s : State} {la : Nat} {data : List Byte} {poison : Bool} {p : Nat × Nat × Nat}
    (hs : Keeps s₀ s) : Keeps s₀ (State.bar2Piece s la data poison p) := by
  unfold State.bar2Piece
  repeat' first
    | with_reducible assumption | with_reducible apply keeps_ite | with_reducible apply keeps_State_larderWrite
    | with_reducible apply keeps_State_poisonLog | with_reducible apply keeps_State_unpop

theorem keeps_execBar2Write {s₀ : State} {off : Nat} {data : List Byte} {poison : Bool} {errs : List BurstErr} {s : State}
    (hs : Keeps s₀ s) : KeepsO s₀ (execBar2Write off data poison errs s) := by
  unfold execBar2Write
  repeat' first
    | with_reducible assumption | with_reducible intro _ | with_reducible apply keeps_next
    | with_reducible exact keeps_fault | with_reducible apply keeps_ite | with_reducible apply keepsO_ite
    | with_reducible apply keeps_forAll | with_reducible apply keeps_State_bursts
    | with_reducible apply keeps_State_bar2Piece

theorem keeps_State_tdoOut {s₀ : State} {s : State} {v : Nat} (hs : Keeps s₀ s) : Keeps s₀ (State.tdoOut s v) := by
  unfold State.tdoOut
  repeat' first
    | with_reducible assumption | with_reducible apply keeps_ite
    | ((conv => arg 2; (try zeta); arg 30); with_reducible apply keeps_upd)

theorem keeps_State_bypass {s₀ : State} {s : State} {v : Nat} (hs : Keeps s₀ s) : Keeps s₀ (State.bypass s v) := by
  unfold State.bypass
  repeat' first | with_reducible assumption | with_reducible apply keeps_State_tdoOut

theorem keeps_execJtagIdcode {s₀ : State} {s : State} (hs : Keeps s₀ s) : KeepsO s₀ (execJtagIdcode s) := by
  unfold execJtagIdcode
  repeat' first | with_reducible assumption | with_reducible apply keeps_next | with_reducible apply keeps_State_tdoOut

theorem keeps_execJtagBypass {s₀ : State} {b : Bool} {s : State} (hs : Keeps s₀ s) : KeepsO s₀ (execJtagBypass b s) := by
  unfold execJtagBypass
  repeat' first | with_reducible assumption | with_reducible apply keeps_next | with_reducible apply keeps_State_bypass

theorem keeps_execJtagRegRead {s₀ : State} {addr : Nat} {size : Nat} {s : State} (hs : Keeps s₀ s) :
    KeepsO s₀ (execJtagRegRead addr size s) := by
  unfold execJtagRegRead
  repeat' first
    | with_reducible assumption | with_reducible apply keeps_next | with_reducible apply keeps_ite
    | with_reducible apply keeps_State_tdoOut | with_reducible apply keeps_State_bypass
    | (with_reducible refine keeps_fst ?_; with_reducible apply keeps_State_regValue)

theorem keeps_execJtagRegWrite {s₀ : State} {addr : Nat} {size : Nat} {data : Nat} {s : State} (hs : Keeps s₀ s) :
    KeepsO s₀ (execJtagRegWrite addr size data s) := by
  unfold execJtagRegWrite
  repeat' first
    | with_reducible assumption | with_reducible apply keeps_next | with_reducible apply keeps_ite
    | with_reducible apply keeps_State_bar0Write | with_reducible apply keeps_State_bypass

theorem keeps_execJtagScan {s₀ : State} {d : Die} {p : Phys} {s : State} (hs : Keeps s₀ s) :
    KeepsO s₀ (execJtagScan d p s) := by
  unfold execJtagScan
  repeat' first
    | with_reducible assumption | with_reducible apply keeps_next | with_reducible apply keeps_ite
    | with_reducible apply keeps_State_drawn | with_reducible apply keeps_State_tdoOut
    | with_reducible apply keeps_State_bypass

theorem keeps_execJtagHalt {s₀ : State} {d : Die} {p : Phys} {s : State} (hs : Keeps s₀ s) :
    KeepsO s₀ (execJtagHalt d p s) := by
  unfold execJtagHalt
  repeat' first
    | with_reducible assumption | with_reducible apply keeps_next | with_reducible apply keeps_ite
    | with_reducible apply keeps_State_setHalt | with_reducible apply keeps_State_showJobs
    | with_reducible apply keeps_State_bypass

theorem keeps_execJtagSamplePreload {s₀ : State} {v : Nat} {s : State} (hs : Keeps s₀ s) :
    KeepsO s₀ (execJtagSamplePreload v s) := by
  unfold execJtagSamplePreload
  repeat' first
    | with_reducible assumption | with_reducible apply keeps_next | with_reducible apply keeps_ite
    | with_reducible apply keeps_State_drawn | with_reducible apply keeps_State_tdoOut
    | with_reducible apply keeps_State_bypass | ((conv => arg 2; (try zeta); arg 30); with_reducible apply keeps_upd)

theorem keeps_execJtagExtest {s₀ : State} {v : Nat} {s : State} (hs : Keeps s₀ s) : KeepsO s₀ (execJtagExtest v s) := by
  unfold execJtagExtest
  repeat' first
    | with_reducible assumption | with_reducible apply keeps_next | with_reducible apply keeps_ite
    | with_reducible apply keeps_State_drawn | with_reducible apply keeps_State_tdoOut
    | with_reducible apply keeps_State_bypass | ((conv => arg 2; (try zeta); arg 30); with_reducible apply keeps_upd)

end Sys2Proof.Laws
end

