-- ==== Sys2Proof/Laws/KeepsTransfers.lean ====
section
/-!
SUPPORT. Every operation of Sys2Proof/Machine/Transfers.lean keeps what Sys2Proof/Laws/Keeps.lean names: the queue, the canonical
form of the memories and of the registers, and the fuses. The lemmas follow the order of the operations in that file.
-/
namespace Sys2Proof.Laws

open Sys2Proof.Machine

theorem keeps_execXfer {s₀ : State} {j : Slot} {d : Die} {errs : List BurstErr} {s : State} (hs : Keeps s₀ s) :
    KeepsO s₀ (execXfer j d errs s) := by
  unfold execXfer
  repeat' first
    | with_reducible assumption | with_reducible intro _ | with_reducible apply keeps_next
    | with_reducible apply keeps_ite | with_reducible apply keeps_State_engineOn
    | with_reducible apply keeps_State_launch | with_reducible apply keeps_State_modFly
    | with_reducible apply keeps_State_issue | with_reducible apply keeps_State_atticReqs
    | with_reducible apply keeps_State_collisions | with_reducible apply keeps_State_bursts
    | (with_reducible refine keeps_fst ?_; with_reducible apply keeps_State_allow) | split

theorem keeps_execXferComplete {s₀ : State} {j : Slot} {d : Die} {idx : Nat} {errs : List BurstErr} {s : State}
    (hs : Keeps s₀ s) : KeepsO s₀ (execXferComplete j d idx errs s) := by
  unfold execXferComplete
  repeat' first
    | with_reducible assumption | with_reducible apply keeps_next | with_reducible apply keeps_ite
    | with_reducible apply keeps_State_bump | with_reducible apply keeps_State_engineOff
    | with_reducible apply keeps_State_countPath | with_reducible apply keeps_State_retire
    | with_reducible apply keeps_State_collisions | with_reducible apply keeps_State_xferMove
    | with_reducible apply keeps_State_bursts | split

theorem keeps_State_atticMeets {s₀ : State} {s : State} {q : AtticReq} (hs : Keeps s₀ s) :
    KeepsP s₀ (State.atticMeets s q) := by
  unfold State.atticMeets
  repeat' first
    | with_reducible assumption | with_reducible apply keepsP_ite | with_reducible apply keeps_State_collisions
    | ((fail_if_success (conv => arg 2; (try zeta); arg 3)); with_reducible apply keepsP_mk) | split

theorem keeps_execAtticResponse {s₀ : State} {k : Nat} {poison : Bool} {s : State} (hs : Keeps s₀ s) :
    KeepsO s₀ (execAtticResponse k poison s) := by
  unfold execAtticResponse
  repeat' first
    | with_reducible assumption | with_reducible apply keeps_next | with_reducible apply keeps_State_atticRespond
    | (with_reducible refine keeps_fst ?_; with_reducible apply keeps_State_atticMeets) | split

end Sys2Proof.Laws
end

