-- ==== Sys2Proof/Laws/KeepsTick.lean ====
section
/-!
SUPPORT. Every operation of Sys2Proof/Machine/Tick.lean keeps what Sys2Proof/Laws/Keeps.lean names: the queue, the canonical
form of the memories and of the registers, and the fuses. The lemmas follow the order of the operations in that file.
-/
namespace Sys2Proof.Laws

open Sys2Proof.Machine

theorem keeps_State_noteRest {s₀ : State} {s : State} (hs : Keeps s₀ s) : Keeps s₀ (State.noteRest s) := by
  unfold State.noteRest
  repeat' first
    | with_reducible assumption | ((conv => arg 2; (try zeta); arg 30); with_reducible apply keeps_upd)

theorem keeps_State_tick {s₀ : State} {s : State} (hs : Keeps s₀ s) : Keeps s₀ (State.tick s) := by
  unfold State.tick
  repeat' first
    | with_reducible assumption | with_reducible intro _ | with_reducible apply keeps_ite
    | with_reducible apply keeps_forAll | with_reducible apply keeps_State_bump | with_reducible apply keeps_State_noteRest
    | ((conv => arg 2; (try zeta); arg 30); with_reducible apply keeps_upd)

end Sys2Proof.Laws
end

