-- ==== Sys2Proof/Laws/State.lean ====
section
/-!
SUPPORT. One small lemma for each field of the state under each update, so that no proof unfolds a record update; and what a
register and a field read after a write of another or of the same.
-/
namespace Sys2Proof.Laws

open Sys2Proof.Machine

/-! ## `State.setReg` -/

@[simp] theorem setReg_pending (s : State) (a : Nat) (v : Word) : (s.setReg a v).pending = s.pending := rfl
@[simp] theorem setReg_ts (s : State) (a : Nat) (v : Word) : (s.setReg a v).ts = s.ts := rfl
@[simp] theorem setReg_fresh (s : State) (a : Nat) (v : Word) : (s.setReg a v).fresh = s.fresh := rfl
@[simp] theorem setReg_latch (s : State) (a : Nat) (v : Word) : (s.setReg a v).latch = s.latch := rfl
@[simp] theorem setReg_bar2Log (s : State) (a : Nat) (v : Word) : (s.setReg a v).bar2Log = s.bar2Log := rfl
@[simp] theorem setReg_rd (s : State) (a : Nat) (v : Word) : (s.setReg a v).rd = s.rd := rfl
@[simp] theorem setReg_msix (s : State) (a : Nat) (v : Word) : (s.setReg a v).msix = s.msix := rfl
@[simp] theorem setReg_pins (s : State) (a : Nat) (v : Word) : (s.setReg a v).pins = s.pins := rfl
@[simp] theorem setReg_power (s : State) (a : Nat) (v : Word) : (s.setReg a v).power = s.power := rfl
@[simp] theorem setReg_nvm (s : State) (a : Nat) (v : Word) : (s.setReg a v).nvm = s.nvm := rfl
@[simp] theorem setReg_sec (s : State) (a : Nat) (v : Word) : (s.setReg a v).sec = s.sec := rfl
@[simp] theorem setReg_mbox (s : State) (a : Nat) (v : Word) : (s.setReg a v).mbox = s.mbox := rfl
@[simp] theorem setReg_host (s : State) (a : Nat) (v : Word) : (s.setReg a v).host = s.host := rfl
@[simp] theorem setReg_larder (s : State) (a : Nat) (v : Word) : (s.setReg a v).larder = s.larder := rfl
@[simp] theorem setReg_attic (s : State) (a : Nat) (v : Word) : (s.setReg a v).attic = s.attic := rfl
@[simp] theorem setReg_shelf (s : State) (a : Nat) (v : Word) : (s.setReg a v).shelf = s.shelf := rfl
@[simp] theorem setReg_store (s : State) (a : Nat) (v : Word) : (s.setReg a v).store = s.store := rfl
@[simp] theorem setReg_epochs (s : State) (a : Nat) (v : Word) : (s.setReg a v).epochs = s.epochs := rfl
@[simp] theorem setReg_epochBase (s : State) (a : Nat) (v : Word) : (s.setReg a v).epochBase = s.epochBase := rfl
@[simp] theorem setReg_qps (s : State) (a : Nat) (v : Word) : (s.setReg a v).qps = s.qps := rfl
@[simp] theorem setReg_prepared (s : State) (a : Nat) (v : Word) : (s.setReg a v).prepared = s.prepared := rfl
@[simp] theorem setReg_jobs (s : State) (a : Nat) (v : Word) : (s.setReg a v).jobs = s.jobs := rfl
@[simp] theorem setReg_dies (s : State) (a : Nat) (v : Word) : (s.setReg a v).dies = s.dies := rfl
@[simp] theorem setReg_cores (s : State) (a : Nat) (v : Word) : (s.setReg a v).cores = s.cores := rfl
@[simp] theorem setReg_links (s : State) (a : Nat) (v : Word) : (s.setReg a v).links = s.links := rfl
@[simp] theorem setReg_attics (s : State) (a : Nat) (v : Word) : (s.setReg a v).attics = s.attics := rfl
@[simp] theorem setReg_atticNext (s : State) (a : Nat) (v : Word) : (s.setReg a v).atticNext = s.atticNext := rfl
@[simp] theorem setReg_bankTrans (s : State) (a : Nat) (v : Word) : (s.setReg a v).bankTrans = s.bankTrans := rfl
@[simp] theorem setReg_cellar (s : State) (a : Nat) (v : Word) : (s.setReg a v).cellar = s.cellar := rfl

/-! ## `State.setFld` -/

@[simp] theorem setFld_pending (s : State) (b : Nat) (f : Fld) (v i : Nat) : (s.setFld b f v i).pending = s.pending := rfl
@[simp] theorem setFld_ts (s : State) (b : Nat) (f : Fld) (v i : Nat) : (s.setFld b f v i).ts = s.ts := rfl
@[simp] theorem setFld_fresh (s : State) (b : Nat) (f : Fld) (v i : Nat) : (s.setFld b f v i).fresh = s.fresh := rfl
@[simp] theorem setFld_latch (s : State) (b : Nat) (f : Fld) (v i : Nat) : (s.setFld b f v i).latch = s.latch := rfl
@[simp] theorem setFld_bar2Log (s : State) (b : Nat) (f : Fld) (v i : Nat) : (s.setFld b f v i).bar2Log = s.bar2Log := rfl
@[simp] theorem setFld_rd (s : State) (b : Nat) (f : Fld) (v i : Nat) : (s.setFld b f v i).rd = s.rd := rfl
@[simp] theorem setFld_msix (s : State) (b : Nat) (f : Fld) (v i : Nat) : (s.setFld b f v i).msix = s.msix := rfl
@[simp] theorem setFld_pins (s : State) (b : Nat) (f : Fld) (v i : Nat) : (s.setFld b f v i).pins = s.pins := rfl
@[simp] theorem setFld_power (s : State) (b : Nat) (f : Fld) (v i : Nat) : (s.setFld b f v i).power = s.power := rfl
@[simp] theorem setFld_nvm (s : State) (b : Nat) (f : Fld) (v i : Nat) : (s.setFld b f v i).nvm = s.nvm := rfl
@[simp] theorem setFld_sec (s : State) (b : Nat) (f : Fld) (v i : Nat) : (s.setFld b f v i).sec = s.sec := rfl
@[simp] theorem setFld_mbox (s : State) (b : Nat) (f : Fld) (v i : Nat) : (s.setFld b f v i).mbox = s.mbox := rfl
@[simp] theorem setFld_host (s : State) (b : Nat) (f : Fld) (v i : Nat) : (s.setFld b f v i).host = s.host := rfl
@[simp] theorem setFld_larder (s : State) (b : Nat) (f : Fld) (v i : Nat) : (s.setFld b f v i).larder = s.larder := rfl
@[simp] theorem setFld_attic (s : State) (b : Nat) (f : Fld) (v i : Nat) : (s.setFld b f v i).attic = s.attic := rfl
@[simp] theorem setFld_shelf (s : State) (b : Nat) (f : Fld) (v i : Nat) : (s.setFld b f v i).shelf = s.shelf := rfl
@[simp] theorem setFld_store (s : State) (b : Nat) (f : Fld) (v i : Nat) : (s.setFld b f v i).store = s.store := rfl
@[simp] theorem setFld_epochs (s : State) (b : Nat) (f : Fld) (v i : Nat) : (s.setFld b f v i).epochs = s.epochs := rfl
@[simp] theorem setFld_epochBase (s : State) (b : Nat) (f : Fld) (v i : Nat) : (s.setFld b f v i).epochBase = s.epochBase := rfl
@[simp] theorem setFld_qps (s : State) (b : Nat) (f : Fld) (v i : Nat) : (s.setFld b f v i).qps = s.qps := rfl
@[simp] theorem setFld_prepared (s : State) (b : Nat) (f : Fld) (v i : Nat) : (s.setFld b f v i).prepared = s.prepared := rfl
@[simp] theorem setFld_jobs (s : State) (b : Nat) (f : Fld) (v i : Nat) : (s.setFld b f v i).jobs = s.jobs := rfl
@[simp] theorem setFld_dies (s : State) (b : Nat) (f : Fld) (v i : Nat) : (s.setFld b f v i).dies = s.dies := rfl
@[simp] theorem setFld_cores (s : State) (b : Nat) (f : Fld) (v i : Nat) : (s.setFld b f v i).cores = s.cores := rfl
@[simp] theorem setFld_links (s : State) (b : Nat) (f : Fld) (v i : Nat) : (s.setFld b f v i).links = s.links := rfl
@[simp] theorem setFld_attics (s : State) (b : Nat) (f : Fld) (v i : Nat) : (s.setFld b f v i).attics = s.attics := rfl
@[simp] theorem setFld_atticNext (s : State) (b : Nat) (f : Fld) (v i : Nat) : (s.setFld b f v i).atticNext = s.atticNext := rfl
@[simp] theorem setFld_bankTrans (s : State) (b : Nat) (f : Fld) (v i : Nat) : (s.setFld b f v i).bankTrans = s.bankTrans := rfl
@[simp] theorem setFld_cellar (s : State) (b : Nat) (f : Fld) (v i : Nat) : (s.setFld b f v i).cellar = s.cellar := rfl

/-! ## `State.bump` -/

@[simp] theorem bump_pending (s : State) (b : Nat) (f : Fld) (n i : Nat) : (s.bump b f n i).pending = s.pending := rfl
@[simp] theorem bump_ts (s : State) (b : Nat) (f : Fld) (n i : Nat) : (s.bump b f n i).ts = s.ts := rfl
@[simp] theorem bump_fresh (s : State) (b : Nat) (f : Fld) (n i : Nat) : (s.bump b f n i).fresh = s.fresh := rfl
@[simp] theorem bump_latch (s : State) (b : Nat) (f : Fld) (n i : Nat) : (s.bump b f n i).latch = s.latch := rfl
@[simp] theorem bump_bar2Log (s : State) (b : Nat) (f : Fld) (n i : Nat) : (s.bump b f n i).bar2Log = s.bar2Log := rfl
@[simp] theorem bump_rd (s : State) (b : Nat) (f : Fld) (n i : Nat) : (s.bump b f n i).rd = s.rd := rfl
@[simp] theorem bump_msix (s : State) (b : Nat) (f : Fld) (n i : Nat) : (s.bump b f n i).msix = s.msix := rfl
@[simp] theorem bump_pins (s : State) (b : Nat) (f : Fld) (n i : Nat) : (s.bump b f n i).pins = s.pins := rfl
@[simp] theorem bump_power (s : State) (b : Nat) (f : Fld) (n i : Nat) : (s.bump b f n i).power = s.power := rfl
@[simp] theorem bump_nvm (s : State) (b : Nat) (f : Fld) (n i : Nat) : (s.bump b f n i).nvm = s.nvm := rfl
@[simp] theorem bump_sec (s : State) (b : Nat) (f : Fld) (n i : Nat) : (s.bump b f n i).sec = s.sec := rfl
@[simp] theorem bump_mbox (s : State) (b : Nat) (f : Fld) (n i : Nat) : (s.bump b f n i).mbox = s.mbox := rfl
@[simp] theorem bump_host (s : State) (b : Nat) (f : Fld) (n i : Nat) : (s.bump b f n i).host = s.host := rfl
@[simp] theorem bump_larder (s : State) (b : Nat) (f : Fld) (n i : Nat) : (s.bump b f n i).larder = s.larder := rfl
@[simp] theorem bump_attic (s : State) (b : Nat) (f : Fld) (n i : Nat) : (s.bump b f n i).attic = s.attic := rfl
@[simp] theorem bump_shelf (s : State) (b : Nat) (f : Fld) (n i : Nat) : (s.bump b f n i).shelf = s.shelf := rfl
@[simp] theorem bump_store (s : State) (b : Nat) (f : Fld) (n i : Nat) : (s.bump b f n i).store = s.store := rfl
@[simp] theorem bump_epochs (s : State) (b : Nat) (f : Fld) (n i : Nat) : (s.bump b f n i).epochs = s.epochs := rfl
@[simp] theorem bump_epochBase (s : State) (b : Nat) (f : Fld) (n i : Nat) : (s.bump b f n i).epochBase = s.epochBase := rfl
@[simp] theorem bump_qps (s : State) (b : Nat) (f : Fld) (n i : Nat) : (s.bump b f n i).qps = s.qps := rfl
@[simp] theorem bump_prepared (s : State) (b : Nat) (f : Fld) (n i : Nat) : (s.bump b f n i).prepared = s.prepared := rfl
@[simp] theorem bump_jobs (s : State) (b : Nat) (f : Fld) (n i : Nat) : (s.bump b f n i).jobs = s.jobs := rfl
@[simp] theorem bump_dies (s : State) (b : Nat) (f : Fld) (n i : Nat) : (s.bump b f n i).dies = s.dies := rfl
@[simp] theorem bump_cores (s : State) (b : Nat) (f : Fld) (n i : Nat) : (s.bump b f n i).cores = s.cores := rfl
@[simp] theorem bump_links (s : State) (b : Nat) (f : Fld) (n i : Nat) : (s.bump b f n i).links = s.links := rfl
@[simp] theorem bump_attics (s : State) (b : Nat) (f : Fld) (n i : Nat) : (s.bump b f n i).attics = s.attics := rfl
@[simp] theorem bump_atticNext (s : State) (b : Nat) (f : Fld) (n i : Nat) : (s.bump b f n i).atticNext = s.atticNext := rfl
@[simp] theorem bump_bankTrans (s : State) (b : Nat) (f : Fld) (n i : Nat) : (s.bump b f n i).bankTrans = s.bankTrans := rfl
@[simp] theorem bump_cellar (s : State) (b : Nat) (f : Fld) (n i : Nat) : (s.bump b f n i).cellar = s.cellar := rfl

/-! ## `State.bumpSat` -/

@[simp] theorem bumpSat_pending (s : State) (b : Nat) (f : Fld) (n i : Nat) : (s.bumpSat b f n i).pending = s.pending := rfl
@[simp] theorem bumpSat_ts (s : State) (b : Nat) (f : Fld) (n i : Nat) : (s.bumpSat b f n i).ts = s.ts := rfl
@[simp] theorem bumpSat_fresh (s : State) (b : Nat) (f : Fld) (n i : Nat) : (s.bumpSat b f n i).fresh = s.fresh := rfl
@[simp] theorem bumpSat_latch (s : State) (b : Nat) (f : Fld) (n i : Nat) : (s.bumpSat b f n i).latch = s.latch := rfl
@[simp] theorem bumpSat_bar2Log (s : State) (b : Nat) (f : Fld) (n i : Nat) : (s.bumpSat b f n i).bar2Log = s.bar2Log := rfl
@[simp] theorem bumpSat_rd (s : State) (b : Nat) (f : Fld) (n i : Nat) : (s.bumpSat b f n i).rd = s.rd := rfl
@[simp] theorem bumpSat_msix (s : State) (b : Nat) (f : Fld) (n i : Nat) : (s.bumpSat b f n i).msix = s.msix := rfl
@[simp] theorem bumpSat_pins (s : State) (b : Nat) (f : Fld) (n i : Nat) : (s.bumpSat b f n i).pins = s.pins := rfl
@[simp] theorem bumpSat_power (s : State) (b : Nat) (f : Fld) (n i : Nat) : (s.bumpSat b f n i).power = s.power := rfl
@[simp] theorem bumpSat_nvm (s : State) (b : Nat) (f : Fld) (n i : Nat) : (s.bumpSat b f n i).nvm = s.nvm := rfl
@[simp] theorem bumpSat_sec (s : State) (b : Nat) (f : Fld) (n i : Nat) : (s.bumpSat b f n i).sec = s.sec := rfl
@[simp] theorem bumpSat_mbox (s : State) (b : Nat) (f : Fld) (n i : Nat) : (s.bumpSat b f n i).mbox = s.mbox := rfl
@[simp] theorem bumpSat_host (s : State) (b : Nat) (f : Fld) (n i : Nat) : (s.bumpSat b f n i).host = s.host := rfl
@[simp] theorem bumpSat_larder (s : State) (b : Nat) (f : Fld) (n i : Nat) : (s.bumpSat b f n i).larder = s.larder := rfl
@[simp] theorem bumpSat_attic (s : State) (b : Nat) (f : Fld) (n i : Nat) : (s.bumpSat b f n i).attic = s.attic := rfl
@[simp] theorem bumpSat_shelf (s : State) (b : Nat) (f : Fld) (n i : Nat) : (s.bumpSat b f n i).shelf = s.shelf := rfl
@[simp] theorem bumpSat_store (s : State) (b : Nat) (f : Fld) (n i : Nat) : (s.bumpSat b f n i).store = s.store := rfl
@[simp] theorem bumpSat_epochs (s : State) (b : Nat) (f : Fld) (n i : Nat) : (s.bumpSat b f n i).epochs = s.epochs := rfl
@[simp] theorem bumpSat_epochBase (s : State) (b : Nat) (f : Fld) (n i : Nat) : (s.bumpSat b f n i).epochBase = s.epochBase := rfl
@[simp] theorem bumpSat_qps (s : State) (b : Nat) (f : Fld) (n i : Nat) : (s.bumpSat b f n i).qps = s.qps := rfl
@[simp] theorem bumpSat_prepared (s : State) (b : Nat) (f : Fld) (n i : Nat) : (s.bumpSat b f n i).prepared = s.prepared := rfl
@[simp] theorem bumpSat_jobs (s : State) (b : Nat) (f : Fld) (n i : Nat) : (s.bumpSat b f n i).jobs = s.jobs := rfl
@[simp] theorem bumpSat_dies (s : State) (b : Nat) (f : Fld) (n i : Nat) : (s.bumpSat b f n i).dies = s.dies := rfl
@[simp] theorem bumpSat_cores (s : State) (b : Nat) (f : Fld) (n i : Nat) : (s.bumpSat b f n i).cores = s.cores := rfl
@[simp] theorem bumpSat_links (s : State) (b : Nat) (f : Fld) (n i : Nat) : (s.bumpSat b f n i).links = s.links := rfl
@[simp] theorem bumpSat_attics (s : State) (b : Nat) (f : Fld) (n i : Nat) : (s.bumpSat b f n i).attics = s.attics := rfl
@[simp] theorem bumpSat_atticNext (s : State) (b : Nat) (f : Fld) (n i : Nat) : (s.bumpSat b f n i).atticNext = s.atticNext := rfl
@[simp] theorem bumpSat_bankTrans (s : State) (b : Nat) (f : Fld) (n i : Nat) : (s.bumpSat b f n i).bankTrans = s.bankTrans := rfl
@[simp] theorem bumpSat_cellar (s : State) (b : Nat) (f : Fld) (n i : Nat) : (s.bumpSat b f n i).cellar = s.cellar := rfl

/-! ## `State.resetRegs` -/

@[simp] theorem resetRegs_pending (s : State) (p : Nat → Bool) : (s.resetRegs p).pending = s.pending := rfl
@[simp] theorem resetRegs_ts (s : State) (p : Nat → Bool) : (s.resetRegs p).ts = s.ts := rfl
@[simp] theorem resetRegs_fresh (s : State) (p : Nat → Bool) : (s.resetRegs p).fresh = s.fresh := rfl
@[simp] theorem resetRegs_latch (s : State) (p : Nat → Bool) : (s.resetRegs p).latch = s.latch := rfl
@[simp] theorem resetRegs_bar2Log (s : State) (p : Nat → Bool) : (s.resetRegs p).bar2Log = s.bar2Log := rfl
@[simp] theorem resetRegs_rd (s : State) (p : Nat → Bool) : (s.resetRegs p).rd = s.rd := rfl
@[simp] theorem resetRegs_msix (s : State) (p : Nat → Bool) : (s.resetRegs p).msix = s.msix := rfl
@[simp] theorem resetRegs_pins (s : State) (p : Nat → Bool) : (s.resetRegs p).pins = s.pins := rfl
@[simp] theorem resetRegs_power (s : State) (p : Nat → Bool) : (s.resetRegs p).power = s.power := rfl
@[simp] theorem resetRegs_nvm (s : State) (p : Nat → Bool) : (s.resetRegs p).nvm = s.nvm := rfl
@[simp] theorem resetRegs_sec (s : State) (p : Nat → Bool) : (s.resetRegs p).sec = s.sec := rfl
@[simp] theorem resetRegs_mbox (s : State) (p : Nat → Bool) : (s.resetRegs p).mbox = s.mbox := rfl
@[simp] theorem resetRegs_host (s : State) (p : Nat → Bool) : (s.resetRegs p).host = s.host := rfl
@[simp] theorem resetRegs_larder (s : State) (p : Nat → Bool) : (s.resetRegs p).larder = s.larder := rfl
@[simp] theorem resetRegs_attic (s : State) (p : Nat → Bool) : (s.resetRegs p).attic = s.attic := rfl
@[simp] theorem resetRegs_shelf (s : State) (p : Nat → Bool) : (s.resetRegs p).shelf = s.shelf := rfl
@[simp] theorem resetRegs_store (s : State) (p : Nat → Bool) : (s.resetRegs p).store = s.store := rfl
@[simp] theorem resetRegs_epochs (s : State) (p : Nat → Bool) : (s.resetRegs p).epochs = s.epochs := rfl
@[simp] theorem resetRegs_epochBase (s : State) (p : Nat → Bool) : (s.resetRegs p).epochBase = s.epochBase := rfl
@[simp] theorem resetRegs_qps (s : State) (p : Nat → Bool) : (s.resetRegs p).qps = s.qps := rfl
@[simp] theorem resetRegs_prepared (s : State) (p : Nat → Bool) : (s.resetRegs p).prepared = s.prepared := rfl
@[simp] theorem resetRegs_jobs (s : State) (p : Nat → Bool) : (s.resetRegs p).jobs = s.jobs := rfl
@[simp] theorem resetRegs_dies (s : State) (p : Nat → Bool) : (s.resetRegs p).dies = s.dies := rfl
@[simp] theorem resetRegs_cores (s : State) (p : Nat → Bool) : (s.resetRegs p).cores = s.cores := rfl
@[simp] theorem resetRegs_links (s : State) (p : Nat → Bool) : (s.resetRegs p).links = s.links := rfl
@[simp] theorem resetRegs_attics (s : State) (p : Nat → Bool) : (s.resetRegs p).attics = s.attics := rfl
@[simp] theorem resetRegs_atticNext (s : State) (p : Nat → Bool) : (s.resetRegs p).atticNext = s.atticNext := rfl
@[simp] theorem resetRegs_bankTrans (s : State) (p : Nat → Bool) : (s.resetRegs p).bankTrans = s.bankTrans := rfl
@[simp] theorem resetRegs_cellar (s : State) (p : Nat → Bool) : (s.resetRegs p).cellar = s.cellar := rfl

/-! ## `State.setPstate` -/

@[simp] theorem setPstate_pending (s : State) (p : Nat) : (s.setPstate p).pending = s.pending := rfl
@[simp] theorem setPstate_ts (s : State) (p : Nat) : (s.setPstate p).ts = s.ts := rfl
@[simp] theorem setPstate_fresh (s : State) (p : Nat) : (s.setPstate p).fresh = s.fresh := rfl
@[simp] theorem setPstate_latch (s : State) (p : Nat) : (s.setPstate p).latch = s.latch := rfl
@[simp] theorem setPstate_bar2Log (s : State) (p : Nat) : (s.setPstate p).bar2Log = s.bar2Log := rfl
@[simp] theorem setPstate_rd (s : State) (p : Nat) : (s.setPstate p).rd = s.rd := rfl
@[simp] theorem setPstate_msix (s : State) (p : Nat) : (s.setPstate p).msix = s.msix := rfl
@[simp] theorem setPstate_pins (s : State) (p : Nat) : (s.setPstate p).pins = s.pins := rfl
@[simp] theorem setPstate_power (s : State) (p : Nat) : (s.setPstate p).power = s.power := rfl
@[simp] theorem setPstate_nvm (s : State) (p : Nat) : (s.setPstate p).nvm = s.nvm := rfl
@[simp] theorem setPstate_sec (s : State) (p : Nat) : (s.setPstate p).sec = s.sec := rfl
@[simp] theorem setPstate_mbox (s : State) (p : Nat) : (s.setPstate p).mbox = s.mbox := rfl
@[simp] theorem setPstate_host (s : State) (p : Nat) : (s.setPstate p).host = s.host := rfl
@[simp] theorem setPstate_larder (s : State) (p : Nat) : (s.setPstate p).larder = s.larder := rfl
@[simp] theorem setPstate_attic (s : State) (p : Nat) : (s.setPstate p).attic = s.attic := rfl
@[simp] theorem setPstate_shelf (s : State) (p : Nat) : (s.setPstate p).shelf = s.shelf := rfl
@[simp] theorem setPstate_store (s : State) (p : Nat) : (s.setPstate p).store = s.store := rfl
@[simp] theorem setPstate_epochs (s : State) (p : Nat) : (s.setPstate p).epochs = s.epochs := rfl
@[simp] theorem setPstate_epochBase (s : State) (p : Nat) : (s.setPstate p).epochBase = s.epochBase := rfl
@[simp] theorem setPstate_qps (s : State) (p : Nat) : (s.setPstate p).qps = s.qps := rfl
@[simp] theorem setPstate_prepared (s : State) (p : Nat) : (s.setPstate p).prepared = s.prepared := rfl
@[simp] theorem setPstate_jobs (s : State) (p : Nat) : (s.setPstate p).jobs = s.jobs := rfl
@[simp] theorem setPstate_dies (s : State) (p : Nat) : (s.setPstate p).dies = s.dies := rfl
@[simp] theorem setPstate_cores (s : State) (p : Nat) : (s.setPstate p).cores = s.cores := rfl
@[simp] theorem setPstate_links (s : State) (p : Nat) : (s.setPstate p).links = s.links := rfl
@[simp] theorem setPstate_attics (s : State) (p : Nat) : (s.setPstate p).attics = s.attics := rfl
@[simp] theorem setPstate_atticNext (s : State) (p : Nat) : (s.setPstate p).atticNext = s.atticNext := rfl
@[simp] theorem setPstate_bankTrans (s : State) (p : Nat) : (s.setPstate p).bankTrans = s.bankTrans := rfl
@[simp] theorem setPstate_cellar (s : State) (p : Nat) : (s.setPstate p).cellar = s.cellar := rfl

/-! ## `State.setQp` -/

@[simp] theorem setQp_pending (s : State) (j : Nat) (q : Qp) : (s.setQp j q).pending = s.pending := rfl
@[simp] theorem setQp_ts (s : State) (j : Nat) (q : Qp) : (s.setQp j q).ts = s.ts := rfl
@[simp] theorem setQp_fresh (s : State) (j : Nat) (q : Qp) : (s.setQp j q).fresh = s.fresh := rfl
@[simp] theorem setQp_regs (s : State) (j : Nat) (q : Qp) : (s.setQp j q).regs = s.regs := rfl
@[simp] theorem setQp_latch (s : State) (j : Nat) (q : Qp) : (s.setQp j q).latch = s.latch := rfl
@[simp] theorem setQp_bar2Log (s : State) (j : Nat) (q : Qp) : (s.setQp j q).bar2Log = s.bar2Log := rfl
@[simp] theorem setQp_rd (s : State) (j : Nat) (q : Qp) : (s.setQp j q).rd = s.rd := rfl
@[simp] theorem setQp_msix (s : State) (j : Nat) (q : Qp) : (s.setQp j q).msix = s.msix := rfl
@[simp] theorem setQp_pins (s : State) (j : Nat) (q : Qp) : (s.setQp j q).pins = s.pins := rfl
@[simp] theorem setQp_power (s : State) (j : Nat) (q : Qp) : (s.setQp j q).power = s.power := rfl
@[simp] theorem setQp_nvm (s : State) (j : Nat) (q : Qp) : (s.setQp j q).nvm = s.nvm := rfl
@[simp] theorem setQp_sec (s : State) (j : Nat) (q : Qp) : (s.setQp j q).sec = s.sec := rfl
@[simp] theorem setQp_mbox (s : State) (j : Nat) (q : Qp) : (s.setQp j q).mbox = s.mbox := rfl
@[simp] theorem setQp_host (s : State) (j : Nat) (q : Qp) : (s.setQp j q).host = s.host := rfl
@[simp] theorem setQp_larder (s : State) (j : Nat) (q : Qp) : (s.setQp j q).larder = s.larder := rfl
@[simp] theorem setQp_attic (s : State) (j : Nat) (q : Qp) : (s.setQp j q).attic = s.attic := rfl
@[simp] theorem setQp_shelf (s : State) (j : Nat) (q : Qp) : (s.setQp j q).shelf = s.shelf := rfl
@[simp] theorem setQp_store (s : State) (j : Nat) (q : Qp) : (s.setQp j q).store = s.store := rfl
@[simp] theorem setQp_epochs (s : State) (j : Nat) (q : Qp) : (s.setQp j q).epochs = s.epochs := rfl
@[simp] theorem setQp_epochBase (s : State) (j : Nat) (q : Qp) : (s.setQp j q).epochBase = s.epochBase := rfl
@[simp] theorem setQp_prepared (s : State) (j : Nat) (q : Qp) : (s.setQp j q).prepared = s.prepared := rfl
@[simp] theorem setQp_jobs (s : State) (j : Nat) (q : Qp) : (s.setQp j q).jobs = s.jobs := rfl
@[simp] theorem setQp_dies (s : State) (j : Nat) (q : Qp) : (s.setQp j q).dies = s.dies := rfl
@[simp] theorem setQp_cores (s : State) (j : Nat) (q : Qp) : (s.setQp j q).cores = s.cores := rfl
@[simp] theorem setQp_links (s : State) (j : Nat) (q : Qp) : (s.setQp j q).links = s.links := rfl
@[simp] theorem setQp_attics (s : State) (j : Nat) (q : Qp) : (s.setQp j q).attics = s.attics := rfl
@[simp] theorem setQp_atticNext (s : State) (j : Nat) (q : Qp) : (s.setQp j q).atticNext = s.atticNext := rfl
@[simp] theorem setQp_bankTrans (s : State) (j : Nat) (q : Qp) : (s.setQp j q).bankTrans = s.bankTrans := rfl
@[simp] theorem setQp_cellar (s : State) (j : Nat) (q : Qp) : (s.setQp j q).cellar = s.cellar := rfl

/-! ## `State.modQp` -/

@[simp] theorem modQp_pending (s : State) (j : Nat) (f : Qp → Qp) : (s.modQp j f).pending = s.pending := rfl
@[simp] theorem modQp_ts (s : State) (j : Nat) (f : Qp → Qp) : (s.modQp j f).ts = s.ts := rfl
@[simp] theorem modQp_fresh (s : State) (j : Nat) (f : Qp → Qp) : (s.modQp j f).fresh = s.fresh := rfl
@[simp] theorem modQp_regs (s : State) (j : Nat) (f : Qp → Qp) : (s.modQp j f).regs = s.regs := rfl
@[simp] theorem modQp_latch (s : State) (j : Nat) (f : Qp → Qp) : (s.modQp j f).latch = s.latch := rfl
@[simp] theorem modQp_bar2Log (s : State) (j : Nat) (f : Qp → Qp) : (s.modQp j f).bar2Log = s.bar2Log := rfl
@[simp] theorem modQp_rd (s : State) (j : Nat) (f : Qp → Qp) : (s.modQp j f).rd = s.rd := rfl
@[simp] theorem modQp_msix (s : State) (j : Nat) (f : Qp → Qp) : (s.modQp j f).msix = s.msix := rfl
@[simp] theorem modQp_pins (s : State) (j : Nat) (f : Qp → Qp) : (s.modQp j f).pins = s.pins := rfl
@[simp] theorem modQp_power (s : State) (j : Nat) (f : Qp → Qp) : (s.modQp j f).power = s.power := rfl
@[simp] theorem modQp_nvm (s : State) (j : Nat) (f : Qp → Qp) : (s.modQp j f).nvm = s.nvm := rfl
@[simp] theorem modQp_sec (s : State) (j : Nat) (f : Qp → Qp) : (s.modQp j f).sec = s.sec := rfl
@[simp] theorem modQp_mbox (s : State) (j : Nat) (f : Qp → Qp) : (s.modQp j f).mbox = s.mbox := rfl
@[simp] theorem modQp_host (s : State) (j : Nat) (f : Qp → Qp) : (s.modQp j f).host = s.host := rfl
@[simp] theorem modQp_larder (s : State) (j : Nat) (f : Qp → Qp) : (s.modQp j f).larder = s.larder := rfl
@[simp] theorem modQp_attic (s : State) (j : Nat) (f : Qp → Qp) : (s.modQp j f).attic = s.attic := rfl
@[simp] theorem modQp_shelf (s : State) (j : Nat) (f : Qp → Qp) : (s.modQp j f).shelf = s.shelf := rfl
@[simp] theorem modQp_store (s : State) (j : Nat) (f : Qp → Qp) : (s.modQp j f).store = s.store := rfl
@[simp] theorem modQp_epochs (s : State) (j : Nat) (f : Qp → Qp) : (s.modQp j f).epochs = s.epochs := rfl
@[simp] theorem modQp_epochBase (s : State) (j : Nat) (f : Qp → Qp) : (s.modQp j f).epochBase = s.epochBase := rfl
@[simp] theorem modQp_prepared (s : State) (j : Nat) (f : Qp → Qp) : (s.modQp j f).prepared = s.prepared := rfl
@[simp] theorem modQp_jobs (s : State) (j : Nat) (f : Qp → Qp) : (s.modQp j f).jobs = s.jobs := rfl
@[simp] theorem modQp_dies (s : State) (j : Nat) (f : Qp → Qp) : (s.modQp j f).dies = s.dies := rfl
@[simp] theorem modQp_cores (s : State) (j : Nat) (f : Qp → Qp) : (s.modQp j f).cores = s.cores := rfl
@[simp] theorem modQp_links (s : State) (j : Nat) (f : Qp → Qp) : (s.modQp j f).links = s.links := rfl
@[simp] theorem modQp_attics (s : State) (j : Nat) (f : Qp → Qp) : (s.modQp j f).attics = s.attics := rfl
@[simp] theorem modQp_atticNext (s : State) (j : Nat) (f : Qp → Qp) : (s.modQp j f).atticNext = s.atticNext := rfl
@[simp] theorem modQp_bankTrans (s : State) (j : Nat) (f : Qp → Qp) : (s.modQp j f).bankTrans = s.bankTrans := rfl
@[simp] theorem modQp_cellar (s : State) (j : Nat) (f : Qp → Qp) : (s.modQp j f).cellar = s.cellar := rfl

/-! ## `State.setJob` -/

@[simp] theorem setJob_pending (s : State) (j : Nat) (v : Job) : (s.setJob j v).pending = s.pending := rfl
@[simp] theorem setJob_ts (s : State) (j : Nat) (v : Job) : (s.setJob j v).ts = s.ts := rfl
@[simp] theorem setJob_fresh (s : State) (j : Nat) (v : Job) : (s.setJob j v).fresh = s.fresh := rfl
@[simp] theorem setJob_regs (s : State) (j : Nat) (v : Job) : (s.setJob j v).regs = s.regs := rfl
@[simp] theorem setJob_latch (s : State) (j : Nat) (v : Job) : (s.setJob j v).latch = s.latch := rfl
@[simp] theorem setJob_bar2Log (s : State) (j : Nat) (v : Job) : (s.setJob j v).bar2Log = s.bar2Log := rfl
@[simp] theorem setJob_rd (s : State) (j : Nat) (v : Job) : (s.setJob j v).rd = s.rd := rfl
@[simp] theorem setJob_msix (s : State) (j : Nat) (v : Job) : (s.setJob j v).msix = s.msix := rfl
@[simp] theorem setJob_pins (s : State) (j : Nat) (v : Job) : (s.setJob j v).pins = s.pins := rfl
@[simp] theorem setJob_power (s : State) (j : Nat) (v : Job) : (s.setJob j v).power = s.power := rfl
@[simp] theorem setJob_nvm (s : State) (j : Nat) (v : Job) : (s.setJob j v).nvm = s.nvm := rfl
@[simp] theorem setJob_sec (s : State) (j : Nat) (v : Job) : (s.setJob j v).sec = s.sec := rfl
@[simp] theorem setJob_mbox (s : State) (j : Nat) (v : Job) : (s.setJob j v).mbox = s.mbox := rfl
@[simp] theorem setJob_host (s : State) (j : Nat) (v : Job) : (s.setJob j v).host = s.host := rfl
@[simp] theorem setJob_larder (s : State) (j : Nat) (v : Job) : (s.setJob j v).larder = s.larder := rfl
@[simp] theorem setJob_attic (s : State) (j : Nat) (v : Job) : (s.setJob j v).attic = s.attic := rfl
@[simp] theorem setJob_shelf (s : State) (j : Nat) (v : Job) : (s.setJob j v).shelf = s.shelf := rfl
@[simp] theorem setJob_store (s : State) (j : Nat) (v : Job) : (s.setJob j v).store = s.store := rfl
@[simp] theorem setJob_epochs (s : State) (j : Nat) (v : Job) : (s.setJob j v).epochs = s.epochs := rfl
@[simp] theorem setJob_epochBase (s : State) (j : Nat) (v : Job) : (s.setJob j v).epochBase = s.epochBase := rfl
@[simp] theorem setJob_qps (s : State) (j : Nat) (v : Job) : (s.setJob j v).qps = s.qps := rfl
@[simp] theorem setJob_prepared (s : State) (j : Nat) (v : Job) : (s.setJob j v).prepared = s.prepared := rfl
@[simp] theorem setJob_dies (s : State) (j : Nat) (v : Job) : (s.setJob j v).dies = s.dies := rfl
@[simp] theorem setJob_cores (s : State) (j : Nat) (v : Job) : (s.setJob j v).cores = s.cores := rfl
@[simp] theorem setJob_links (s : State) (j : Nat) (v : Job) : (s.setJob j v).links = s.links := rfl
@[simp] theorem setJob_attics (s : State) (j : Nat) (v : Job) : (s.setJob j v).attics = s.attics := rfl
@[simp] theorem setJob_atticNext (s : State) (j : Nat) (v : Job) : (s.setJob j v).atticNext = s.atticNext := rfl
@[simp] theorem setJob_bankTrans (s : State) (j : Nat) (v : Job) : (s.setJob j v).bankTrans = s.bankTrans := rfl
@[simp] theorem setJob_cellar (s : State) (j : Nat) (v : Job) : (s.setJob j v).cellar = s.cellar := rfl

/-! ## `State.modJob` -/

@[simp] theorem modJob_pending (s : State) (j : Nat) (f : Job → Job) : (s.modJob j f).pending = s.pending := rfl
@[simp] theorem modJob_ts (s : State) (j : Nat) (f : Job → Job) : (s.modJob j f).ts = s.ts := rfl
@[simp] theorem modJob_fresh (s : State) (j : Nat) (f : Job → Job) : (s.modJob j f).fresh = s.fresh := rfl
@[simp] theorem modJob_regs (s : State) (j : Nat) (f : Job → Job) : (s.modJob j f).regs = s.regs := rfl
@[simp] theorem modJob_latch (s : State) (j : Nat) (f : Job → Job) : (s.modJob j f).latch = s.latch := rfl
@[simp] theorem modJob_bar2Log (s : State) (j : Nat) (f : Job → Job) : (s.modJob j f).bar2Log = s.bar2Log := rfl
@[simp] theorem modJob_rd (s : State) (j : Nat) (f : Job → Job) : (s.modJob j f).rd = s.rd := rfl
@[simp] theorem modJob_msix (s : State) (j : Nat) (f : Job → Job) : (s.modJob j f).msix = s.msix := rfl
@[simp] theorem modJob_pins (s : State) (j : Nat) (f : Job → Job) : (s.modJob j f).pins = s.pins := rfl
@[simp] theorem modJob_power (s : State) (j : Nat) (f : Job → Job) : (s.modJob j f).power = s.power := rfl
@[simp] theorem modJob_nvm (s : State) (j : Nat) (f : Job → Job) : (s.modJob j f).nvm = s.nvm := rfl
@[simp] theorem modJob_sec (s : State) (j : Nat) (f : Job → Job) : (s.modJob j f).sec = s.sec := rfl
@[simp] theorem modJob_mbox (s : State) (j : Nat) (f : Job → Job) : (s.modJob j f).mbox = s.mbox := rfl
@[simp] theorem modJob_host (s : State) (j : Nat) (f : Job → Job) : (s.modJob j f).host = s.host := rfl
@[simp] theorem modJob_larder (s : State) (j : Nat) (f : Job → Job) : (s.modJob j f).larder = s.larder := rfl
@[simp] theorem modJob_attic (s : State) (j : Nat) (f : Job → Job) : (s.modJob j f).attic = s.attic := rfl
@[simp] theorem modJob_shelf (s : State) (j : Nat) (f : Job → Job) : (s.modJob j f).shelf = s.shelf := rfl
@[simp] theorem modJob_store (s : State) (j : Nat) (f : Job → Job) : (s.modJob j f).store = s.store := rfl
@[simp] theorem modJob_epochs (s : State) (j : Nat) (f : Job → Job) : (s.modJob j f).epochs = s.epochs := rfl
@[simp] theorem modJob_epochBase (s : State) (j : Nat) (f : Job → Job) : (s.modJob j f).epochBase = s.epochBase := rfl
@[simp] theorem modJob_qps (s : State) (j : Nat) (f : Job → Job) : (s.modJob j f).qps = s.qps := rfl
@[simp] theorem modJob_prepared (s : State) (j : Nat) (f : Job → Job) : (s.modJob j f).prepared = s.prepared := rfl
@[simp] theorem modJob_dies (s : State) (j : Nat) (f : Job → Job) : (s.modJob j f).dies = s.dies := rfl
@[simp] theorem modJob_cores (s : State) (j : Nat) (f : Job → Job) : (s.modJob j f).cores = s.cores := rfl
@[simp] theorem modJob_links (s : State) (j : Nat) (f : Job → Job) : (s.modJob j f).links = s.links := rfl
@[simp] theorem modJob_attics (s : State) (j : Nat) (f : Job → Job) : (s.modJob j f).attics = s.attics := rfl
@[simp] theorem modJob_atticNext (s : State) (j : Nat) (f : Job → Job) : (s.modJob j f).atticNext = s.atticNext := rfl
@[simp] theorem modJob_bankTrans (s : State) (j : Nat) (f : Job → Job) : (s.modJob j f).bankTrans = s.bankTrans := rfl
@[simp] theorem modJob_cellar (s : State) (j : Nat) (f : Job → Job) : (s.modJob j f).cellar = s.cellar := rfl

/-! ## `State.setDie` -/

@[simp] theorem setDie_pending (s : State) (d : Nat) (v : DieSt) : (s.setDie d v).pending = s.pending := rfl
@[simp] theorem setDie_ts (s : State) (d : Nat) (v : DieSt) : (s.setDie d v).ts = s.ts := rfl
@[simp] theorem setDie_fresh (s : State) (d : Nat) (v : DieSt) : (s.setDie d v).fresh = s.fresh := rfl
@[simp] theorem setDie_regs (s : State) (d : Nat) (v : DieSt) : (s.setDie d v).regs = s.regs := rfl
@[simp] theorem setDie_latch (s : State) (d : Nat) (v : DieSt) : (s.setDie d v).latch = s.latch := rfl
@[simp] theorem setDie_bar2Log (s : State) (d : Nat) (v : DieSt) : (s.setDie d v).bar2Log = s.bar2Log := rfl
@[simp] theorem setDie_rd (s : State) (d : Nat) (v : DieSt) : (s.setDie d v).rd = s.rd := rfl
@[simp] theorem setDie_msix (s : State) (d : Nat) (v : DieSt) : (s.setDie d v).msix = s.msix := rfl
@[simp] theorem setDie_pins (s : State) (d : Nat) (v : DieSt) : (s.setDie d v).pins = s.pins := rfl
@[simp] theorem setDie_power (s : State) (d : Nat) (v : DieSt) : (s.setDie d v).power = s.power := rfl
@[simp] theorem setDie_nvm (s : State) (d : Nat) (v : DieSt) : (s.setDie d v).nvm = s.nvm := rfl
@[simp] theorem setDie_sec (s : State) (d : Nat) (v : DieSt) : (s.setDie d v).sec = s.sec := rfl
@[simp] theorem setDie_mbox (s : State) (d : Nat) (v : DieSt) : (s.setDie d v).mbox = s.mbox := rfl
@[simp] theorem setDie_host (s : State) (d : Nat) (v : DieSt) : (s.setDie d v).host = s.host := rfl
@[simp] theorem setDie_larder (s : State) (d : Nat) (v : DieSt) : (s.setDie d v).larder = s.larder := rfl
@[simp] theorem setDie_attic (s : State) (d : Nat) (v : DieSt) : (s.setDie d v).attic = s.attic := rfl
@[simp] theorem setDie_shelf (s : State) (d : Nat) (v : DieSt) : (s.setDie d v).shelf = s.shelf := rfl
@[simp] theorem setDie_store (s : State) (d : Nat) (v : DieSt) : (s.setDie d v).store = s.store := rfl
@[simp] theorem setDie_epochs (s : State) (d : Nat) (v : DieSt) : (s.setDie d v).epochs = s.epochs := rfl
@[simp] theorem setDie_epochBase (s : State) (d : Nat) (v : DieSt) : (s.setDie d v).epochBase = s.epochBase := rfl
@[simp] theorem setDie_qps (s : State) (d : Nat) (v : DieSt) : (s.setDie d v).qps = s.qps := rfl
@[simp] theorem setDie_prepared (s : State) (d : Nat) (v : DieSt) : (s.setDie d v).prepared = s.prepared := rfl
@[simp] theorem setDie_jobs (s : State) (d : Nat) (v : DieSt) : (s.setDie d v).jobs = s.jobs := rfl
@[simp] theorem setDie_cores (s : State) (d : Nat) (v : DieSt) : (s.setDie d v).cores = s.cores := rfl
@[simp] theorem setDie_links (s : State) (d : Nat) (v : DieSt) : (s.setDie d v).links = s.links := rfl
@[simp] theorem setDie_attics (s : State) (d : Nat) (v : DieSt) : (s.setDie d v).attics = s.attics := rfl
@[simp] theorem setDie_atticNext (s : State) (d : Nat) (v : DieSt) : (s.setDie d v).atticNext = s.atticNext := rfl
@[simp] theorem setDie_bankTrans (s : State) (d : Nat) (v : DieSt) : (s.setDie d v).bankTrans = s.bankTrans := rfl
@[simp] theorem setDie_cellar (s : State) (d : Nat) (v : DieSt) : (s.setDie d v).cellar = s.cellar := rfl

/-! ## `State.modDie` -/

@[simp] theorem modDie_pending (s : State) (d : Nat) (f : DieSt → DieSt) : (s.modDie d f).pending = s.pending := rfl
@[simp] theorem modDie_ts (s : State) (d : Nat) (f : DieSt → DieSt) : (s.modDie d f).ts = s.ts := rfl
@[simp] theorem modDie_fresh (s : State) (d : Nat) (f : DieSt → DieSt) : (s.modDie d f).fresh = s.fresh := rfl
@[simp] theorem modDie_regs (s : State) (d : Nat) (f : DieSt → DieSt) : (s.modDie d f).regs = s.regs := rfl
@[simp] theorem modDie_latch (s : State) (d : Nat) (f : DieSt → DieSt) : (s.modDie d f).latch = s.latch := rfl
@[simp] theorem modDie_bar2Log (s : State) (d : Nat) (f : DieSt → DieSt) : (s.modDie d f).bar2Log = s.bar2Log := rfl
@[simp] theorem modDie_rd (s : State) (d : Nat) (f : DieSt → DieSt) : (s.modDie d f).rd = s.rd := rfl
@[simp] theorem modDie_msix (s : State) (d : Nat) (f : DieSt → DieSt) : (s.modDie d f).msix = s.msix := rfl
@[simp] theorem modDie_pins (s : State) (d : Nat) (f : DieSt → DieSt) : (s.modDie d f).pins = s.pins := rfl
@[simp] theorem modDie_power (s : State) (d : Nat) (f : DieSt → DieSt) : (s.modDie d f).power = s.power := rfl
@[simp] theorem modDie_nvm (s : State) (d : Nat) (f : DieSt → DieSt) : (s.modDie d f).nvm = s.nvm := rfl
@[simp] theorem modDie_sec (s : State) (d : Nat) (f : DieSt → DieSt) : (s.modDie d f).sec = s.sec := rfl
@[simp] theorem modDie_mbox (s : State) (d : Nat) (f : DieSt → DieSt) : (s.modDie d f).mbox = s.mbox := rfl
@[simp] theorem modDie_host (s : State) (d : Nat) (f : DieSt → DieSt) : (s.modDie d f).host = s.host := rfl
@[simp] theorem modDie_larder (s : State) (d : Nat) (f : DieSt → DieSt) : (s.modDie d f).larder = s.larder := rfl
@[simp] theorem modDie_attic (s : State) (d : Nat) (f : DieSt → DieSt) : (s.modDie d f).attic = s.attic := rfl
@[simp] theorem modDie_shelf (s : State) (d : Nat) (f : DieSt → DieSt) : (s.modDie d f).shelf = s.shelf := rfl
@[simp] theorem modDie_store (s : State) (d : Nat) (f : DieSt → DieSt) : (s.modDie d f).store = s.store := rfl
@[simp] theorem modDie_epochs (s : State) (d : Nat) (f : DieSt → DieSt) : (s.modDie d f).epochs = s.epochs := rfl
@[simp] theorem modDie_epochBase (s : State) (d : Nat) (f : DieSt → DieSt) : (s.modDie d f).epochBase = s.epochBase := rfl
@[simp] theorem modDie_qps (s : State) (d : Nat) (f : DieSt → DieSt) : (s.modDie d f).qps = s.qps := rfl
@[simp] theorem modDie_prepared (s : State) (d : Nat) (f : DieSt → DieSt) : (s.modDie d f).prepared = s.prepared := rfl
@[simp] theorem modDie_jobs (s : State) (d : Nat) (f : DieSt → DieSt) : (s.modDie d f).jobs = s.jobs := rfl
@[simp] theorem modDie_cores (s : State) (d : Nat) (f : DieSt → DieSt) : (s.modDie d f).cores = s.cores := rfl
@[simp] theorem modDie_links (s : State) (d : Nat) (f : DieSt → DieSt) : (s.modDie d f).links = s.links := rfl
@[simp] theorem modDie_attics (s : State) (d : Nat) (f : DieSt → DieSt) : (s.modDie d f).attics = s.attics := rfl
@[simp] theorem modDie_atticNext (s : State) (d : Nat) (f : DieSt → DieSt) : (s.modDie d f).atticNext = s.atticNext := rfl
@[simp] theorem modDie_bankTrans (s : State) (d : Nat) (f : DieSt → DieSt) : (s.modDie d f).bankTrans = s.bankTrans := rfl
@[simp] theorem modDie_cellar (s : State) (d : Nat) (f : DieSt → DieSt) : (s.modDie d f).cellar = s.cellar := rfl

/-! ## `State.setCore` -/

@[simp] theorem setCore_pending (s : State) (d p : Nat) (v : Core) : (s.setCore d p v).pending = s.pending := rfl
@[simp] theorem setCore_ts (s : State) (d p : Nat) (v : Core) : (s.setCore d p v).ts = s.ts := rfl
@[simp] theorem setCore_fresh (s : State) (d p : Nat) (v : Core) : (s.setCore d p v).fresh = s.fresh := rfl
@[simp] theorem setCore_regs (s : State) (d p : Nat) (v : Core) : (s.setCore d p v).regs = s.regs := rfl
@[simp] theorem setCore_latch (s : State) (d p : Nat) (v : Core) : (s.setCore d p v).latch = s.latch := rfl
@[simp] theorem setCore_bar2Log (s : State) (d p : Nat) (v : Core) : (s.setCore d p v).bar2Log = s.bar2Log := rfl
@[simp] theorem setCore_rd (s : State) (d p : Nat) (v : Core) : (s.setCore d p v).rd = s.rd := rfl
@[simp] theorem setCore_msix (s : State) (d p : Nat) (v : Core) : (s.setCore d p v).msix = s.msix := rfl
@[simp] theorem setCore_pins (s : State) (d p : Nat) (v : Core) : (s.setCore d p v).pins = s.pins := rfl
@[simp] theorem setCore_power (s : State) (d p : Nat) (v : Core) : (s.setCore d p v).power = s.power := rfl
@[simp] theorem setCore_nvm (s : State) (d p : Nat) (v : Core) : (s.setCore d p v).nvm = s.nvm := rfl
@[simp] theorem setCore_sec (s : State) (d p : Nat) (v : Core) : (s.setCore d p v).sec = s.sec := rfl
@[simp] theorem setCore_mbox (s : State) (d p : Nat) (v : Core) : (s.setCore d p v).mbox = s.mbox := rfl
@[simp] theorem setCore_host (s : State) (d p : Nat) (v : Core) : (s.setCore d p v).host = s.host := rfl
@[simp] theorem setCore_larder (s : State) (d p : Nat) (v : Core) : (s.setCore d p v).larder = s.larder := rfl
@[simp] theorem setCore_attic (s : State) (d p : Nat) (v : Core) : (s.setCore d p v).attic = s.attic := rfl
@[simp] theorem setCore_shelf (s : State) (d p : Nat) (v : Core) : (s.setCore d p v).shelf = s.shelf := rfl
@[simp] theorem setCore_store (s : State) (d p : Nat) (v : Core) : (s.setCore d p v).store = s.store := rfl
@[simp] theorem setCore_epochs (s : State) (d p : Nat) (v : Core) : (s.setCore d p v).epochs = s.epochs := rfl
@[simp] theorem setCore_epochBase (s : State) (d p : Nat) (v : Core) : (s.setCore d p v).epochBase = s.epochBase := rfl
@[simp] theorem setCore_qps (s : State) (d p : Nat) (v : Core) : (s.setCore d p v).qps = s.qps := rfl
@[simp] theorem setCore_prepared (s : State) (d p : Nat) (v : Core) : (s.setCore d p v).prepared = s.prepared := rfl
@[simp] theorem setCore_jobs (s : State) (d p : Nat) (v : Core) : (s.setCore d p v).jobs = s.jobs := rfl
@[simp] theorem setCore_dies (s : State) (d p : Nat) (v : Core) : (s.setCore d p v).dies = s.dies := rfl
@[simp] theorem setCore_links (s : State) (d p : Nat) (v : Core) : (s.setCore d p v).links = s.links := rfl
@[simp] theorem setCore_attics (s : State) (d p : Nat) (v : Core) : (s.setCore d p v).attics = s.attics := rfl
@[simp] theorem setCore_atticNext (s : State) (d p : Nat) (v : Core) : (s.setCore d p v).atticNext = s.atticNext := rfl
@[simp] theorem setCore_bankTrans (s : State) (d p : Nat) (v : Core) : (s.setCore d p v).bankTrans = s.bankTrans := rfl
@[simp] theorem setCore_cellar (s : State) (d p : Nat) (v : Core) : (s.setCore d p v).cellar = s.cellar := rfl

/-! ## `State.modCore` -/

@[simp] theorem modCore_pending (s : State) (d p : Nat) (f : Core → Core) : (s.modCore d p f).pending = s.pending := rfl
@[simp] theorem modCore_ts (s : State) (d p : Nat) (f : Core → Core) : (s.modCore d p f).ts = s.ts := rfl
@[simp] theorem modCore_fresh (s : State) (d p : Nat) (f : Core → Core) : (s.modCore d p f).fresh = s.fresh := rfl
@[simp] theorem modCore_regs (s : State) (d p : Nat) (f : Core → Core) : (s.modCore d p f).regs = s.regs := rfl
@[simp] theorem modCore_latch (s : State) (d p : Nat) (f : Core → Core) : (s.modCore d p f).latch = s.latch := rfl
@[simp] theorem modCore_bar2Log (s : State) (d p : Nat) (f : Core → Core) : (s.modCore d p f).bar2Log = s.bar2Log := rfl
@[simp] theorem modCore_rd (s : State) (d p : Nat) (f : Core → Core) : (s.modCore d p f).rd = s.rd := rfl
@[simp] theorem modCore_msix (s : State) (d p : Nat) (f : Core → Core) : (s.modCore d p f).msix = s.msix := rfl
@[simp] theorem modCore_pins (s : State) (d p : Nat) (f : Core → Core) : (s.modCore d p f).pins = s.pins := rfl
@[simp] theorem modCore_power (s : State) (d p : Nat) (f : Core → Core) : (s.modCore d p f).power = s.power := rfl
@[simp] theorem modCore_nvm (s : State) (d p : Nat) (f : Core → Core) : (s.modCore d p f).nvm = s.nvm := rfl
@[simp] theorem modCore_sec (s : State) (d p : Nat) (f : Core → Core) : (s.modCore d p f).sec = s.sec := rfl
@[simp] theorem modCore_mbox (s : State) (d p : Nat) (f : Core → Core) : (s.modCore d p f).mbox = s.mbox := rfl
@[simp] theorem modCore_host (s : State) (d p : Nat) (f : Core → Core) : (s.modCore d p f).host = s.host := rfl
@[simp] theorem modCore_larder (s : State) (d p : Nat) (f : Core → Core) : (s.modCore d p f).larder = s.larder := rfl
@[simp] theorem modCore_attic (s : State) (d p : Nat) (f : Core → Core) : (s.modCore d p f).attic = s.attic := rfl
@[simp] theorem modCore_shelf (s : State) (d p : Nat) (f : Core → Core) : (s.modCore d p f).shelf = s.shelf := rfl
@[simp] theorem modCore_store (s : State) (d p : Nat) (f : Core → Core) : (s.modCore d p f).store = s.store := rfl
@[simp] theorem modCore_epochs (s : State) (d p : Nat) (f : Core → Core) : (s.modCore d p f).epochs = s.epochs := rfl
@[simp] theorem modCore_epochBase (s : State) (d p : Nat) (f : Core → Core) : (s.modCore d p f).epochBase = s.epochBase := rfl
@[simp] theorem modCore_qps (s : State) (d p : Nat) (f : Core → Core) : (s.modCore d p f).qps = s.qps := rfl
@[simp] theorem modCore_prepared (s : State) (d p : Nat) (f : Core → Core) : (s.modCore d p f).prepared = s.prepared := rfl
@[simp] theorem modCore_jobs (s : State) (d p : Nat) (f : Core → Core) : (s.modCore d p f).jobs = s.jobs := rfl
@[simp] theorem modCore_dies (s : State) (d p : Nat) (f : Core → Core) : (s.modCore d p f).dies = s.dies := rfl
@[simp] theorem modCore_links (s : State) (d p : Nat) (f : Core → Core) : (s.modCore d p f).links = s.links := rfl
@[simp] theorem modCore_attics (s : State) (d p : Nat) (f : Core → Core) : (s.modCore d p f).attics = s.attics := rfl
@[simp] theorem modCore_atticNext (s : State) (d p : Nat) (f : Core → Core) : (s.modCore d p f).atticNext = s.atticNext := rfl
@[simp] theorem modCore_bankTrans (s : State) (d p : Nat) (f : Core → Core) : (s.modCore d p f).bankTrans = s.bankTrans := rfl
@[simp] theorem modCore_cellar (s : State) (d p : Nat) (f : Core → Core) : (s.modCore d p f).cellar = s.cellar := rfl

/-! ## `State.drawn` -/

@[simp] theorem drawn_pending (s : State) : (s.drawn).pending = s.pending := rfl
@[simp] theorem drawn_ts (s : State) : (s.drawn).ts = s.ts := rfl
@[simp] theorem drawn_regs (s : State) : (s.drawn).regs = s.regs := rfl
@[simp] theorem drawn_latch (s : State) : (s.drawn).latch = s.latch := rfl
@[simp] theorem drawn_bar2Log (s : State) : (s.drawn).bar2Log = s.bar2Log := rfl
@[simp] theorem drawn_rd (s : State) : (s.drawn).rd = s.rd := rfl
@[simp] theorem drawn_msix (s : State) : (s.drawn).msix = s.msix := rfl
@[simp] theorem drawn_pins (s : State) : (s.drawn).pins = s.pins := rfl
@[simp] theorem drawn_power (s : State) : (s.drawn).power = s.power := rfl
@[simp] theorem drawn_nvm (s : State) : (s.drawn).nvm = s.nvm := rfl
@[simp] theorem drawn_sec (s : State) : (s.drawn).sec = s.sec := rfl
@[simp] theorem drawn_mbox (s : State) : (s.drawn).mbox = s.mbox := rfl
@[simp] theorem drawn_host (s : State) : (s.drawn).host = s.host := rfl
@[simp] theorem drawn_larder (s : State) : (s.drawn).larder = s.larder := rfl
@[simp] theorem drawn_attic (s : State) : (s.drawn).attic = s.attic := rfl
@[simp] theorem drawn_shelf (s : State) : (s.drawn).shelf = s.shelf := rfl
@[simp] theorem drawn_store (s : State) : (s.drawn).store = s.store := rfl
@[simp] theorem drawn_epochs (s : State) : (s.drawn).epochs = s.epochs := rfl
@[simp] theorem drawn_epochBase (s : State) : (s.drawn).epochBase = s.epochBase := rfl
@[simp] theorem drawn_qps (s : State) : (s.drawn).qps = s.qps := rfl
@[simp] theorem drawn_prepared (s : State) : (s.drawn).prepared = s.prepared := rfl
@[simp] theorem drawn_jobs (s : State) : (s.drawn).jobs = s.jobs := rfl
@[simp] theorem drawn_dies (s : State) : (s.drawn).dies = s.dies := rfl
@[simp] theorem drawn_cores (s : State) : (s.drawn).cores = s.cores := rfl
@[simp] theorem drawn_links (s : State) : (s.drawn).links = s.links := rfl
@[simp] theorem drawn_attics (s : State) : (s.drawn).attics = s.attics := rfl
@[simp] theorem drawn_atticNext (s : State) : (s.drawn).atticNext = s.atticNext := rfl
@[simp] theorem drawn_bankTrans (s : State) : (s.drawn).bankTrans = s.bankTrans := rfl
@[simp] theorem drawn_cellar (s : State) : (s.drawn).cellar = s.cellar := rfl

/-! ## `State.drawnN` -/

@[simp] theorem drawnN_pending (s : State) (n : Nat) : (s.drawnN n).pending = s.pending := rfl
@[simp] theorem drawnN_ts (s : State) (n : Nat) : (s.drawnN n).ts = s.ts := rfl
@[simp] theorem drawnN_regs (s : State) (n : Nat) : (s.drawnN n).regs = s.regs := rfl
@[simp] theorem drawnN_latch (s : State) (n : Nat) : (s.drawnN n).latch = s.latch := rfl
@[simp] theorem drawnN_bar2Log (s : State) (n : Nat) : (s.drawnN n).bar2Log = s.bar2Log := rfl
@[simp] theorem drawnN_rd (s : State) (n : Nat) : (s.drawnN n).rd = s.rd := rfl
@[simp] theorem drawnN_msix (s : State) (n : Nat) : (s.drawnN n).msix = s.msix := rfl
@[simp] theorem drawnN_pins (s : State) (n : Nat) : (s.drawnN n).pins = s.pins := rfl
@[simp] theorem drawnN_power (s : State) (n : Nat) : (s.drawnN n).power = s.power := rfl
@[simp] theorem drawnN_nvm (s : State) (n : Nat) : (s.drawnN n).nvm = s.nvm := rfl
@[simp] theorem drawnN_sec (s : State) (n : Nat) : (s.drawnN n).sec = s.sec := rfl
@[simp] theorem drawnN_mbox (s : State) (n : Nat) : (s.drawnN n).mbox = s.mbox := rfl
@[simp] theorem drawnN_host (s : State) (n : Nat) : (s.drawnN n).host = s.host := rfl
@[simp] theorem drawnN_larder (s : State) (n : Nat) : (s.drawnN n).larder = s.larder := rfl
@[simp] theorem drawnN_attic (s : State) (n : Nat) : (s.drawnN n).attic = s.attic := rfl
@[simp] theorem drawnN_shelf (s : State) (n : Nat) : (s.drawnN n).shelf = s.shelf := rfl
@[simp] theorem drawnN_store (s : State) (n : Nat) : (s.drawnN n).store = s.store := rfl
@[simp] theorem drawnN_epochs (s : State) (n : Nat) : (s.drawnN n).epochs = s.epochs := rfl
@[simp] theorem drawnN_epochBase (s : State) (n : Nat) : (s.drawnN n).epochBase = s.epochBase := rfl
@[simp] theorem drawnN_qps (s : State) (n : Nat) : (s.drawnN n).qps = s.qps := rfl
@[simp] theorem drawnN_prepared (s : State) (n : Nat) : (s.drawnN n).prepared = s.prepared := rfl
@[simp] theorem drawnN_jobs (s : State) (n : Nat) : (s.drawnN n).jobs = s.jobs := rfl
@[simp] theorem drawnN_dies (s : State) (n : Nat) : (s.drawnN n).dies = s.dies := rfl
@[simp] theorem drawnN_cores (s : State) (n : Nat) : (s.drawnN n).cores = s.cores := rfl
@[simp] theorem drawnN_links (s : State) (n : Nat) : (s.drawnN n).links = s.links := rfl
@[simp] theorem drawnN_attics (s : State) (n : Nat) : (s.drawnN n).attics = s.attics := rfl
@[simp] theorem drawnN_atticNext (s : State) (n : Nat) : (s.drawnN n).atticNext = s.atticNext := rfl
@[simp] theorem drawnN_bankTrans (s : State) (n : Nat) : (s.drawnN n).bankTrans = s.bankTrans := rfl
@[simp] theorem drawnN_cellar (s : State) (n : Nat) : (s.drawnN n).cellar = s.cellar := rfl

/-! ## `State.hostWrite` -/

@[simp] theorem hostWrite_pending (s : State) (a : Nat) (bs : List Byte) : (s.hostWrite a bs).pending = s.pending := rfl
@[simp] theorem hostWrite_ts (s : State) (a : Nat) (bs : List Byte) : (s.hostWrite a bs).ts = s.ts := rfl
@[simp] theorem hostWrite_fresh (s : State) (a : Nat) (bs : List Byte) : (s.hostWrite a bs).fresh = s.fresh := rfl
@[simp] theorem hostWrite_regs (s : State) (a : Nat) (bs : List Byte) : (s.hostWrite a bs).regs = s.regs := rfl
@[simp] theorem hostWrite_latch (s : State) (a : Nat) (bs : List Byte) : (s.hostWrite a bs).latch = s.latch := rfl
@[simp] theorem hostWrite_bar2Log (s : State) (a : Nat) (bs : List Byte) : (s.hostWrite a bs).bar2Log = s.bar2Log := rfl
@[simp] theorem hostWrite_rd (s : State) (a : Nat) (bs : List Byte) : (s.hostWrite a bs).rd = s.rd := rfl
@[simp] theorem hostWrite_msix (s : State) (a : Nat) (bs : List Byte) : (s.hostWrite a bs).msix = s.msix := rfl
@[simp] theorem hostWrite_pins (s : State) (a : Nat) (bs : List Byte) : (s.hostWrite a bs).pins = s.pins := rfl
@[simp] theorem hostWrite_power (s : State) (a : Nat) (bs : List Byte) : (s.hostWrite a bs).power = s.power := rfl
@[simp] theorem hostWrite_nvm (s : State) (a : Nat) (bs : List Byte) : (s.hostWrite a bs).nvm = s.nvm := rfl
@[simp] theorem hostWrite_sec (s : State) (a : Nat) (bs : List Byte) : (s.hostWrite a bs).sec = s.sec := rfl
@[simp] theorem hostWrite_mbox (s : State) (a : Nat) (bs : List Byte) : (s.hostWrite a bs).mbox = s.mbox := rfl
@[simp] theorem hostWrite_larder (s : State) (a : Nat) (bs : List Byte) : (s.hostWrite a bs).larder = s.larder := rfl
@[simp] theorem hostWrite_attic (s : State) (a : Nat) (bs : List Byte) : (s.hostWrite a bs).attic = s.attic := rfl
@[simp] theorem hostWrite_shelf (s : State) (a : Nat) (bs : List Byte) : (s.hostWrite a bs).shelf = s.shelf := rfl
@[simp] theorem hostWrite_store (s : State) (a : Nat) (bs : List Byte) : (s.hostWrite a bs).store = s.store := rfl
@[simp] theorem hostWrite_epochs (s : State) (a : Nat) (bs : List Byte) : (s.hostWrite a bs).epochs = s.epochs := rfl
@[simp] theorem hostWrite_epochBase (s : State) (a : Nat) (bs : List Byte) : (s.hostWrite a bs).epochBase = s.epochBase := rfl
@[simp] theorem hostWrite_qps (s : State) (a : Nat) (bs : List Byte) : (s.hostWrite a bs).qps = s.qps := rfl
@[simp] theorem hostWrite_prepared (s : State) (a : Nat) (bs : List Byte) : (s.hostWrite a bs).prepared = s.prepared := rfl
@[simp] theorem hostWrite_jobs (s : State) (a : Nat) (bs : List Byte) : (s.hostWrite a bs).jobs = s.jobs := rfl
@[simp] theorem hostWrite_dies (s : State) (a : Nat) (bs : List Byte) : (s.hostWrite a bs).dies = s.dies := rfl
@[simp] theorem hostWrite_cores (s : State) (a : Nat) (bs : List Byte) : (s.hostWrite a bs).cores = s.cores := rfl
@[simp] theorem hostWrite_links (s : State) (a : Nat) (bs : List Byte) : (s.hostWrite a bs).links = s.links := rfl
@[simp] theorem hostWrite_attics (s : State) (a : Nat) (bs : List Byte) : (s.hostWrite a bs).attics = s.attics := rfl
@[simp] theorem hostWrite_atticNext (s : State) (a : Nat) (bs : List Byte) : (s.hostWrite a bs).atticNext = s.atticNext := rfl
@[simp] theorem hostWrite_bankTrans (s : State) (a : Nat) (bs : List Byte) : (s.hostWrite a bs).bankTrans = s.bankTrans := rfl
@[simp] theorem hostWrite_cellar (s : State) (a : Nat) (bs : List Byte) : (s.hostWrite a bs).cellar = s.cellar := rfl

/-! ## `State.raise` -/

@[simp] theorem raise_pending (s : State) (v : Nat) : (s.raise v).pending = s.pending := rfl
@[simp] theorem raise_ts (s : State) (v : Nat) : (s.raise v).ts = s.ts := rfl
@[simp] theorem raise_fresh (s : State) (v : Nat) : (s.raise v).fresh = s.fresh := rfl
@[simp] theorem raise_regs (s : State) (v : Nat) : (s.raise v).regs = s.regs := rfl
@[simp] theorem raise_latch (s : State) (v : Nat) : (s.raise v).latch = s.latch := rfl
@[simp] theorem raise_bar2Log (s : State) (v : Nat) : (s.raise v).bar2Log = s.bar2Log := rfl
@[simp] theorem raise_rd (s : State) (v : Nat) : (s.raise v).rd = s.rd := rfl
@[simp] theorem raise_pins (s : State) (v : Nat) : (s.raise v).pins = s.pins := rfl
@[simp] theorem raise_power (s : State) (v : Nat) : (s.raise v).power = s.power := rfl
@[simp] theorem raise_nvm (s : State) (v : Nat) : (s.raise v).nvm = s.nvm := rfl
@[simp] theorem raise_sec (s : State) (v : Nat) : (s.raise v).sec = s.sec := rfl
@[simp] theorem raise_mbox (s : State) (v : Nat) : (s.raise v).mbox = s.mbox := rfl
@[simp] theorem raise_host (s : State) (v : Nat) : (s.raise v).host = s.host := rfl
@[simp] theorem raise_larder (s : State) (v : Nat) : (s.raise v).larder = s.larder := rfl
@[simp] theorem raise_attic (s : State) (v : Nat) : (s.raise v).attic = s.attic := rfl
@[simp] theorem raise_shelf (s : State) (v : Nat) : (s.raise v).shelf = s.shelf := rfl
@[simp] theorem raise_store (s : State) (v : Nat) : (s.raise v).store = s.store := rfl
@[simp] theorem raise_epochs (s : State) (v : Nat) : (s.raise v).epochs = s.epochs := rfl
@[simp] theorem raise_epochBase (s : State) (v : Nat) : (s.raise v).epochBase = s.epochBase := rfl
@[simp] theorem raise_qps (s : State) (v : Nat) : (s.raise v).qps = s.qps := rfl
@[simp] theorem raise_prepared (s : State) (v : Nat) : (s.raise v).prepared = s.prepared := rfl
@[simp] theorem raise_jobs (s : State) (v : Nat) : (s.raise v).jobs = s.jobs := rfl
@[simp] theorem raise_dies (s : State) (v : Nat) : (s.raise v).dies = s.dies := rfl
@[simp] theorem raise_cores (s : State) (v : Nat) : (s.raise v).cores = s.cores := rfl
@[simp] theorem raise_links (s : State) (v : Nat) : (s.raise v).links = s.links := rfl
@[simp] theorem raise_attics (s : State) (v : Nat) : (s.raise v).attics = s.attics := rfl
@[simp] theorem raise_atticNext (s : State) (v : Nat) : (s.raise v).atticNext = s.atticNext := rfl
@[simp] theorem raise_bankTrans (s : State) (v : Nat) : (s.raise v).bankTrans = s.bankTrans := rfl
@[simp] theorem raise_cellar (s : State) (v : Nat) : (s.raise v).cellar = s.cellar := rfl
/-! ## Registers and fields -/

@[simp] theorem reg_setReg_same (s : State) (a : Nat) (v : Word) : (s.setReg a v).reg a = v := by
  simp [State.reg, State.setReg]

theorem reg_setReg_other (s : State) {a b : Nat} (v : Word) (h : b ≠ a) : (s.setReg a v).reg b = s.reg b := by
  simp only [State.reg, State.setReg]
  rw [find_setD_other _ _ _ h]

theorem reg_setFld_other (s : State) (base : Nat) (f : Fld) (v i : Nat) {b : Nat} (h : b ≠ f.at base i) :
    (s.setFld base f v i).reg b = s.reg b := reg_setReg_other s _ h

/-- Bit k of a field's mask. -/
theorem getLsbD_bitMask (hi lo k : Nat) : (bitMask hi lo).getLsbD k = (decide (k < 64) && decide (lo ≤ k) && decide (k < hi + 1) ) := by
  simp only [bitMask, BitVec.getLsbD_ofNat, Nat.testBit_mul_two_pow]
  rcases Nat.lt_or_ge k lo with h | h
  · simp [Nat.not_le.mpr h]
  · simp only [h, decide_true, Nat.testBit_two_pow_sub_one, Bool.true_and, Bool.and_true]
    congr 1
    simp only [decide_eq_decide]; omega
/-- Bit k of a field. -/
theorem testBit_bitsOf (w : Word) (hi lo k : Nat) : (bitsOf w hi lo).testBit k = (decide (k < hi + 1 - lo) && w.getLsbD (lo + k)) := by
  simp only [bitsOf, Nat.testBit_mod_two_pow, Nat.testBit_div_two_pow, BitVec.getLsbD, Nat.add_comm k lo]
/-- A replaced field reads as the low bits of its new value. -/
theorem bitsOf_withBits_same (w : Word) {hi lo : Nat} (v : Nat) (h64 : hi < 64) :
    bitsOf (withBits w hi lo v) hi lo = v % 2 ^ (hi + 1 - lo) := by
  apply Nat.eq_of_testBit_eq
  intro k
  rw [testBit_bitsOf, Nat.testBit_mod_two_pow]
  by_cases h : k < hi + 1 - lo
  · have h1 : lo + k < 64 := by omega
    have h2 : lo + k < hi + 1 := by omega
    simp only [withBits, BitVec.getLsbD_or, BitVec.getLsbD_and, BitVec.getLsbD_not, getLsbD_bitMask, BitVec.getLsbD_ofNat,
      Nat.testBit_mul_two_pow]
    simp [h, h1, h2]
  · simp [h]
/-- A field apart from the replaced one is unchanged. -/
theorem bitsOf_withBits_apart (w : Word) {hi lo hi' lo' : Nat} (v : Nat) (h : hi < lo' ∨ hi' < lo) :
    bitsOf (withBits w hi lo v) hi' lo' = bitsOf w hi' lo' := by
  apply Nat.eq_of_testBit_eq
  intro k
  rw [testBit_bitsOf, testBit_bitsOf]
  by_cases hk : k < hi' + 1 - lo'
  · have h2 : ¬ (lo ≤ lo' + k ∧ lo' + k < hi + 1) := by omega
    by_cases h3 : lo' + k < 64
    · have : ((decide (lo ≤ lo' + k)) && decide (lo' + k < hi + 1)) = false := by
        simpa [← Bool.decide_and] using h2
      simp only [withBits, BitVec.getLsbD_or, BitVec.getLsbD_and, BitVec.getLsbD_not, getLsbD_bitMask, h3, decide_true,
        Bool.true_and, this]
      simp
    · simp [BitVec.getLsbD_of_ge _ _ (Nat.le_of_not_lt h3)]
  · simp [hk]

/-- A field reads as the low bits of what was written to it. -/
theorem fld_setFld_same (s : State) (base : Nat) (f : Fld) (v i : Nat) (h : f.hi < 64) :
    (s.setFld base f v i).fld base f i = v % 2 ^ (f.hi + 1 - f.lo) := by
  simp only [State.fld, State.setFld, reg_setReg_same]
  exact bitsOf_withBits_same _ v h

/-- A field of another register is unchanged. -/
theorem fld_setFld_reg (s : State) {base base' : Nat} {f g : Fld} {v i k : Nat} (h : g.at base' k ≠ f.at base i) :
    (s.setFld base f v i).fld base' g k = s.fld base' g k := by
  simp only [State.fld]
  rw [reg_setFld_other s base f v i h]

/-- A field of the same register at other bits is unchanged. -/
theorem fld_setFld_bits (s : State) {base base' : Nat} {f g : Fld} {v i k : Nat} (ha : g.at base' k = f.at base i)
    (h : f.hi < g.lo ∨ g.hi < f.lo) : (s.setFld base f v i).fld base' g k = s.fld base' g k := by
  simp only [State.fld, State.setFld, ha, reg_setReg_same]
  exact bitsOf_withBits_apart _ v h

/-- A register that a reset takes reads as its reset value. -/
theorem reg_resetRegs_in (s : State) (p : Nat → Bool) {a : Nat} (h : p a = true) : (s.resetRegs p).reg a = regReset a := by
  simp only [State.reg, State.resetRegs]
  rw [find_filter_key s.regs (fun k => !p k) a]
  simp [h]

/-- A register that a reset leaves is unchanged. -/
theorem reg_resetRegs_out (s : State) (p : Nat → Bool) {a : Nat} (h : p a = false) : (s.resetRegs p).reg a = s.reg a := by
  simp only [State.reg, State.resetRegs]
  rw [find_filter_key s.regs (fun k => !p k) a]
  simp [h]

/-! ## Queue pairs, jobs, dies, cores -/

@[simp] theorem qp_setQp_same (s : State) (j : Nat) (q : Qp) : (s.setQp j q).qp j = q := getD_setD_same _ _ _ _

theorem qp_setQp_other (s : State) {j k : Nat} (q : Qp) (h : k ≠ j) : (s.setQp j q).qp k = s.qp k := by
  simp only [State.qp, State.setQp, Tab.getD]
  rw [find_setD_other _ _ _ h]

@[simp] theorem job_setJob_same (s : State) (j : Nat) (x : Job) : (s.setJob j x).job j = x := getD_setD_same _ _ _ _

theorem job_setJob_other (s : State) {j k : Nat} (x : Job) (h : k ≠ j) : (s.setJob j x).job k = s.job k := by
  simp only [State.job, State.setJob, Tab.getD]
  rw [find_setD_other _ _ _ h]

@[simp] theorem die_setDie_same (s : State) (d : Nat) (x : DieSt) : (s.setDie d x).die d = x := getD_setD_same _ _ _ _

theorem die_setDie_other (s : State) {d e : Nat} (x : DieSt) (h : e ≠ d) : (s.setDie d x).die e = s.die e := by
  simp only [State.die, State.setDie, Tab.getD]
  rw [find_setD_other _ _ _ h]

@[simp] theorem core_setCore_same (s : State) (d p : Nat) (x : Core) : (s.setCore d p x).core d p = x := getD_setD_same _ _ _ _

theorem core_setCore_other (s : State) {d p e q : Nat} (x : Core) (h : e * 100 + q ≠ d * 100 + p) :
    (s.setCore d p x).core e q = s.core e q := by
  simp only [State.core, State.setCore, Tab.getD]
  rw [find_setD_other _ _ _ h]

end Sys2Proof.Laws
end

