-- ==== Sys2Proof/WellFormed.lean ====
section
/-!
DEFINITION. Well-formed commands: operands in the ranges their rules give them, beyond what their types say. The meanings
are total; an ill-formed command is one that no sender can send.
-/
namespace Sys2Proof

/-- A port report names a speed, a width and a version that Table 7-8 lists. -/
def PortReport.inRange (p : PortReport) : Bool := decide (p.speed < 2) && decide (p.width < 3) && decide (p.version < 256)

/-- A bank of the module, its 16 spare rows, and rows of the bank, none twice (R254, R277). -/
def MarchReport.ok (r : MarchReport) : Bool :=
  decide (r.bank < 3264) && decide (r.spares < 2 ^ 16) && r.rows.all (fun w => decide (w < 4096)) && r.rows.eraseDups == r.rows

/-- A burst is retried at most 16 times (R280). -/
def BurstErr.ok : BurstErr → Bool
  | .corrected la | .uncorrectable la | .exhausted la => decide (la < 2 ^ 37)
  | .retried la times => decide (la < 2 ^ 37) && decide (times ≤ 16)

/-- An offset in a bank, and three copies of a poison bit (R254, R257). -/
def EccEvent.ok : EccEvent → Bool
  | .corrected off | .uncorrectable off | .writeBack off => decide (off < 4194304)
  | .copies off mask => decide (off < 4194304) && decide (mask < 8)

/-- Bit masks of a stage report fit what they describe (Table 13-1). -/
def StageReport.ok (r : StageReport) : Bool :=
  decide (r.badMicrocode < 16) && r.marches.all MarchReport.ok && decide (r.badDevices < 2 ^ 32)
    && decide (r.badCouch < 16) && decide (r.badHub < 16) && r.x0.inRange && r.x1.inRange

/-- A sensor of a core, or a fabric or hub sensor (R498). -/
def Reading.ok (r : Reading) : Bool :=
  decide (r.die ≤ 4) && (decide (r.core < 100) || r.core == 127) && decide (r.degC < 256)

/-- A place of an array: rows and columns of a block (R57, R62). -/
def Parity.ok : Parity → Bool
  | .act a q r k => decide (a < 4) && decide (q < 4) && decide (r < 64) && decide (k < 2 ^ 32)
  | .wgt q k n => decide (q < 4) && decide (k < 2 ^ 32) && decide (n < 128)

/-- A fault in a lane or a residue of an array. -/
def Upset.ok (u : Upset) : Bool :=
  decide (u.arr < 4) && decide (u.quad < 4) && decide (u.row < 64) && decide (1 ≤ u.pass) && decide (u.pass < 4)
    && decide (u.lane < 128)

/-- One voltage for each of the 29 frequencies (R504). -/
def IslandPrediction.ok (p : IslandPrediction) : Bool :=
  decide (p.die < 4) && decide (p.phys < 100) && p.volts.length == 29

/-- An access on the host bus: 1 to 4,096 bytes, whatever their alignment (R39). -/
def busOk (addr size : Nat) : Bool := decide (0 < size) && decide (size ≤ 4096) && decide (addr < 2 ^ 64)

/-- A JTAG register access of 4 or 8 bytes, naturally aligned (R36). -/
def accessOk (addr size : Nat) : Bool := (size == 4 || size == 8) && addr % size == 0 && decide (addr < 2 ^ 32)

/-- Is a command well-formed? -/
def Instr.wellFormed (i : Instr) : Bool :=
  match i with
  | .powerInputEntry dv => decide (dv < 4096)
  | .chargeComplete => true
  | .powerLoss dv _ => decide (dv < 4096)
  | .pwrgdAssert _ => true
  | .pwrgdDeassert _ => true
  | .perstAssert _ => true
  | .perstDeassert _ => true
  | .startupStage rep => rep.ok
  | .larderZeroingDone => true
  | .cellarRecovery => true
  | .flr => true
  | .flrComplete => true
  | .thermalRead rs coolIn coolOut => rs.all Reading.ok && decide (coolIn < 256) && decide (coolOut < 256)
  | .throttleReleaseStep _ _ => true
  | .thermalTrip r => r.ok
  | .registerWrite addr size data => busOk addr size && decide (data < 2 ^ (8 * size))
  | .bar0HalfRead addr size => busOk addr size
  | .bar2Read off len errs => decide (0 < len) && decide (off + len ≤ 2 ^ 37) && errs.all BurstErr.ok
  | .bar2Write off data _ errs => !data.isEmpty && decide (off + data.length ≤ 2 ^ 37) && errs.all BurstErr.ok
  | .qpEnable _ cfg => decide (cfg < 2 ^ 32)
  | .qpDisable _ cfg => decide (cfg < 2 ^ 32)
  | .sqTailDoorbell _ v => decide (v < 2 ^ 32)
  | .cqHeadDoorbell _ v => decide (v < 2 ^ 32)
  | .evtHeadDoorbell _ v => decide (v < 2 ^ 32)
  | .completionPost _ => true
  | .hostBusError _ _ => true
  | .keagerJobReset _ => true
  | .jobResetDone _ => true
  | .deadlineExpiry _ seq => decide (seq < 2 ^ 32)
  | .nop _ => true
  | .identify _ => true
  | .setWindows _ => true
  | .setPowerCap _ => true
  | .setPowerState _ => true
  | .policyLoad _ => true
  | .dieReadmit _ => true
  | .dieReset _ => true
  | .copy _ errs => errs.all BurstErr.ok
  | .fill _ => true
  | .planBind _ => true
  | .planUnbind _ => true
  | .run _ => true
  | .snapTake _ => true
  | .snapFreeze _ => true
  | .snapSeal _ => true
  | .snapRestore _ => true
  | .snapList _ => true
  | .snapDelete _ => true
  | .errmemClear _ => true
  | .watermarkNow _ => true
  | .attest _ => true
  | .debugEnter _ => true
  | .debugExit _ => true
  | .enterReturn _ _ => true
  | .getCert _ => true
  | .marchPreserving _ => true
  | .marchDone _ rep => rep.ok
  | .readDigests _ => true
  | .readAgeing _ => true
  | .prepareTimeout _ _ => true
  | .sync _ _ _ => true
  | .mma _ _ _ => true
  | .weightBufferSwap _ _ _ errs => errs.all Parity.ok
  | .segmentDrain _ _ _ ups => ups.all Upset.ok
  | .residueVote _ _ _ ups => ups.all Upset.ok
  | .specialsPass _ _ _ errs => errs.all Parity.ok
  | .outputDrain _ _ _ => true
  | .recomputeSlot _ _ _ => true
  | .tbl _ _ _ => true
  | .convert _ _ _ => true
  | .add _ _ _ => true
  | .mul _ _ _ => true
  | .fma _ _ _ => true
  | .axpy _ _ _ => true
  | .measureEntry _ _ _ => true
  | .gelu _ _ _ => true
  | .silu _ _ _ => true
  | .exp _ _ _ => true
  | .geluBwd _ _ _ => true
  | .siluBwd _ _ _ => true
  | .sum _ _ _ => true
  | .max _ _ _ => true
  | .min _ _ _ => true
  | .argmax _ _ _ => true
  | .argmin _ _ _ => true
  | .sumsq _ _ _ => true
  | .layernorm _ _ _ => true
  | .rmsnorm _ _ _ => true
  | .normBwd _ _ _ => true
  | .normPgrad _ _ _ => true
  | .softmax _ _ _ => true
  | .softmaxBwd _ _ _ => true
  | .lse _ _ _ => true
  | .adam _ _ _ => true
  | .sgd _ _ _ => true
  | .stashPack _ _ _ => true
  | .stashUnpack _ _ _ => true
  | .dropout _ _ _ => true
  | .dropoutBwd _ _ _ => true
  | .bs16Pack _ _ _ => true
  | .bs16Unpack _ _ _ => true
  | .scatterAdd _ _ _ => true
  | .count _ _ _ => true
  | .scatterSwap _ _ _ => true
  | .measureFold _ _ _ => true
  | .red _ _ => true
  | .ringChunkReceive _ _ _ => true
  | .ringCreditGrant _ _ => true
  | .redComplete _ _ => true
  | .ringTimeout _ _ bucket => decide (bucket < 16)
  | .peerCheck _ _ _ _ => true
  | .xfer _ _ errs => errs.all BurstErr.ok
  | .xferComplete _ _ _ errs => errs.all BurstErr.ok
  | .pwr _ _ => true
  | .yield _ _ _ => true
  | .yieldPoint _ => true
  | .stepBoundary _ => true
  | .phaseBarrier _ => true
  | .jobSpill _ errs => errs.all BurstErr.ok
  | .jobResume _ errs => errs.all BurstErr.ok
  | .watermark _ => true
  | .rollback _ => true
  | .stewardRun _ => true
  | .heartbeatTimeout _ _ _ => true
  | .coreRetire _ _ cause => decide (cause < 16)
  | .coreFill _ _ => true
  | .fillMapSwitch _ => true
  | .fillReadTimeout _ _ => true
  | .dieSelfTest _ => true
  | .dieSelfTestDone _ _ => true
  | .linkFlitReceive _ _ => true
  | .linkHandshakeTimeout _ _ => true
  | .linkRetrain _ _ => true
  | .eccWriteback _ e => e.ok
  | .bankOwnWrite _ v => decide (v < 2 ^ 32)
  | .handoverWrite _ _ => true
  | .bankPwrReqWrite _ v => decide (v < 2 ^ 32)
  | .bankPowerTransition _ => true
  | .bankDbgRead _ => true
  | .bankDbgWrite _ v => decide (v < 2 ^ 64)
  | .arrInject _ _ _ v => decide (v < 2 ^ 32)
  | .patrolScrub g _ => decide (g < 2 ^ 31)
  | .atticResponse _ _ => true
  | .atticTimeout _ => true
  | .atticLinkDown _ => true
  | .rampComplete => true
  | .ballastAdjust work => work.length == 4
  | .lingerExpiry _ => true
  | .idleToP1 => true
  | .powerWake => true
  | .ageingSample _ _ _ => true
  | .slackMeasure _ _ _ => true
  | .ageingReplan pred => pred.all IslandPrediction.ok
  | .sramVminMeasure _ _ _ => true
  | .eyeCheck q _ _ _ _ => decide (q < 640)
  | .newNonce => true
  | .halt w => decide (w < 2 ^ 32)
  | .resume w => decide (w < 2 ^ 32)
  | .jtagIdcode => true
  | .jtagBypass _ => true
  | .jtagRegRead addr size => accessOk addr size
  | .jtagRegWrite addr size data => accessOk addr size && decide (data < 2 ^ (8 * size))
  | .jtagScan _ _ => true
  | .jtagHalt _ _ => true
  | .jtagSamplePreload _ => true
  | .jtagExtest _ => true
  | .mboxGo => true
  | .getState _ => true
  | .claim _ _ => true
  | .mboxAttest _ => true
  | .mboxGetCert _ => true
  | .mboxNewNonce _ => true
  | .mboxDebugEnter _ => true
  | .mboxDebugExit _ => true
  | .fwWrite _ => true
  | .fwVerify _ => true
  | .fwActivate _ => true
  | .setEndpointId _ eid => decide (eid < 256)
  | .getEndpointId _ => true
  | .getMctpVersionSupport _ ty => decide (ty < 256)
  | .getMessageTypeSupport _ => true
  | .smbusAlertResponse => true
  | .atticPortRetrain _ _ _ => true
  | .prepareReply _ _ _ => true
  | .copyComplete _ seq errs => decide (seq < 2 ^ 32) && errs.all BurstErr.ok

end Sys2Proof
end

