-- ==== Sys2Proof/Tests/Slice0.lean ====
section
/-!
SUPPORT. The model's own tests: an ill-formed command for each check of WellFormed; for each clause of an obligation that has
hypotheses a concrete state and operands that meet them together, with what the command then does; worked values from the
spec. Every test is one step or one evaluation.
-/
set_option Elab.async false
set_option autoImplicit false

namespace Sys2Proof.Tests

open Sys2Proof Sys2Proof.Machine

/-- Does a step answer a next state with a property? -/
def after (o : Host.Outcome State Fault Refusal) (p : State → Bool) : Bool :=
  match o with
  | .next t => p t
  | _ => false

/-- The 54 V input is in range and the auxiliary domain powered. -/
def aux : State := { State.reset with power := { inRange := true, aux := true, charged := true, inputDv := 540 } }

/-- A module that is READY in P0 with four dies in service. -/
def on : State :=
  { ((aux.setFld 0 HUB_STATUS_READY 1).setFld 0 HUB_STATUS_PSTATE 0).setFld 0 HUB_STATUS_DIES 15 with
    power := { aux.power with main := true, cold := false }, pins := { pwrgd := true, perst := false } }

/-- `on` with slot J0's pair enabled. -/
def pair : State := { on.setFld 0 KGR_QSTAT_ENABLED 1 with qps := [(0, { cqBase := 4096 })] }

/-! ## Ill-formed commands -/

theorem test_wf_input : (Instr.powerInputEntry 4096).wellFormed = false ∧ (Instr.powerInputEntry 580).wellFormed = true := by
  decide +kernel
theorem test_wf_loss : (Instr.powerLoss 4096 20).wellFormed = false := by decide +kernel
theorem test_wf_stage : let r := fun (d : Nat) (ms : List MarchReport) (v : Nat) =>
      Instr.startupStage ⟨d, ms, 0, 0, 0, false, ⟨true, v, 0, 0, 0⟩, ⟨true, 0, 2, 0, 0⟩⟩
    (r 16 [] 0).wellFormed = false ∧ (r 0 [⟨3264, 0, []⟩] 0).wellFormed = false ∧ (r 0 [⟨0, 0, [4096]⟩] 0).wellFormed = false ∧
    (r 0 [⟨0, 0, [7, 7]⟩] 0).wellFormed = false ∧ (r 0 [] 2).wellFormed = false ∧ (r 15 [⟨3263, 65535, [7, 4095]⟩] 1).wellFormed = true := by
  decide +kernel
theorem test_wf_thermal : (Instr.thermalRead [⟨0, 100, 40⟩] 30 30).wellFormed = false ∧
    (Instr.thermalRead [] 256 30).wellFormed = false ∧ (Instr.thermalTrip ⟨5, 127, 115⟩).wellFormed = false := by decide +kernel
theorem test_wf_access : (Instr.registerWrite 2 0 0).wellFormed = false ∧ (Instr.registerWrite 4 4097 0).wellFormed = false ∧
    (Instr.registerWrite 3 2 0).wellFormed = true ∧ (Instr.registerWrite 0 4 (2 ^ 32)).wellFormed = false ∧
    (Instr.bar0HalfRead 2 0).wellFormed = false := by decide +kernel
theorem test_wf_bar2 : (Instr.bar2Read 0 0 []).wellFormed = false ∧ (Instr.bar2Read (2 ^ 37) 1 []).wellFormed = false ∧
    (Instr.bar2Write 0 [] false []).wellFormed = false ∧ (Instr.bar2Read 0 1 [.retried 0 17]).wellFormed = false ∧
    (Instr.bar2Write 0 [1] false [.exhausted (2 ^ 37)]).wellFormed = false ∧ (Instr.copy 0 [.corrected (2 ^ 37)]).wellFormed = false ∧
    (Instr.xfer 0 0 [.uncorrectable (2 ^ 37)]).wellFormed = false ∧ (Instr.xferComplete 0 0 0 [.retried 0 17]).wellFormed = false ∧
    (Instr.jobSpill 0 [.retried 0 17]).wellFormed = false ∧ (Instr.jobResume 0 [.retried 0 17]).wellFormed = false := by
  decide +kernel
theorem test_wf_pair : (Instr.qpEnable 0 (2 ^ 32)).wellFormed = false ∧ (Instr.qpDisable 0 (2 ^ 32)).wellFormed = false ∧
    (Instr.sqTailDoorbell 0 (2 ^ 32)).wellFormed = false ∧ (Instr.cqHeadDoorbell 0 (2 ^ 32)).wellFormed = false ∧
    (Instr.evtHeadDoorbell 0 (2 ^ 32)).wellFormed = false := by decide +kernel
theorem test_wf_seq : (Instr.deadlineExpiry 0 (2 ^ 32)).wellFormed = false ∧ (Instr.copyComplete 0 (2 ^ 32) []).wellFormed = false ∧
    (Instr.copyComplete 0 0 [.retried 0 17]).wellFormed = false := by
  decide +kernel
theorem test_wf_march : (Instr.marchDone 0 ⟨3264, 0, []⟩).wellFormed = false ∧ (Instr.marchDone 0 ⟨0, 65536, []⟩).wellFormed = false := by
  decide +kernel
theorem test_wf_array : (Instr.segmentDrain 0 0 0 [⟨4, 0, 0, 1, 0, false, 1⟩]).wellFormed = false ∧
    (Instr.segmentDrain 0 0 0 [⟨0, 0, 0, 0, 0, false, 1⟩]).wellFormed = false ∧
    (Instr.residueVote 0 0 0 [⟨0, 0, 64, 1, 0, true, 1⟩]).wellFormed = false ∧
    (Instr.weightBufferSwap 0 0 0 [.act 4 0 0 0]).wellFormed = false ∧
    (Instr.specialsPass 0 0 0 [.wgt 0 0 128]).wellFormed = false := by decide +kernel
theorem test_wf_ring : (Instr.ringTimeout 0 0 16).wellFormed = false := by decide +kernel
theorem test_wf_retire : (Instr.coreRetire 0 0 16).wellFormed = false := by decide +kernel
theorem test_wf_bank : (Instr.eccWriteback 0 (.corrected 4194304)).wellFormed = false ∧
    (Instr.eccWriteback 0 (.copies 0 8)).wellFormed = false ∧ (Instr.bankOwnWrite 0 (2 ^ 32)).wellFormed = false ∧
    (Instr.bankPwrReqWrite 0 (2 ^ 32)).wellFormed = false ∧ (Instr.bankDbgWrite 0 (2 ^ 64)).wellFormed = false ∧
    (Instr.arrInject 0 0 0 (2 ^ 32)).wellFormed = false ∧ (Instr.patrolScrub (2 ^ 31) .clean).wellFormed = false := by
  decide +kernel
theorem test_wf_governor : (Instr.ballastAdjust [0, 0, 0]).wellFormed = false ∧
    (Instr.ageingReplan [⟨0, 0, [700]⟩]).wellFormed = false ∧ (Instr.eyeCheck 640 1 1 1 true).wellFormed = false := by
  decide +kernel
theorem test_wf_debug : (Instr.halt (2 ^ 32)).wellFormed = false ∧ (Instr.resume (2 ^ 32)).wellFormed = false ∧
    (Instr.jtagRegRead 1 4).wellFormed = false ∧ (Instr.jtagRegWrite 0 4 (2 ^ 32)).wellFormed = false := by decide +kernel
theorem test_wf_mctp : (Instr.setEndpointId .smbus 256).wellFormed = false ∧
    (Instr.getMctpVersionSupport .smbus 256).wellFormed = false := by decide +kernel

/-! ## The block as a whole -/

theorem test_idle_counts : aux.pending = [] ∧ after (step aux) (fun t => decide (t.ts = 1 ∧ t.pending = [])) = true ∧
    after (step State.reset) (fun t => decide (t.ts = 0)) = true := by decide +kernel
theorem test_step_takes_front : after (step { aux with pending := [.jtagIdcode, .chargeComplete] })
    (fun t => decide (t.pending = [.chargeComplete])) = true := by decide +kernel
theorem test_step_canonical : canonical on = true ∧
    after (step { on with pending := [.bar2Write 64 [1, 2, 3] true []] }) (fun t => canonical t) = true := by decide +kernel
theorem test_stop_outside : after (exec (.registerWrite 0x3FFFFFC 4 0) on) (fun _ => true) = true ∧
    (match exec (.registerWrite 0x4000000 4 0) on with
     | .fault .outsideBar => true
     | _ => false) = true ∧
    (match exec (.bar0HalfRead 0x3FFFFFF 2) on with
     | .fault .outsideBar => true
     | _ => false) = true ∧
    (match exec (.bar2Read (2 ^ 37 - 1) 2 []) on with
     | .fault .outsideBar => true
     | _ => false) = true ∧
    (match exec (.bar2Write (2 ^ 37) [1] false []) on with
     | .fault .outsideBar => true
     | _ => false) = true := by decide +kernel
/-- The reset power cap is 850 W (Table 13-7). -/
theorem test_reset_cap : State.reset.fld 0 PWR_CAP_CAP_W = 850 := by decide +kernel
theorem test_memory : let m : Mem := ({} : Mem).write 62 [7, 8, 9]
    m.wf = true ∧ m.read 61 5 = [0, 7, 8, 9, 0] ∧ (m.poisonZero 64 64).poisoned 64 = true ∧
    ((m.poisonZero 64 64).scrub 64 1).poisoned 64 = false := by decide +kernel

/-! ## Power entry, pins and start-up -/

theorem test_input_entry : State.reset.power.inRange = false ∧ State.reset.pins.pwrgd = false ∧
    after (exec (.powerInputEntry 460) State.reset) (fun t => decide (t.power.aux = true ∧ t.power.inputDv = 460 ∧
      t.power.charged = false)) = true ∧
    after (exec (.powerInputEntry 581) State.reset) (fun t => decide (t.power.aux = false)) = true ∧
    after (exec (.powerInputEntry 459) State.reset) (fun t => decide (t.power.aux = false ∧ t.power.inputDv = 459)) = true ∧
    after (exec (.powerInputEntry 500) aux) (fun t => decide (t = aux)) = true := by decide +kernel
/-- The input may rise with PWRGD and PERST# released and a trip in NVM: start-up then begins at once. -/
theorem test_input_starts : let s := { State.reset with pins := { pwrgd := true, perst := false }, nvm := { State.reset.nvm with trip := true } }
    s.power.inRange = false ∧ s.shutting = false ∧ s.reg 0x10 = 0 ∧ s.pins.pwrgd = true ∧ s.pins.perst = false := by decide +kernel
theorem test_charge : aux.power.aux = true ∧
    after (exec .chargeComplete { aux with power := { aux.power with charged := false } }) (fun t => t.power.charged) = true := by
  decide +kernel
theorem test_power_loss : on.power.inRange = true ∧
    after (exec (.powerLoss 439 20) { on with ts := 9 }) (fun t => decide (t.power.aux = false ∧ t.nvm.powerLoss = true ∧
      t.reg 0 = regReset 0)) = true ∧
    after (exec (.powerLoss 439 19) on) (fun t => decide (t = on)) = true ∧
    after (exec (.powerLoss 440 20) on) (fun t => decide (t = on)) = true ∧
    after (exec (.powerLoss 0 99) State.reset) (fun t => decide (t = State.reset)) = true := by decide +kernel
theorem test_trip : on.power.aux = true ∧ on.power.tripped = false ∧
    after (exec (.thermalTrip ⟨0, 0, 115⟩) on) (fun t => decide (t.pins.thermtrip = true ∧ t.power.main = false ∧
      t.nvm.trip = true)) = true ∧
    after (exec (.thermalTrip ⟨0, 0, 114⟩) on) (fun t => decide (t = on)) = true := by decide +kernel
/-- PWRGD rises or PERST# is released, the other condition of start-up met. -/
theorem test_pin_starts : let s := { aux with pins := { perst := false } }
    let p := { aux with pins := { pwrgd := true } }
    s.pins.pwrgd = false ∧ s.shutting = false ∧ s.power.tripped = false ∧ s.reg 0x10 = 0 ∧ p.pins.perst = true ∧
    p.shutting = false ∧ p.power.tripped = false ∧ p.reg 0x10 = 0 := by decide +kernel
/-- Levels just below 1 µs are ignored and counted; one of 1 µs is taken or counted. -/
theorem test_pin_glitch : let s := { aux with pins := { perst := false } }
    let p := { aux with pins := { pwrgd := true } }
    after (exec (.pwrgdAssert 999) s) (fun t => decide (t = s.bump 0 HUB_SB_CNT_GLITCH_V)) = true ∧
    after (exec (.perstDeassert 999) p) (fun t => decide (t = p.bump 0 HUB_SB_CNT_GLITCH_V)) = true ∧
    after (exec (.pwrgdDeassert 0) on) (fun t => decide (t = on.bump 0 HUB_SB_CNT_GLITCH_V)) = true ∧
    after (exec (.perstAssert 0) on) (fun t => decide (t = on.bump 0 HUB_SB_CNT_GLITCH_V)) = true ∧
    1000 < 10000 ∧ s.power.aux = true ∧ p.power.aux = true ∧ on.pins.pwrgd = true ∧ on.pins.perst = false := by decide +kernel
theorem test_pwrgd_drops : on.pins.pwrgd = true ∧ on.power.main = true ∧ on.power.tripped = false ∧
    after (exec (.pwrgdDeassert 10000) on) (fun t => decide (t.ready = false ∧ t.levelW 3 = 0 ∧
      t.power.ramps.map Ramp.serves = [.off])) = true := by decide +kernel
theorem test_perst_resets : on.pins.perst = false ∧ on.shutting = false ∧
    after (exec (.perstAssert 10000) on) (fun t => decide (t.pins.perst = true ∧ t.ready = false ∧ t.reg 0 = regReset 0)) = true := by
  decide +kernel

/-- A stage report that finds nothing wrong and no attic partner. -/
def clean : StageReport := ⟨0, [], 0, 0, 0, false, ⟨false, 0, 0, 0, 0⟩, ⟨false, 0, 0, 0, 0⟩⟩
/-- A module in stage `k` of start-up. -/
def stage (k : Nat) : State := (on.setFld 0 HUB_BRINGUP_CURRENT k).setFld 0 HUB_STATUS_STARTING 1
/-- The command in stage `k`, its report `r`: the code of the stage and the next one. -/
def staged (k : Nat) (r : StageReport) (code next : Nat) : Bool :=
  after (exec (.startupStage r) (stage k)) (fun t => decide (t.fld 0 (stageCode k) = code ∧ t.fld 0 HUB_BRINGUP_CURRENT = next))

theorem test_no_stage : aux.fld 0 HUB_BRINGUP_CURRENT = 0 ∧ aux.startDue = false ∧
    after (exec (.startupStage clean) aux) (fun t => decide (t = aux)) = true := by decide +kernel
/-- Stage 1 where neither copy of the firmware is of a version that may boot. -/
theorem test_stage_one : let s := { stage 1 with nvm := { (stage 1).nvm with
      fwA := ⟨[], 0, 0xB0, false⟩, fwB := ⟨[], 0, 0xB0, false⟩ } }
    s.fld 0 HUB_BRINGUP_CURRENT = 1 ∧ s.nvm.fwA.boots s.nvm.svnMin = false ∧ s.nvm.fwB.boots s.nvm.svnMin = false ∧
    (stage 1).fld 0 HUB_BRINGUP_CURRENT = 1 := by decide +kernel
theorem test_stage_two : (stage 2).fld 0 HUB_BRINGUP_CURRENT = 2 ∧ (stage 2).liveDies = [0, 1, 2, 3] ∧ bitN 8 3 = true := by decide +kernel
theorem test_stage_three : (stage 3).fld 0 HUB_BRINGUP_CURRENT = 3 ∧ atRest (stage 3) := by decide +kernel
theorem test_stage_four : (stage 4).fld 0 HUB_BRINGUP_CURRENT = 4 ∧ atRest (stage 4) ∧ staged 4 clean 2 5 = true ∧
    staged 4 { clean with badDevices := 2 ^ 31 } 3 5 = true := by decide +kernel
theorem test_stage_five : (stage 5).fld 0 HUB_BRINGUP_CURRENT = 5 ∧ staged 5 clean 2 6 = true ∧
    staged 5 { clean with badCouch := 8 } 3 6 = true := by decide +kernel
theorem test_stage_six : (stage 6).fld 0 HUB_BRINGUP_CURRENT = 6 ∧ atRest (stage 6) ∧ staged 6 clean 2 7 = true ∧
    staged 6 { clean with badHub := 8 } 3 7 = true := by decide +kernel
theorem test_stage_seven : (stage 7).fld 0 HUB_BRINGUP_CURRENT = 7 ∧ (stage 7).fld 0 (stageCode 1) ≠ 4 ∧
    staged 7 { clean with hostSlow := true } 3 8 = true ∧ staged 7 clean 2 8 = true := by decide +kernel
theorem test_stage_fatal : let s := (stage 7).setFld 0 (stageCode 1) 4
    s.fld 0 HUB_BRINGUP_CURRENT = 7 ∧ s.fld 0 (stageCode 1) = 4 ∧
    after (exec (.startupStage clean) s) (fun t => t.bit 0 HUB_STATUS_FATAL) = true := by decide +kernel
theorem test_stage_eight : (stage 8).fld 0 HUB_BRINGUP_CURRENT = 8 ∧ (stage 8).pins.x0Prsnt = false ∧
    (stage 8).pins.x1Prsnt = false ∧ staged 8 clean 5 9 = true ∧
    after (exec (.startupStage { clean with x1 := ⟨true, 1, 0, 0x31, 2 ^ 40⟩ }) { stage 8 with pins := { (stage 8).pins with
      x0Prsnt := true, x1Prsnt := true } }) (fun t => decide (t.fld 0 (stageCode 8) = 3 ∧ t.bit 0 ATC_STAT_UP 1 = true ∧
      t.bit 0 ATC_STAT_UP 0 = false)) = true := by decide +kernel
theorem test_stage_nine : let s := { stage 9 with power := { (stage 9).power with zeroing := 15 } }
    s.fld 0 HUB_BRINGUP_CURRENT = 9 ∧ s.power.leaving = none ∧ (stage 9).power.zeroing = 0 ∧ (stage 9).bit 0 HUB_STATUS_STARTING = true ∧
    (stage 9).bit 0 HUB_STATUS_FLR_ACTIVE = false ∧
    after (exec (.startupStage clean) s) (fun t => decide (t.pstate = 1 ∧ t.levelW 3 = 60 ∧ t.ready = s.ready)) = true := by
  decide +kernel
theorem test_zeroing : let s := { on with power := { on.power with zeroing := 8 }, larder := on.larder.write (3 * 2 ^ 35) [5] }
    s.power.zeroing ≠ 0 ∧ s.dieState 3 = 0 ∧
    after (exec .larderZeroingDone s) (fun t => decide (t.power.zeroing = 0 ∧ t.larder.read1 (3 * 2 ^ 35) = 0)) = true := by
  decide +kernel
/-- Larder zeroing ends after the last stage: READY follows (R479). -/
theorem test_zeroing_ready : let s := { ((on.setFld 0 HUB_STATUS_READY 0).setFld 0 HUB_STATUS_STARTING 1).setFld 0 ⟨0x10, 0, 35, 32⟩ 2
      with power := { on.power with zeroing := 1 } }
    s.stagesDone = true ∧ s.power.leaving = none ∧ s.bit 0 HUB_STATUS_STARTING = true ∧ s.bit 0 HUB_STATUS_FLR_ACTIVE = false ∧
    after (exec .larderZeroingDone s) (fun t => t.ready) = true := by decide +kernel
/-- FLR in P0, P2 and P3. -/
theorem test_flr : on.power.main = true ∧ on.shutting = false ∧ on.bit 0 HUB_STATUS_FATAL = false ∧ on.pins.perst = false ∧
    on.bit 0 HUB_STATUS_STARTING = false ∧ (on.setPstate 2).pstate = 2 ∧ (on.setPstate 3).pstate = 3 ∧
    (on.setPstate 3).power.leaving = none ∧
    after (exec .flr on) (fun t => decide (t.bit 0 HUB_STATUS_FLR_ACTIVE = true ∧ t.ready = false)) = true ∧
    after (exec .flr (on.setPstate 2)) (fun t => t.power.ramps.any (fun r => r.serves == .flr)) = true ∧
    after (exec .flr (on.setPstate 3)) (fun t => decide (t.power.leaving = some .flr ∧ t.fld 0 HUB_BRINGUP_CURRENT = 2)) = true := by
  decide +kernel
theorem test_flr_complete : let s := { on.setFld 0 HUB_STATUS_FLR_ACTIVE 1 with larder := on.larder.write 0 [5] }
    s.bit 0 HUB_STATUS_FLR_ACTIVE = true ∧ s.pstate ≤ 1 ∧ s.power.leaving = none ∧ s.power.wakeBanks = none ∧
    s.bit 0 HUB_STATUS_STARTING = false := by decide +kernel


/-! ## The governor and ageing -/

/-- `on` with an operating plan for core 5 of CD1, which runs at 1,750 MHz. -/
def island : State :=
  { on.setFld 0 AGE_ISL_F_MAX 1800 105 with power := { on.power with plans := [(105, List.replicate 29 700)] } }

theorem test_thermal_read : on.power.aux = true ∧ after (exec (.thermalRead [] 30 40) on)
    (fun t => decide (t.fld 0 PWR_TEMP_COOL_IN_C = 30 ∧ t.fld 0 PWR_TEMP_COOL_OUT_C = 40)) = true := by decide +kernel
/-- A reading of 100 °C lowers the limit by 25 MHz; 99 °C does not (R499). -/
theorem test_throttle : island.power.main = true ∧ island.freqNow 1 5 = 1750 ∧
    after (exec (.thermalRead [⟨1, 5, 100⟩] 30 40) island) (fun t => decide ((t.core 1 5).thermal = some 1725)) = true ∧
    after (exec (.thermalRead [⟨1, 5, 99⟩] 30 40) island) (fun t => decide ((t.core 1 5).thermal = none)) = true := by
  decide +kernel
theorem test_release : let s := island.modCore 1 5 (fun x => { x with thermal := some 1700 })
    (s.core 1 5).thermal = some 1700 ∧ (s.core 1 5).cool = true ∧ (s.die 1).cool = true ∧
    after (exec (.throttleReleaseStep 1 5) s) (fun t => decide ((t.core 1 5).thermal = some 1725)) = true := by decide +kernel
/-- An island that is not limited, and one that is not cool: a release step changes nothing. -/
theorem test_no_release : (on.core 1 5).thermal = none ∧
    ((on.modCore 1 5 (fun x => { x with thermal := some 1700, cool := false })).core 1 5).cool = false ∧
    after (exec (.throttleReleaseStep 1 5) on) (fun t => decide (t = on)) = true := by decide +kernel
theorem test_linger : let s := { on.setFld 0 PWR_DIE_LEVEL 61 2 with ts := 2000000 }
    s.ramps 2 = true ∧ 60 < s.levelW 2 ∧ s.runsOn 2 = false ∧ s.restTs 2 + 1000 * max 100 (s.fld 0 PWR_CTRL_LINGER_US) = s.ts ∧
    after (exec (.lingerExpiry 2) s) (fun t => decide (t.levelW 2 = 60)) = true := by decide +kernel
theorem test_ramp : let s := { on.setFld 0 PWR_DIE_LEVEL 200 2 with power := { on.power with ramps := [⟨some 2, 0, .none, 0⟩] } }
    s.power.ramps = [⟨some (2 : Die).val, 0, .none, 0⟩] ∧
    after (exec .rampComplete s) (fun t => decide (t.drawW 2 = 200 ∧ t.power.ramps = [])) = true := by decide +kernel
theorem test_ballast : let s := on.setFld 0 PWR_DIE_DRAW 100 0
    s.power.main = true ∧ s.pstate ≤ 1 ∧
    after (exec (.ballastAdjust [100, 0, 0, 0]) s) (fun t => !t.bit 0 PWR_STAT_BALLAST) = true ∧
    after (exec (.ballastAdjust [99, 0, 0, 0]) s) (fun t => t.bit 0 PWR_STAT_BALLAST) = true := by decide +kernel
theorem test_idle : let s := { on with ts := 1000000 }
    s.pstate = 0 ∧ s.ready = true ∧ s.d2 = false ∧ s.atWork = false ∧ s.power.waking = false ∧ s.sec.d2wait = none ∧
    s.restTs 4 + 1000 * max 10 (s.fld 0 PWR_CTRL_IDLE_US) = s.ts ∧
    after (exec .idleToP1 s) (fun t => decide (t.pstate = 1 ∧ t.fld 0 PWR_STAT_PSTATE = 1)) = true := by decide +kernel
/-- Work waits, in power state `p`. -/
def waking (p : Nat) : State := { on.setPstate p with power := { on.power with waking := true } }
theorem test_wake : (waking 1).power.waking = true ∧ (waking 1).power.wakeBanks = none ∧ (waking 1).pstate = 1 ∧
    (waking 2).pstate = 2 ∧ (waking 2).power.ramps.any (fun r => r.die.isNone) = false ∧
    after (exec .powerWake (waking 1)) (fun t => decide (t.pstate = 0)) = true ∧
    after (exec .powerWake (waking 2)) (fun t => decide (t.pstate = 2 ∧ t.power.ramps = [⟨none, 1, .wake, 0⟩])) = true := by
  decide +kernel
/-- The wake of P2: the ramp of the whole module ends; then the banks are ON with their owners again. -/
theorem test_wake_banks : let r := { on.setPstate 2 with power := { on.power with ramps := [⟨none, 1, .wake, 0⟩], waking := true } }
    let w := { (on.setPstate 2).setFld (bankAt 7) BANK_STAT_PWR 1 with
      power := { on.power with wakeBanks := some .wake, waking := true, p2owners := [(7, 2)] } }
    r.power.ramps = [⟨none, 1, .wake, 0⟩] ∧ w.power.wakeBanks = some .wake ∧ Tab.sorted w.power.p2owners = true ∧
    (∀ e ∈ w.power.p2owners, e.1 < 3264) ∧ w.bankPwr 7 = 1 ∧ w.dieState (bankDie 7) = 0 ∧ w.bankTrans = [] ∧
    after (exec .rampComplete r) (fun t => decide (t.power.wakeBanks = some .wake ∧ t.power.ramps = [])) = true := by
  decide +kernel
theorem test_sample : on.power.main = true ∧ on.pstate ≠ 3 ∧
    after (exec (.ageingSample 1 5 990) on) (fun t => decide (Tab.find t.power.osc 105 = some 990)) = true := by decide +kernel
theorem test_slack : island.pstate ≤ 1 ∧
    after (exec (.slackMeasure 1 5 40) island) (fun t => !t.bit 0 AGE_STAT_REPLANNING) = true ∧
    after (exec (.slackMeasure 1 5 20) island) (fun t => decide ((t.core 1 5).slackCap = none)) = true ∧
    after (exec (.slackMeasure 1 5 19) island) (fun t => decide (t.bit 0 AGE_STAT_REPLANNING = true ∧
      (t.core 1 5).slackCap = some 1700 ∧ t.fld 0 AGE_CNT_FAST_DROP_V = 1)) = true := by decide +kernel
theorem test_vmin : on.fld (bankAt 3263) BANK_OWN_OWNER = 0 ∧ (on.die (bankDie 3263)).marches = [] ∧
    after (exec (.sramVminMeasure 3263 110 70) on) (fun t => decide (Tab.find t.nvm.vmin 3263 = some (110, 70))) = true := by
  decide +kernel
theorem test_eye : on.power.main = true ∧
    after (exec (.eyeCheck 50 6 6 6 false) on) (fun t => decide (Tab.find t.nvm.eyes 50 = some (6, 6, 6))) = true ∧
    after (exec (.eyeCheck 0 5 6 6 true) on) (fun t => decide (Tab.find t.nvm.eyes 0 = some (5, 6, 6) ∧ t.dieState 0 = 0)) = true ∧
    after (exec (.eyeCheck 48 5 6 6 false) on) (fun t => decide (t.regs = on.regs)) = true := by decide +kernel
/-- `on` with every device trained, every couch link and both attic ports up. -/
def allUp : State :=
  (((List.range 32).foldl (fun s q => s.setFld 0 LDR_DEV_STAT_TRAINED 1 q) on).setFld 0 ATC_STAT_UP 1 0).setFld 0 ATC_STAT_UP 1 1
/-- An eye below its minimum of each kind, at both ends of the kind's numbers. -/
theorem test_eye_fails : allUp.power.main = true ∧ atRest allUp ∧ allUp.bit 0 LDR_DEV_STAT_TRAINED 0 = true ∧
    allUp.bit 0 LDR_DEV_STAT_TRAINED 31 = true ∧ allUp.dieState (31 / 8) = 0 ∧ allUp.linkOk 0 = true ∧ allUp.linkOk 3 = true ∧
    33 = 33 + 2 * ((3 + 1) % 4) ∧ (allUp.die (47 % 4)).cut = false ∧ allUp.dieState (47 % 4) = 0 ∧ (allUp.die (40 % 4)).cut = false ∧
    allUp.bit 0 ATC_STAT_UP 0 = true ∧ allUp.bit 0 ATC_STAT_UP 1 = true ∧
    after (exec (.eyeCheck 31 5 6 6 false) allUp) (fun t => decide (t.dieState 3 = 2 ∧ t.bit 0 LDR_DEV_STAT_FAILED 31 = true)) = true ∧
    after (exec (.eyeCheck 33 5 6 6 false) allUp) (fun t => decide (t.linkOk 3 = false ∧ t.linkUp 3 = false)) = true ∧
    after (exec (.eyeCheck 47 5 6 6 false) allUp) (fun t => decide (t.dieState 3 = 1)) = true ∧
    after (exec (.eyeCheck 50 5 6 6 false) allUp) (fun t => decide (t.bit 0 ATC_STAT_UP 1 = false)) = true := by decide +kernel
theorem test_replan : on.power.main = true ∧ on.pstate ≤ 1 ∧ on.bit 0 HUB_STATUS_STARTING = false ∧
    planFmax (planVolts 600 ([700, 701] ++ List.replicate 27 801)) = 1225 ∧
    planVolts 600 [700, 701, 800] = [700, 705, 800] ++ List.replicate 26 600 := by decide +kernel

/-! ## Accesses from outside -/

/-- Registers without behaviour of their own: whole, a 64-bit one by its lower half, and an alert register; RW and reserved bits. -/
theorem test_plain_register : (regRow 0x101000).map (·.width) = some 64 ∧ ownReg 0x101000 = false ∧ on.serves 0x101000 = true ∧
    widthAt 0x101004 = 0 ∧ on.serves 0x101004 = true ∧ (regRow 0x200).map (·.width) = some 32 ∧ ownReg 0x200 = false ∧
    on.serves 0x200 = true ∧
    after (exec (.registerWrite 0x101000 8 0x12345FFF) on) (fun t => decide ((t.reg 0x101000).toNat = 0x12345000)) = true ∧
    after (exec (.registerWrite 0x101004 4 0x12345FFF) on) (fun t => decide ((t.reg 0x101000).toNat = 0x12345FFF00000000)) = true ∧
    after (exec (.registerWrite 0x200 4 0x3FF) on) (fun t => decide ((t.reg 0x200).toNat = 0x1FF)) = true := by decide +kernel
/-- A misaligned write, a write of a reserved word, an 8 B write to two words, and the mailbox buffer's last word. -/
theorem test_writes : 0x102 + 4 ≤ 0x4000000 ∧ 0x102 % 4 ≠ 0 ∧ widthAt 0x500000 = 0 ∧ widthAt 0x4FFFFC ≠ 64 ∧ inMbox 0x500000 = false ∧
    inTrace 0x500000 = false ∧ widthAt 0x500004 = 0 ∧ widthAt 0x200 ≠ 64 ∧ inMbox 0x204 = false ∧ on.serves 0x204 = true ∧
    after (exec (.registerWrite 0x200 4 5) on) (fun t => t.serves 0x204) = true ∧ inMbox 0x210FFC = true ∧
    after (exec (.registerWrite 0x210FFC 4 5) on) (fun t => decide (t.mbox.buf.readN 0xFFC 4 = 5)) = true := by decide +kernel
/-- A die held in reset, its registers in P3, FATAL: 0x90 is the first register that does not answer. -/
theorem test_not_served : dieOf 0x1000000 = some 0 ∧ dieOf 0x4000000 = none ∧ (on.setFld 0 HUB_DIE_STATE_STATE 5).dieState 0 = 5 ∧
    (on.setPstate 3).pstate = 3 ∧ (on.setFld 0 HUB_STATUS_FATAL 1).bit 0 HUB_STATUS_FATAL = true ∧
    after (exec (.bar0HalfRead 0x90 4) (on.setFld 0 HUB_STATUS_FATAL 1)) (fun t => decide (t.rd.data = zeros 4)) = true := by
  decide +kernel
/-- `on` at debug level 2. -/
def levelTwo : State := on.setFld 0 SEC_STAT_LEVEL 2
theorem test_doorbells : levelTwo.d2 = true ∧ on.d2 = false ∧ on.power.aux = true ∧ (0x400 : Nat).testBit 10 = true ∧
    (0x800 : Nat).testBit 11 = true ∧ after (exec (.registerWrite 0x180004 4 1) pair) (fun t => decide (
      t.bit 0 KGR_QSTAT_ERROR = true ∧ t.fld 0 KGR_QSTAT_ERR_CAUSE = 2)) = true ∧
    after (exec (.jtagRegWrite 0x3FFFFFE 4 0) levelTwo) (fun t => decide (t = levelTwo)) = true := by decide +kernel
/-- HUB_TIMESTAMP by halves (R43), and whole. -/
theorem test_halves : let s := { on with ts := 0x500000007 }
    widthAt 8 = 64 ∧ widthAt 12 = 0 ∧ inMbox 8 = false ∧ inMbox 12 = false ∧ inTrace 8 = false ∧ inTrace 12 = false ∧
    s.serves 8 = true ∧ s.serves 12 = true ∧
    after (exec (.bar0HalfRead 8 4) s) (fun t => decide (t.rd.data = [7, 0, 0, 0]) &&
      after (exec (.bar0HalfRead 12 4) { t with ts := 0x900000000 }) (fun w => decide (w.rd.data = [5, 0, 0, 0]))) = true ∧
    after (exec (.bar0HalfRead 8 8) s) (fun t => decide (t.rd.data = [7, 0, 0, 0, 5, 0, 0, 0] ∧ t.latch = s.latch)) = true := by
  decide +kernel
theorem test_reads : widthAt 0x200 = 32 ∧ inMbox 0x200 = false ∧ inTrace 0x200 = false ∧ on.serves 0x200 = true ∧
    inMbox 0x210000 = true ∧ on.bit 0 HUB_STATUS_FATAL = false ∧ (∃ a, inTrace a = true ∧ a % 4 = 0) ∧ on.level = 0 ∧
    after (exec (.bar0HalfRead 0x200 4) on) (fun t => decide (t.rd.data = [0, 2, 0, 0] ∨ t.rd.data = bytesLE 4 (on.reg 0x200).toNat)) = true ∧
    after (exec (.bar0HalfRead 2 4) on) (fun t => decide (t.rd.data = zeros 4)) = true := by
  refine ⟨by decide +kernel, by decide +kernel, by decide +kernel, by decide +kernel, by decide +kernel, by decide +kernel,
    ⟨0x280000, by decide +kernel⟩, by decide +kernel⟩
theorem test_bar2 : laRange (on.bar2La 60) 8 = true ∧ 60 + 8 ≤ on.bar2Bytes ∧ on.power.main = true ∧
    after (exec (.bar2Write 60 [1, 2, 3, 4, 5, 6, 7, 8] true []) on) (fun t => decide (t.larder.poison = [0, 1]) &&
      after (exec (.bar2Read 62 4 []) t) (fun u => decide (u.rd = ⟨[3, 4, 5, 6], true⟩))) = true ∧
    after (exec (.bar2Read 32000000000 1 []) on) (fun t => decide (t.rd.data = [0xFF] ∧ t.bit 0 HUB_BAR2_ERR_UNPOP = true)) = true := by
  decide +kernel
theorem test_unpopulated : on.bar2La 32000000000 = 32000000000 ∧ laPopulated 32000000000 = false ∧ laPopulated 31999999999 = true ∧
    32000000001 ≤ on.bar2Bytes ∧ on.power.main = true ∧ aux.power.main = false ∧ 60 + 8 ≤ aux.bar2Bytes ∧
    after (exec (.bar2Write 31999999999 [1, 2] false []) on)
      (fun t => decide (t.bit 0 HUB_BAR2_ERR_UNPOP = true ∧ t.fld 0 HUB_BAR2_ERR_ADDR = 500000000 ∧
        t.larder = ({} : Mem).write 31999999999 [1])) = true := by decide +kernel
/-- Each error of a burst of a read, at the populated window's last byte. -/
theorem test_burst_errors : on.bar2La 31999999999 = 31999999999 ∧ 31999999999 + 1 ≤ on.bar2Bytes ∧ atRest allUp ∧ on.dieState 0 = 0 ∧
    larderDevice 0 = 0 ∧
    after (exec (.bar2Read 0 1 [.corrected 0]) on) (fun t => decide (t.fld 0 LDR_DEV_CNT_CE_V 0 = 1)) = true ∧
    after (exec (.bar2Read 0 1 [.uncorrectable 0]) on) (fun t => decide (t.rd.poison = true ∧ t.larder.poisoned 63 = true)) = true ∧
    after (exec (.bar2Read 0 1 [.retried 0 16]) on) (fun t => decide (t.fld 0 LDR_DEV_CNT_RETRY_V 0 = 16)) = true := by decide +kernel
theorem test_jtag : on.level = 0 ∧ levelTwo.level ≠ 0 ∧ levelTwo.serves 0x200 = true ∧ widthAt 0x200 = 32 ∧ widthAt 8 = 64 ∧
    levelTwo.serves 8 = true ∧ (levelTwo.setFld 0 HUB_STATUS_FATAL 1).serves 0x90 = false ∧ (levelTwo.core 1 5).halted = false ∧ levelTwo.power.aux = true ∧
    after (exec (.jtagBypass true) on) (fun t => decide (t.pins.tdo = 2)) = true ∧
    after (exec (.jtagRegRead 0x200 4) on) (fun t => decide (t.pins.tdo = 0x400)) = true ∧
    after (exec (.jtagRegRead 0x600 4) levelTwo) (fun t => decide (t.pins.tdo = 0x1F41)) = true ∧
    after (exec (.jtagRegRead 0x202 4) levelTwo) (fun t => decide (t.pins.tdo = 0)) = true ∧
    after (exec (.jtagScan 1 5) levelTwo) (fun t => decide (t.pins.tdo = 0)) = true := by decide +kernel
theorem test_jtag_halt : after (exec (.jtagHalt 1 5) levelTwo) (fun t => decide ((t.core 1 5).halted = true)) = true ∧
    ((levelTwo.modCore 1 5 (fun x => { x with halted := true })).core 1 5).halted = true ∧
    after (exec (.jtagExtest 9) levelTwo) (fun t => decide (t.pins.boundary = 9)) = true ∧
    after (exec (.jtagSamplePreload 9) on) (fun t => decide (t.pins.tdo = 18)) = true := by decide +kernel

/-! ## Queue pairs -/

/-- The value that gives a pair 64 entries in each ring: sizes 6, EN. -/
theorem test_enable : on.bit 0 KGR_QSTAT_ENABLED = false ∧ on.bit 0 HUB_STATUS_FATAL = false ∧
    after (exec (.qpEnable 0 (1 + 6 * 2 + 6 * 32 + 6 * 512)) (on.setFld 0 KGR_SEQ_START_V 7)) (fun t => decide (t.bit 0 KGR_QSTAT_ENABLED = true ∧
      t.fld 0 KGR_SEQ_NEXT_V = 7)) = true ∧
    after (exec (.qpDisable 0 (6 * 2)) on) (fun t => decide (t.fld 0 KGR_QCFG_SQ_LOG2 = 6)) = true ∧
    pair.bit 0 KGR_QSTAT_ENABLED = true ∧
    after (exec (.qpEnable 0 (1 + 2 ^ 14 * 3)) pair) (fun t => decide (t.fld 0 KGR_QCFG_VECTOR = 3)) = true := by decide +kernel
theorem test_disable : pair.fld 0 KGR_QSTAT_OUTSTANDING = 0 ∧ pair.running 0 = false ∧
    after (exec (.qpDisable 0 0) pair) (fun t => !t.bit 0 KGR_QSTAT_ENABLED) = true ∧
    (pair.setFld 0 KGR_QSTAT_OUTSTANDING 1).fld 0 KGR_QSTAT_OUTSTANDING ≠ 0 ∧
    after (exec (.qpDisable 0 0) (pair.setFld 0 KGR_QSTAT_OUTSTANDING 1)) (fun t => decide (t.bit 0 KGR_QSTAT_ENABLED = true ∧
      t.bit 0 KGR_QSTAT_EN_REFUSED = true)) = true := by decide +kernel
/-- The last head that a doorbell may take and the first that it may not (R372, R402). -/
theorem test_heads : let s := (pair.setFld 0 KGR_QSTAT_CQ_TAIL 2).setFld 0 KGR_QSTAT_EVT_TAIL 1
    headOk (2 ^ (s.qp 0).cqLog) (s.qp 0).cqHead (s.fld 0 KGR_QSTAT_CQ_TAIL) 2 = true ∧
    headOk (2 ^ (s.qp 0).cqLog) (s.qp 0).cqHead (s.fld 0 KGR_QSTAT_CQ_TAIL) 3 = false ∧
    headOk (2 ^ (s.qp 0).evtLog) (s.qp 0).evtHead (s.fld 0 KGR_QSTAT_EVT_TAIL) 1 = true ∧
    headOk (2 ^ (s.qp 0).evtLog) (s.qp 0).evtHead (s.fld 0 KGR_QSTAT_EVT_TAIL) 2 = false ∧ s.bit 0 KGR_QSTAT_ERROR = false ∧
    after (exec (.cqHeadDoorbell 0 2) s) (fun t => decide ((t.qp 0).cqHead = 2)) = true ∧
    after (exec (.cqHeadDoorbell 0 3) s) (fun t => decide (t.fld 0 KGR_QSTAT_ERR_CAUSE = 2 ∧ t.fld 0 KGR_CQ_HEAD_V = 3 ∧
      (t.qp 0).cqHead = 0)) = true ∧
    after (exec (.evtHeadDoorbell 0 1) s) (fun t => decide ((t.qp 0).evtHead = 1)) = true := by decide +kernel
theorem test_tail_beyond : pair.bit 0 KGR_QSTAT_ERROR = false ∧ 2 ^ (pair.qp 0).sqLog ≤ 64 ∧
    after (exec (.sqTailDoorbell 0 64) pair) (fun t => decide (t.fld 0 KGR_QSTAT_ERR_CAUSE = 1)) = true ∧
    (pair.setFld 0 HUB_STATUS_READY 0).ready = false ∧
    after (exec (.sqTailDoorbell 0 63) (pair.setFld 0 HUB_STATUS_READY 0)) (fun t => decide (t.fld 0 KGR_SQ_TAIL_V = 63 ∧
      t.fld 0 KGR_QSTAT_SQ_HEAD = 0)) = true := by decide +kernel
theorem test_bus_error : after (exec (.hostBusError 0 .evtWrite) pair) (fun t => decide (t.fld 0 KGR_QSTAT_ERR_CAUSE = 6 ∧
      t.qpStopped 0 = true) && after (exec (.hostBusError 0 .sqFetch) t) (fun u => decide (u = t))) = true ∧
    pair.waitingCmd 0 (fun c => c.hasParam && c.param.isSome) = none ∧ (pair.qp 0).cmds.find? copyOnBus = none := by decide +kernel

/-! ## Keager commands: fetching and posting -/

/-- A command of slot J0 with SEQ 5: its opcode, the fields (offset, bytes, value) of its 64 B, and its block. -/
def cmd (op : Nat) (fs : List (Nat × Nat × Nat)) (param : Option (List Byte) := none) : Cmd :=
  { bytes := fs.foldl (fun l f => putAt l f.1 (bytesLE f.2.1 f.2.2)) (putAt (putAt (zeros 64) 0 (bytesLE 2 op)) 8 [5]),
    seq := 5, param := param }
/-- `s` with one command on J0's pair. -/
def withCmd (s : State) (c : Cmd) : State := { s with qps := [(0, { cqBase := 4096, cmds := [c] })] }
/-- `pair` with one command. -/
def one (c : Cmd) : State := withCmd pair c
/-- A block with fields. -/
def block (n : Nat) (fs : List (Nat × Nat × Nat)) : List Byte := fs.foldl (fun l f => putAt l f.1 (bytesLE f.2.1 f.2.2)) (zeros n)
/-- The first completion: status, PART_MASK and RESULT. -/
def told (t : State) : Nat × Nat × Nat := (t.host.readN 4100 2, t.host.readN 4104 2, t.host.readN 4120 8)
/-- What exec answers for a command shows this first completion. -/
def tells (o : Host.Outcome State Fault Refusal) (x : Nat × Nat × Nat) : Bool := after o (fun t => decide (told t = x))

/-- `pair`, which expects SEQ 5, with a command of opcode `op` in host memory at the head of the queue. -/
def fetched (op : Nat) : State := { pair.setFld 0 KGR_SEQ_NEXT_V 5 with host := ({} : Mem).write 0 (cmd op []).bytes }
theorem test_fetch : (fetched 0).bit 0 KGR_QSTAT_ENABLED = true ∧ (fetched 0).bit 0 KGR_QSTAT_RESETTING = false ∧
    1 = ((fetched 0).fld 0 KGR_QSTAT_SQ_HEAD + 1) % 2 ^ ((fetched 0).qp 0).sqLog ∧
    fetchCheck (fetched 0) 0 { bytes := (fetched 0).host.read 0 64, seq := 5 } = none ∧
    fetchCheck (fetched 8) 0 { bytes := (fetched 8).host.read 0 64, seq := 5 } = some 0x1001 ∧ cqOpen (fetched 8) 0 ∧
    after (exec (.sqTailDoorbell 0 1) (fetched 0)) (fun t => decide ((t.qp 0).cmds.map Cmd.seq = [5] ∧
      t.fld 0 KGR_SEQ_NEXT_V = 6 ∧ t.fld 0 KGR_QSTAT_OUTSTANDING = 1)) = true ∧
    tells (exec (.sqTailDoorbell 0 1) (fetched 8)) (0x1001, 0, 0) = true := by decide +kernel
/-- A bus error on the parameter block of a RUN that waits, and on the data of a COPY from host memory. -/
theorem test_bus_error_param : let c := cmd 0x2002 [(2, 2, 8), (40, 4, 1120)] (some (zeros 1120))
    (one c).waitingCmd 0 (fun x => x.hasParam && x.param.isSome) = some c ∧ (one c).cmd 0 5 = some c ∧ untouched c ∧ cqOpen (one c) 0 ∧
    tells (exec (.hostBusError 0 .paramRead) (one c)) (0x2044, 0, 0) = true := by decide +kernel
theorem test_bus_error_copy : let c := { cmd 0x1000 [(56, 1, 4)] with started := true }
    ((one c).qp 0).cmds.find? copyOnBus = some c ∧ (one c).cmd 0 5 = some c ∧
    after (exec (.hostBusError 0 .copyData) (one c)) (fun t => decide ((t.qp 0).cmds.map Cmd.outcomes = [[0x2044]])) = true := by
  decide +kernel
/-- A lesser cause is replaced, an equal one stands (log entry 44). -/
theorem test_bus_error_causes : let s := fun k => (pair.setFld 0 KGR_QSTAT_ERROR 1).setFld 0 KGR_QSTAT_ERR_CAUSE k
    (s 3).fld 0 KGR_QSTAT_ERR_CAUSE = 3 ∧
    after (exec (.hostBusError 0 .cqWrite) (s 3)) (fun t => decide (t.fld 0 KGR_QSTAT_ERR_CAUSE = 5)) = true ∧
    after (exec (.hostBusError 0 .cqWrite) (s 4)) (fun t => decide (t.fld 0 KGR_QSTAT_ERR_CAUSE = 4)) = true := by decide +kernel
theorem test_held : let s := { pair with qps := [(0, { cqBase := 4096, held := [(List.replicate 32 9, false)] })] }
    (s.qp 0).held = [(List.replicate 32 9, false)] ∧ s.qpStopped 0 = false ∧ s.cqFree 0 ≠ 0 ∧
    after (exec (.completionPost 0) s) (fun t => decide ((t.qp 0).held = [] ∧ t.host.read 4096 8 = [9, 9, 9, 9, 9, 9, 137, 9])) = true :=
  by decide +kernel
theorem test_one_status : pickStatus [0x0110, 0x2041, 0x2043] = 0x2043 ∧ pickStatus [0x2041, 0x1010] = 0x1010 := by decide +kernel

/-! ## Commands of the hub -/

theorem test_nop : let c := cmd 0x0000 []
    untouched c ∧ cqOpen (one c) 0 ∧ startable (one c) 0 0x0000 c ∧
    tells (exec (.nop 0) (one c)) (0, 16, 0) = true := by decide +kernel
theorem test_identify : let c := cmd 0x0001 [(32, 8, 0x10000)]
    untouched c ∧ startable (one c) 0 0x0001 c ∧
    after (exec (.identify 0) (one c)) (fun t => decide (t.fld 0 KGR_QSTAT_CQ_TAIL = 1)) = true := by decide +kernel
theorem test_watermark_now : let c := cmd 0x4001 []
    untouched c ∧ startable (one c) 0 0x4001 c ∧ tells (exec (.watermarkNow 0) (one c)) (0, 16, 0) = true ∧
    after (exec (.watermarkNow 0) (one c)) (fun t => (t.job 0).wmDue) = true := by decide +kernel
theorem test_read_digests : let c := cmd 0x6001 [(32, 8, 0x10000)]
    untouched c ∧ startable (one c) 0 0x6001 c ∧ tells (exec (.readDigests 0) (one c)) (0, 16, 0) = true := by decide +kernel
theorem test_read_ageing : let c := cmd 0x6002 [(32, 8, 0x10000)]
    untouched c ∧ startable (one c) 0 0x6002 c ∧
    after (exec (.readAgeing 0) (one c)) (fun t => decide (t.fld 0 KGR_QSTAT_CQ_TAIL = 1)) = true := by decide +kernel
/-- The cap's bounds, with every die's draw at its level (R497). -/
theorem test_cap : let c := cmd 0x0003 [(32, 4, 1500)]
    untouched c ∧ startable (one c) 0 0x0003 c ∧ 850 ≤ c.opnd 32 4 ∧ c.opnd 32 4 ≤ 1500 ∧
    tells (exec (.setPowerCap 0) (one c)) (0, 16, 0) = true ∧
    (∀ d, d < 4 → ((one c).setFld 0 HUB_STATUS_PSTATE 2).ramps d = false) ∧ startable ((one c).setFld 0 HUB_STATUS_PSTATE 2) 0 0x0003 c := by
  decide +kernel
/-- Four dies that draw 330 W each under a cap of 850 W: a ramp for each, and the command waits. -/
theorem test_cap_ramps : let c := cmd 0x0003 [(32, 4, 850)]
    let s := allDies.foldl (fun s d => (s.setFld 0 PWR_DIE_LEVEL 330 d).setFld 0 PWR_DIE_DRAW 330 d) (one c)
    untouched c ∧ startable s 0 0x0003 c ∧ s.ramps 3 = true ∧ s.drawW 3 = 330 ∧
    after (exec (.setPowerCap 0) s) (fun t => decide (t.effW 3 ≠ 330 ∧ t.power.ramps.map Ramp.die = [some 0, some 1, some 2, some 3] ∧
      (t.qp 0).cmds.map Cmd.waiting = [true])) = true := by decide +kernel
theorem test_cap_refused : let c := cmd 0x0003 [(32, 4, 849)]
    untouched c ∧ startable (one c) 0 0x0003 c ∧ c.opnd 32 4 < 850 ∧
    tells (exec (.setPowerCap 0) (one c)) (0x1021, 0, 0) = true ∧
    after (exec (.setPowerCap 0) (one c)) (fun t => decide (t.fld 0 PWR_CAP_CAP_W = 850)) = true := by decide +kernel
/-- A policy table that passes its checks. -/
def policy : List Byte := block 64 [(0, 1, 1), (9, 1, 1), (10, 2, 1)]
theorem test_policy : let c := { cmd 0x0005 [(2, 2, 8), (40, 4, 64)] with param := some policy }
    untouched c ∧ startable (one c) 0 0x0005 c ∧ (one c).policyPlan 0 = none ∧ (one c).stewardDue = [] ∧
    polReject (c.param.getD []) c.paramLen none = none ∧
    polReject ((c.param.getD []).set 1 8) c.paramLen none = some 0x1081 ∧
    tells (exec (.policyLoad 0) (one c)) (0, 16, 0) = true := by decide +kernel

/-! ## Two-phase commands -/

/-- The start of a two-phase command: its prepare stands with the parts of a mask. -/
def asks (o : Host.Outcome State Fault Refusal) (want : Nat) : Bool :=
  after o (fun t => decide (t.prepared.map Prod.fst = maskBits 5 want ∧ (t.qp 0).cmds.map Cmd.want = [want]))
theorem test_asks_windows : let c := cmd 0x0002 [] (some (zeros 128))
    c.asked = 0 ∧ (∀ p, p < 5 → Tab.find (one c).prepared p = none) ∧ startable (one c) 0 0x0002 c ∧ c.blk 80 48 = 0 ∧
    asks (exec (.setWindows 0) (one c)) 31 = true := by decide +kernel
theorem test_asks_bind : let c := cmd 0x2000 [] (some (zeros 256))
    startable (one c) 0 0x2000 c ∧ c.blk 128 128 = 0 ∧ asks (exec (.planBind 0) (one c)) 31 = true := by decide +kernel
theorem test_asks_unbind : let c := cmd 0x2001 []
    startable (one c) 0 0x2001 c ∧ asks (exec (.planUnbind 0) (one c)) 31 = true := by decide +kernel
theorem test_asks_state : let c := cmd 0x0004 [(32, 1, 2)]
    startable (one c) 0 0x0004 c ∧ c.opnd 32 1 ≠ (one c).pstate ∧ asks (exec (.setPowerState 0) (one c)) 31 = true := by decide +kernel
theorem test_asks_errmem : let c := cmd 0x4000 [(32, 2, 0xFFFF)]
    let s := (one c).setFld 0 HUB_FLT_JOB_HOME 3
    startable s 0 0x4000 c ∧ asks (exec (.errmemClear 0) s) 19 = true := by decide +kernel
theorem test_asks_die : let c := cmd 0x0006 [(32, 1, 3)]
    let r := cmd 0x0007 [(32, 1, 1)]
    startable (one c) 0 0x0006 c ∧ (one c).pstate = 0 ∧ startable (one r) 0 0x0007 r ∧
    asks (exec (.dieReadmit 0) (one c)) 24 = true ∧ asks (exec (.dieReset 0) (one r)) 18 = true ∧
    ((one r).setPstate 2).waitingCmd 0 (fun x => x.op == 0x0007) = some r ∧
    after (exec (.dieReset 0) ((one r).setPstate 2)) (fun t => t.power.waking) = true := by decide +kernel
theorem test_asks_wait : let c := cmd 0x0006 [(32, 1, 3)]
    ((one c).setPstate 1).pstate = 1 ∧ ((one c).setPstate 1).waitingCmd 0 (fun x => x.op == 0x0006) = some c := by decide +kernel
/-- The power state asked for is the present one. -/
theorem test_state_stands : let c := cmd 0x0004 []
    startable (one c) 0 0x0004 c ∧ c.opnd 32 1 = (one c).pstate ∧ untouched c ∧
    tells (exec (.setPowerState 0) (one c)) (0, 16, 0) = true := by decide +kernel
theorem test_asks_snap : let c := cmd 0x3003 [(32, 8, 1)]
    let r := cmd 0x3001 [(32, 8, 1)]
    startable (one c) 0 0x3003 c ∧ startable (one r) 0 0x3001 r ∧ (one r).pstate = 0 ∧
    asks (exec (.snapDelete 0) (one c)) 16 = true ∧ asks (exec (.snapRestore 0) (one r)) 16 = true := by decide +kernel

/-- Command `c` with the parts of `w` asked at time 0, all of them prepared but `p`. -/
def awaiting (c : Cmd) (w p : Nat) : Cmd :=
  { c with started := true, want := w, asked := w, replied := w - 2 ^ p, prepared := w - 2 ^ p }
/-- `one` of such a command, the last prepare open, at time `ts`. -/
def preparing (c : Cmd) (w p ts : Nat) : State := { one (awaiting c w p) with prepared := [(p, 0, 5, 0)], ts := ts }
/-- The premises of a decision that part `p`'s reply brings. -/
abbrev decides (s : State) (c : Cmd) (p : Part) : Prop :=
  s.prepared = [(p.val, (0 : Slot).val, c.seq, 0)] ∧ (s.qp 0).cmds = [c] ∧ s.qps.map Prod.fst = [(0 : Slot).val] ∧ c.want < 32 ∧
    c.started = true ∧ untouched c ∧ c.waiting = false ∧ cqOpen s 0 ∧ bitN c.replied p = false ∧ orBit c.replied p = c.want ∧
    orBit c.prepared p = c.want ∧ s.ts + 3 ≤ 0 + 10000000 ∧ s.hubCheck 0 c = none ∧ s.prepareWaits c p = false ∧
    (c.op ≠ 0x0006 → c.op ≠ 0x0007 → ∀ d, d < 4 → bitN c.want d = true → s.dieState d = 0)

/-- A SET_WINDOWS with CD0's window and the hub's reply open. -/
def windows : Cmd := cmd 0x0002 [] (some (block 128 [(0, 8, 128), (8, 8, 256)]))
theorem test_reply : let c := { awaiting windows 17 4 with replied := 0, prepared := 0 }
    let s := { one c with prepared := [(0, 0, 5, 0), (4, 0, 5, 0)], ts := 9999996 }
    Tab.find s.prepared 4 = some (0, 5, 0) ∧ s.cmd 0 5 = some c ∧ c.done = false ∧ bitN c.replied 4 = false ∧
    s.ts + 3 < 0 + 10000000 ∧ s.prepareWaits c 4 = false ∧ (s.prepare 0 c 4).2 = none ∧ c.op ≠ 0x3001 ∧ orBit c.replied 4 ≠ c.want := by
  decide +kernel
theorem test_prepare_timeout : let s := preparing windows 17 4 10000000
    let c := awaiting windows 17 4
    Tab.find s.prepared 4 = some (0, 5, 0) ∧ s.cmd 0 5 = some c ∧ untouched c ∧ cqOpen s 0 ∧ c.op ≠ 0x3001 ∧
    orBit c.replied 4 = c.want ∧ c.prepared ≠ c.want ∧ c.prepared < 32 ∧ bitN c.replied 4 = false ∧
    (∀ q ∈ s.qps, ∀ x ∈ q.2.cmds, x.want = 0 ∨ (q.1 = (0 : Slot).val ∧ x = c)) ∧
    tells (exec (.prepareTimeout 0 4) s) (0x2053, 1, 0) = true ∧
    after (exec (.prepareTimeout 0 4) (preparing windows 17 4 9999999)) (fun t => decide (t = preparing windows 17 4 9999999)) = true := by
  decide +kernel
/-- A part that loses itself, and the hub's prepare that fails: SET_WINDOWS with a base that is no multiple of 128. -/
theorem test_prepare_fails : let c := awaiting (cmd 0x0002 [] (some (block 128 [(0, 8, 1), (8, 8, 256)]))) 17 4
    (preparing windows 17 0 0).prepareWaits (awaiting windows 17 0) 0 = false ∧ 0 + 3 < 0 + 10000000 ∧
    ((one c).prepare 0 c 4).2 = some 0x1005 := by decide +kernel
theorem test_windows_decided : decides (preparing windows 17 4 9999997) (awaiting windows 17 4) 4 ∧ windows.op = 0x0002 := by
  decide +kernel
theorem test_bind_decided : let c := cmd 0x2000 [] (some (block 256 [(8, 8, 4096)]))
    let s := { preparing c 31 3 0 with jobs := [(0, { ldrBytes := [4096, 0, 0, 0] })] }
    decides s (awaiting c 31 3) 3 ∧ c.op = 0x2000 := by decide +kernel
theorem test_unbind_decided : let c := cmd 0x2001 []
    decides (preparing c 31 4 0) (awaiting c 31 4) 4 ∧ c.op = 0x2001 := by
  decide +kernel
theorem test_errmem_decided : let c := cmd 0x4000 [(32, 2, 0xFFFF)]
    decides (preparing c 19 4 0) (awaiting c 19 4) 4 ∧ c.op = 0x4000 := by
  decide +kernel
theorem test_readmit_decided : let c := cmd 0x0006 [(32, 1, 3)]
    let s := (preparing c 24 4 0).setFld 0 HUB_DIE_STATE_STATE 3 3
    decides s (awaiting c 24 4) 4 ∧ c.op = 0x0006 ∧ c.opnd 32 1 = 3 := by decide +kernel
theorem test_die_reset_decided : let c := cmd 0x0007 [(32, 1, 1)]
    decides (preparing c 18 4 0) (awaiting c 18 4) 4 ∧ (preparing c 18 4 0).jobs = [] ∧ c.opnd 32 1 = 1 := by decide +kernel
/-- SET_POWER_STATE to state `p`. -/
def toState (p : Nat) : Cmd := cmd 0x0004 [(32, 1, p)]
theorem test_state_p1_decided : decides (preparing (toState 1) 31 4 0) (awaiting (toState 1) 31 4) 4 ∧
    (preparing (toState 1) 31 4 0).pstate ≤ 1 := by decide +kernel
theorem test_state_p2_decided : decides (preparing (toState 2) 31 4 0) (awaiting (toState 2) 31 4) 4 ∧
    (awaiting (toState 2) 31 4).opnd 32 1 = 2 := by decide +kernel
theorem test_state_p3_decided : decides (preparing (toState 3) 31 4 0) (awaiting (toState 3) 31 4) 4 ∧
    (preparing (toState 3) 31 4 0).jobs = [] ∧ (awaiting (toState 3) 31 4).opnd 32 1 = 3 := by decide +kernel
/-- A frozen snapshot of nothing, of the plan with a digest, its numbers and FLAGS given. -/
def snapOf (plan : List Byte) (id flags : Nat) : Snap :=
  { id := id, slot := 0, parent := 0, ts := 0, epoch := 1, flags := flags, plan := plan, dataPos := 0, dataMb := 0, streamPos := 0,
    streamMb := 0, ostep := 0, rkey := 1, set := 1, replicas := 1, wmStep := none, regions := [], stored := 0, size := 512,
    job := ⟨none, none, 0, [], [], [], []⟩, record := [], auto := false, pinned := false }
theorem test_delete_decided : let c := cmd 0x3003 [(32, 8, 1)]
    let s := { (preparing c 16 4 0).setFld 0 CLR_STAT_READY 1 with cellar := { on.cellar with snaps := [snapOf [] 1 0] } }
    decides s (awaiting c 16 4) 4 ∧ c.op = 0x3003 := by decide +kernel

/-! ## COPY and FILL -/

/-- A FILL of 128 B at the start of CD0's larder window, and a COPY there from host memory. -/
def fill : Cmd := cmd 0x1001 [(32, 8, 128), (40, 8, 128), (48, 1, 4), (52, 4, 0x04030201)]
def copy : Cmd := cmd 0x1000 [(32, 8, 0x8000), (40, 8, 128), (48, 8, 128), (56, 1, 4)]
/-- J0's job with a larder window on each die. -/
def windowed (s : State) : State := { s with jobs := [(0, { ldrBytes := [4096, 4096, 4096, 4096] })] }

theorem test_fill_starts : let s := windowed (one fill)
    startableBy s 0 (fun x => x.op == 0x1001 && x.copyDies.all (fun d => (s.freeEngine d).isSome || !s.inService d)) fill ∧
    s.copyCheck 0 fill = none ∧ (∀ d ∈ fill.copyDies, s.inService d = true) ∧ fill.copyEnds.any (fun e => e.1 == 2) = false ∧
    after (exec (.fill 0) s) (fun t => t.bit (dieAt 0) DIE_DMA_STAT_BUSY) = true := by decide +kernel
theorem test_copy_starts : let s := windowed (one copy)
    startableBy s 0 (fun x => x.op == 0x1000 && x.copyDies.all (fun d => (s.freeEngine d).isSome || !s.inService d)) copy ∧
    s.copyCheck 0 copy = none ∧ (∀ d ∈ copy.copyDies, s.inService d = true) ∧ copy.copyEnds.any (fun e => e.1 == 2) = false ∧
    after (exec (.copy 0 []) s) (fun t => t.bit (dieAt 0) DIE_DMA_STAT_BUSY) = true := by decide +kernel
/-- A refused FILL: J0 has no window. A COPY into the attic's first 128 B, both ports up. -/
theorem test_copy_refused : (one fill).copyCheck 0 fill = some 0x1005 ∧
    startableBy (one fill) 0 (fun x => x.op == 0x1001 && x.copyDies.all (fun d => ((one fill).freeEngine d).isSome || !(one fill).inService d))
      fill ∧ untouched fill ∧ tells (exec (.fill 0) (one fill)) (0x1005, 0, 0) = true := by decide +kernel
def toAttic : Cmd := cmd 0x1000 [(32, 8, 0x8000), (48, 8, 128), (56, 1, 8)]
theorem test_copy_attic : let s := { ((one toAttic).setFld 0 ATC_STAT_UP 1 0).setFld 0 ATC_STAT_UP 1 1 with
      jobs := [(0, { atcBytes := 4096 })] }
    startableBy s 0 (fun x => x.op == 0x1000 && x.copyDies.all (fun d => (s.freeEngine d).isSome || !s.inService d)) toAttic ∧
    s.copyCheck 0 toAttic = none ∧ (∀ d ∈ toAttic.copyDies, s.inService d = true) ∧
    toAttic.copyEnds.any (fun e => e.1 == 2) = true ∧ s.bit 0 ATC_STAT_UP 0 = true ∧ s.bit 0 ATC_STAT_UP 1 = true ∧
    after (exec (.copy 0 []) s) (fun t => decide (t.attics.map (fun q => (q.aa, q.write)) = [(0, true), (64, true)])) = true := by
  decide +kernel
/-- A memory command at work. -/
def atWork (c : Cmd) : Cmd := { c with started := true, want := 1, parts := 1 }
/-- The premises of every end of a memory command. -/
abbrev ends (s : State) (c : Cmd) : Prop :=
  (s.qp 0).cmds.find? (fun x => x.seq == c.seq && x.started && !x.done && (x.op == 0x1000 || x.op == 0x1001)) = some c ∧
    s.cmd 0 c.seq = some c ∧ untouched { c with outcomes := [] } ∧ cqOpen s 0 ∧ c.asked = 0 ∧
    s.attics.any (fun q => q.slot == (0 : Slot).val && q.cmd == some c.seq) = false ∧ c.copyDst.2 % 64 = 0 ∧
    c.copyLen % 64 = 0 ∧ c.parts < 65536
theorem test_fill_ends : let c := atWork fill
    let s := windowed (one c)
    ends s c ∧ c.op = 0x1001 ∧ c.outcomes = [] ∧ c.stopped = false ∧ c.copyDst.1 = 1 ∧
    tells (exec (.copyComplete 0 5 []) s) (0, 1, 0) = true ∧
    after (exec (.copyComplete 0 5 []) s) (fun t => decide (t.larder.read 125 9 = [0, 0, 0, 1, 2, 3, 4, 1, 2])) = true := by decide +kernel
theorem test_fill_stopped : let c := { atWork fill with stopped := true, outcomes := [0x2040] }
    ends (windowed (one c)) c ∧ c.stopped = true ∧ c.copyDst.1 = 1 ∧
    tells (exec (.copyComplete 0 5 []) (windowed (one c))) (0x2040, 1, 0) = true := by decide +kernel
theorem test_copy_ends : let c := { atWork copy with parts := 17, want := 17 }
    let s := { windowed (one c) with host := { cells := [(0x8001, 7)], poison := [0x8040 / 64] } }
    ends s c ∧ c.op = 0x1000 ∧ c.copySrc.1 = 0 ∧ c.copySrc.2 % 64 = 0 ∧ c.copyDst.1 = 1 ∧
    tells (exec (.copyComplete 0 5 []) s) (0, 17, 0) = true ∧
    after (exec (.copyComplete 0 5 []) s) (fun t => decide (t.larder = { cells := [(129, 7)], poison := [3] })) = true := by
  decide +kernel
/-- COPY within CD0's larder, and COPY to host memory of two granules of which the second is poisoned, with a record in the ring. -/
theorem test_copy_larder : let c := atWork (cmd 0x1000 [(32, 8, 0), (40, 8, 256), (48, 8, 128), (56, 1, 5)])
    let s := windowed (one c)
    ends s c ∧ c.copySrc.1 = 1 ∧ c.copySrc.2 / 2 ^ 35 = c.copyDst.2 / 2 ^ 35 ∧ c.copyDst.1 = 1 ∧ c.copySrc.2 % 64 = 0 := by
  decide +kernel
theorem test_copy_consumes : let c := atWork (cmd 0x1000 [(32, 8, 128), (40, 8, 0x8000), (48, 8, 128), (56, 1, 1)])
    let s := { windowed (one c) with larder := { cells := [(129, 7)], poison := [3] } }
    ends s c ∧ c.copyDst.1 = 0 ∧ c.copySrc.1 = 1 ∧ c.copySrc.2 % 64 = 0 ∧
    tells (exec (.copyComplete 0 5 []) s) (0x2041, 1, 0) = true ∧
    after (exec (.copyComplete 0 5 []) s) (fun t => decide (t.host.read1 0x8001 = 7)) = true := by decide +kernel

/-! ## Plans: an image with one section, one phase and one core queue -/

/-- A plan image: one section at 256 with `n` deckles at 1,024 (64 B each), `b` buffers at 2,048 (32 B each), the schedule at
0x10000 and instructions at 0x40000. -/
def image (n b : Nat) : Mem :=
  [(84, [0, 1]), (90, bytesLE 2 1), (96, bytesLE 8 0x900), (112, bytesLE 8 256), (120, [1]), (257, [1]), (260, bytesLE 4 n),
   (264, bytesLE 4 b), (272, bytesLE 4 4), (288, bytesLE 8 1024), (296, bytesLE 8 2048), (312, bytesLE 8 0x10000),
   (320, bytesLE 8 0x40000), (328, bytesLE 8 0x50000)].foldl (fun (m : Mem) (x : Nat × List Byte) => m.write x.1 x.2) {}
/-- An image with instructions in queue `q` of plan die 0. -/
def queued (m : Mem) (q : Nat) (is : List (List Byte)) : Mem :=
  (m.write (0x10000 + q * 128) (bytesLE 4 0 ++ bytesLE 4 is.length)).write 0x40000 is.flatten
/-- A binding of an image. -/
def bound (m : Mem) : Binding :=
  { imageLa := 0x100000, imageBytes := 4096, area := [0, 0, 0, 0], ldrBase := [0, 0, 0, 0], atcBase := 0,
    spill := [0, 0, 0, 0], rkey := 1, loaded := true, plan := m }
/-- A run of one member on CD0. -/
def base : Run := { members := [0], seqs := [5], mbs := [0], sect := 0, map := [0], n := 1, set := 1, step := 0 }
/-- `pair` with job J0 at work on image `m` as run `r`. -/
def job (m : Mem) (r : Run) : State :=
  { pair.setFld (dieAt 0) DIE_CORE_MAP_MAPPED 1 with
    jobs := [(0, { binding := some (bound m), run := some r, ldrBytes := [2 ^ 30, 0, 0, 0] })] }

/-- A RUN of slot J0's own, its block all zero. -/
def runCmd : Cmd := cmd 0x2002 [(2, 2, 8), (40, 4, 1120)] (some (zeros 1120))
/-- J0 bound to an image, its replica set CD0, the RUN waiting. -/
def ready : State := { (one runCmd).setFld 0 HUB_FLT_JOB_SET 1 with jobs := [(0, { binding := some (bound (image 0 0)) })] }
theorem test_run : ready.waitingCmd 0 isRun = some runCmd ∧ ready.pairRuns 0 = true ∧ ready.runOrder 0 runCmd = true ∧
    ready.dep runCmd = .met ∧ runCmd.leadSlot = 0 ∧ ready.pstate = 0 ∧ ready.bit 0 HUB_FLT_JOB_HOLD = false ∧
    runCmd.runReserved = false ∧ ready.slotsBad (runCmd.runSlots 0) = false ∧ ready.groupOf 0 = some [(0, runCmd)] ∧
    ready.printFree 0 (ready.nextPrint 0 runCmd) = true ∧ ready.mustResume 0 = false ∧ ready.picked 0 (ready.nextPrint 0 runCmd) = true ∧
    (ready.job 0).binding = some (bound (image 0 0)) ∧ planMembers (image 0 0) = 1 ∧
    ready.tileCheck 0 runCmd = none ∧ sizeCheck (image 0 0) runCmd = none ∧
    (runBucket (image 0 0) runCmd).bind (fun k => sectionFor (image 0 0) k (ready.runMap 0).length) = some 0 ∧
    after (exec (.run 0) ready) (fun t => decide ((t.job 0).step = 1)) = true := by decide +kernel
/-- RUNs that do not start: the lead on hold; one whose dependency, SEQ 4 of the pair, failed; one whose dependency, SEQ 0, is not
fetched yet. -/
theorem test_run_refused : let h := ready.setFld 0 HUB_FLT_JOB_HOLD 1
    h.waitingCmd 0 isRun = some runCmd ∧ h.cmd 0 5 = some runCmd ∧ h.pairRuns 0 = true ∧ h.runOrder 0 runCmd = true ∧
    untouched runCmd ∧ cqOpen h 0 ∧ h.dep runCmd = .met ∧ h.bit 0 HUB_FLT_JOB_HOLD runCmd.leadSlot = true ∧
    tells (exec (.run 0) h) (0x2001, 0, 0) = true := by decide +kernel
theorem test_run_depends : let d := cmd 0x2002 [(2, 2, 8 + 4), (12, 4, 4), (40, 4, 1120)] (some (zeros 1120))
    let s := { pair.setFld 0 KGR_SEQ_NEXT_V 6 with qps := [(0, { cqBase := 4096, cmds := [d], outcomes := [(4, some 0x2001)] })] }
    s.waitingCmd 0 isRun = some d ∧ s.cmd 0 5 = some d ∧ s.pairRuns 0 = true ∧ s.runOrder 0 d = true ∧ untouched d ∧ cqOpen s 0 ∧
    s.dep d = .failed ∧ (s.setFld 0 KGR_SEQ_NEXT_V 4).dep d = .waits ∧ tells (exec (.run 0) s) (0x1006, 0, 0) = true := by decide +kernel

/-! ## Snapshots, deadlines and resets -/

/-- Slot J0 bound, the cellar READY. -/
def bindOne (c : Cmd) : State := { (one c).setFld 0 CLR_STAT_READY 1 with jobs := [(0, { binding := some (bound (image 0 0)) })] }
theorem test_snap_take : let c := cmd 0x3000 [] (some (zeros 256))
    startable (bindOne c) 0 0x3000 c ∧ directlyBefore c.seq ((bindOne c).qp 0).cmds = none ∧ (bindOne c).takeCheck 0 c = none ∧
    after (exec (.snapTake 0) (bindOne c)) (fun t => decide (t.bit 0 CLR_JOB_TAKING = true ∧
      (t.job 0).capture = some { seq := 5, entry := false, waits := false })) = true := by decide +kernel
/-- A frozen snapshot of nothing, of J0's plan. -/
def snap (id flags : Nat) : Snap := snapOf (planDigest (image 0 0)) id flags
/-- A SNAP_TAKE at work, and J0 with its capture. -/
def take : Cmd := { cmd 0x3000 [] (some (zeros 256)) with started := true }
def taking (cap : Capture) : State :=
  { (one take).setFld 0 CLR_CAP_DATA_SLOTS 1048576 with jobs := [(0, { binding := some (bound (image 0 0)), capture := some cap })] }
theorem test_snap_take_refused : let c := cmd 0x3000 [] (some (zeros 256))
    startable (one c) 0 0x3000 c ∧ directlyBefore c.seq ((one c).qp 0).cmds = none ∧ (one c).takeCheck 0 c = some 0x106A ∧
    untouched c ∧ tells (exec (.snapTake 0) (one c)) (0x106A, 0, 0) = true := by decide +kernel
theorem test_snap_freeze : let cap : Capture := { seq := 5, entry := false }
    let s := taking cap
    (s.job 0).capture = some cap ∧ cap.snap = none ∧ cap.entry = false ∧ s.atPoint 0 cap = true ∧ s.cmd 0 5 = some take ∧
    s.planId 0 = some (planDigest (image 0 0)) ∧ s.cellar.snaps.length < 4096 ∧ bitN (take.blk 8 1) 0 = false ∧
    s.slotsHeld + (s.snapItems 0 take).length + (48 * (s.snapItems 0 take).length + 1056768) / 2097152 + 1 + s.cellar.used ≤
      s.fld 0 CLR_CAP_DATA_SLOTS := by decide +kernel
/-- An ENTRY take with no RUN behind it on the pair but a NOP. -/
theorem test_snap_no_run : let cap : Capture := { seq := 5, entry := true }
    let s := { taking cap with qps := [(0, { cqBase := 4096, cmds := [take, { cmd 0 [] with seq := 6 }] })] }
    (s.job 0).capture = some cap ∧ cap.snap = none ∧ s.nextIsRun 0 5 = some false ∧ s.cmd 0 5 = some take ∧ untouched take ∧
    cqOpen s 0 ∧ tells (exec (.snapFreeze 0) s) (0x1069, 0, 0) = true := by decide +kernel
/-- The end of a freeze of nothing, and a seal of it; one whose die has left service. -/
def froze (frozen lost : Bool) : Capture := { seq := 5, entry := false, snap := some (snap 1 0), frozen := frozen, lost := lost }
theorem test_snap_thaw : ((taking (froze true false)).job 0).capture = some (froze true false) ∧
    (froze true false).snap = some (snap 1 0) ∧ (pair.job 0).capture = none ∧
    after (exec (.snapFreeze 0) (taking (froze true false)))
      (fun t => decide ((t.job 0).capture.map (fun c => (c.frozen, c.torn)) = some (false, []))) = true := by decide +kernel
theorem test_snap_seal : let s := taking (froze false false)
    (s.job 0).capture = some (froze false false) ∧ (froze false false).snap = some (snap 1 0) ∧ s.cmd 0 5 = some take ∧
    untouched take ∧ cqOpen s 0 ∧ (snap 1 0).set < 16 ∧ (froze false false).torn = [] := by decide +kernel
theorem test_snap_lost : let s := taking (froze false true)
    (s.job 0).capture = some (froze false true) ∧ (froze false true).lost = true ∧
    tells (exec (.snapSeal 0) s) (0x2040, 0, 0) = true := by decide +kernel
theorem test_no_seal : (∀ cap x, ((taking (froze true false)).job 0).capture = some cap → cap.snap = some x → cap.frozen = true) := by
  intro cap x h _; cases h; rfl
theorem test_snap_list : let c := cmd 0x3002 [(32, 8, 0x10000), (40, 4, 64), (44, 1, 1)]
    startable (bindOne c) 0 0x3002 c ∧ untouched c ∧ (bindOne c).bit 0 CLR_STAT_READY = true ∧ c.opnd 40 4 ≠ 0 ∧
    c.opnd 40 4 % 64 = 0 ∧ bitN (c.opnd 44 1) 0 = true ∧ tells (exec (.snapList 0) (bindOne c)) (0, 16, 0) = true := by decide +kernel
theorem test_recovery : let s := on.setFld 0 CLR_STAT_RECOVERING 1
    s.bit 0 CLR_STAT_RECOVERING = true ∧ s.bit 0 CLR_STAT_LOCKED = false ∧ s.power.charged = true ∧
    aux.bit 0 CLR_STAT_RECOVERING = false ∧
    after (exec .cellarRecovery s) (fun t => decide (t.cellar.lost = 0)) = true := by decide +kernel
theorem test_deadline : let c := cmd 0x1001 [(16, 8, 100)]
    let s := { one c with ts := 100 }
    s.cmd 0 5 = some c ∧ c.deadline ≠ 0 ∧ c.deadline ≤ s.ts ∧ c.done = false ∧ c.outcomes = [] ∧ c.started = false ∧
    c.seq < 2 ^ 32 ∧ s.bit 0 KGR_QSTAT_RESETTING = false ∧ cqOpen s 0 ∧
    tells (exec (.deadlineExpiry 0 5) s) (0x1010, 0, 0) = true := by decide +kernel
/-- A COPY at work whose deadline is the present time; the same a nanosecond before. -/
theorem test_deadline_copy : let c := { cmd 0x1000 [(16, 8, 100)] with started := true }
    let s := { one c with ts := 100 }
    s.cmd 0 5 = some c ∧ c.deadline ≤ s.ts ∧ c.done = false ∧ 0x1010 ∉ c.outcomes ∧ c.started = true ∧ c.op = 0x1000 ∧
    after (exec (.deadlineExpiry 0 5) s) (fun t => decide ((t.qp 0).cmds.map Cmd.outcomes = [[0x1010]])) = true ∧
    after (exec (.deadlineExpiry 0 5) { s with ts := 99 }) (fun t => decide (t = { s with ts := 99 })) = true := by decide +kernel
theorem test_job_reset : let s := { on with qps := [(0, { cmds := [cmd 0 []] })] }
    s.bit 0 KGR_QSTAT_RESETTING = false ∧ (∀ c ∈ (s.qp 0).cmds, opTwo c.op = true → c.want = 0) ∧ s.bit 0 HUB_STATUS_FATAL = false ∧
    s.bit 0 HUB_FLT_JOB_ROLLING = false ∧ (s.job 0).capture = none ∧ s.runOf 0 = none ∧ s.bit 0 KGR_QSTAT_ENABLED = false ∧
    after (exec (.keagerJobReset 0) s) (fun t => decide (t.bit 0 KGR_QSTAT_RESETTING = true ∧
      (t.qp 0).cmds.map Cmd.outcomes = [[0x1007]])) = true := by decide +kernel
theorem test_job_reset_end : let s := pair.setFld 0 KGR_QSTAT_RESETTING 1
    s.bit 0 KGR_QSTAT_RESETTING = true ∧ s.runOf 0 = none ∧ pair.bit 0 KGR_QSTAT_RESETTING = false ∧
    after (exec (.keagerJobReset 0) s) (fun t => decide (t = s)) = true := by decide +kernel

/-! ## Security over Keager -/

/-- An ATTEST at module scope to address 0x10000, a GET_CERT into a buffer of `n` bytes. -/
def attest : Cmd := cmd 0x5000 [] (some (block 64 [(40, 8, 0x10000)]))
def getCert (n : Nat) : Cmd := cmd 0x5004 [] (some (block 64 [(0, 8, 0x10000), (8, 4, n)]))
theorem test_attest : untouched attest ∧ cqOpen (one attest) 0 ∧ attest.parts = 0 ∧ startable (one attest) 0 0x5000 attest ∧
    attest.blk 34 6 = 0 ∧ attest.blk 48 16 = 0 ∧ attest.blk 40 8 % 4096 = 0 := by decide +kernel
/-- Job scope of a slot without a binding: ATTEST and GET_CERT are refused. -/
theorem test_attest_refused : let c := cmd 0x5000 [] (some (block 64 [(32, 1, 1), (40, 8, 0x10000)]))
    let g := cmd 0x5004 [] (some (block 64 [(12, 1, 1), (8, 4, 4096)]))
    startable (one c) 0 0x5000 c ∧ c.blk 34 6 = 0 ∧ c.blk 48 16 = 0 ∧ startable (one g) 0 0x5004 g ∧ g.blk 14 50 = 0 := by decide +kernel
theorem test_attest_scope : (one attest).attestScope (attest.blk 32 1) (attest.blk 33 1) = .ok none := rfl
theorem test_get_cert : untouched (getCert 0) ∧ startable (one (getCert 0)) 0 0x5004 (getCert 0) ∧ (getCert 0).blk 14 50 = 0 := by
  decide +kernel
theorem test_get_cert_scope : (one (getCert 0)).attestScope ((getCert 0).blk 12 1) ((getCert 0).blk 13 1) = .ok none := rfl
/-- A chain that fits its buffer and one that does not. -/
theorem test_cert_sizes : (getCert 0).blk 8 4 = 0 ∧ (getCert 4294967295).blk 8 4 = 4294967295 ∧
    startable (one (getCert 4294967295)) 0 0x5004 (getCert 4294967295) := by decide +kernel
/-- A token of the debug signer for the module's identity and nonce, both zero here: KIND and LEVEL. -/
def token (kind level : Nat) : List Byte := block 3456 [(0, 4, 0x4E4B544B), (4, 2, 1), (6, 1, kind), (7, 1, level), (72, 1, 1)]
theorem test_debug_enter : let c := cmd 0x5001 [] (some (token 1 1))
    let s := (one c).setFld 0 SEC_STAT_NONCE_VALID 1
    untouched c ∧ startable s 0 0x5001 c ∧ s.sec.d2wait = none ∧ tokenForm (c.param.getD []) 1 = true ∧
    leAt (c.param.getD []) 7 1 = 1 ∧ leAt (c.param.getD []) 72 1 = s.signer ∧ s.level = 0 ∧ s.tokenBound (c.param.getD []) = true := by
  decide +kernel
/-- A token for D2 in P0 with nothing else outstanding; a block that is no token. -/
theorem test_debug_two : let c := cmd 0x5001 [] (some (token 1 2))
    let b := cmd 0x5001 [] (some (zeros 3456))
    let s := (one c).setFld 0 SEC_STAT_NONCE_VALID 1
    startable s 0 0x5001 c ∧ leAt (c.param.getD []) 7 1 = 2 ∧ tokenForm (c.param.getD []) 1 = true ∧
    s.tokenBound (c.param.getD []) = true ∧ s.pstate = 0 ∧ s.lowPower = false ∧ s.outstanding isWork = false ∧ (s.qp 0).cmds = [c] ∧
    startable (one b) 0 0x5001 b ∧ tokenForm (b.param.getD []) 1 = false ∧ tells (exec (.debugEnter 0) (one b)) (0x3002, 0, 0) = true := by
  decide +kernel
theorem test_debug_exit : let c := cmd 0x5002 []
    untouched c ∧ startable (one c) 0 0x5002 c ∧ (one c).level = 0 ∧ tells (exec (.debugExit 0) (one c)) (0x3007, 0, 0) = true ∧
    startable (withCmd (pair.setFld 0 SEC_STAT_LEVEL 1) c) 0 0x5002 c ∧ (withCmd (pair.setFld 0 SEC_STAT_LEVEL 1) c).level ≠ 0 := by
  decide +kernel
theorem test_enter_return : let c := cmd 0x5003 [] (some (token 2 0))
    let s := (one c).setFld 0 SEC_STAT_NONCE_VALID 1
    startable s 0 0x5003 c ∧ tokenForm (c.param.getD []) 2 = true ∧ leAt (c.param.getD []) 72 1 = s.signer ∧ s.lowPower = false ∧
    s.outstanding isWork = false ∧ s.tokenBound (c.param.getD []) = true ∧ s.nvm.returned = false := by decide +kernel
/-- A MARCH_PRESERVING of the last bank; of an owned one; of a bank that is none. -/
def march (code : Nat) : Cmd := cmd 0x6000 [(32, 1, 3), (34, 2, code)]
theorem test_march : let c := march 1039
    let s := (one c).setFld (bankAt 3263) BANK_STAT_READY 1
    startableBy s 0 (fun x => x.op == 0x6000 && s.marchFree x) c ∧ c.opnd 32 1 < 4 ∧ c.opnd 36 1 ≤ 1 ∧ s.inService 3 = true ∧
    s.bankOfCode 3 1039 = some 3263 ∧ s.fld (bankAt 3263) BANK_OWN_OWNER = 0 ∧ s.pstate = 0 ∧ s.bit (bankAt 3263) BANK_STAT_READY = true ∧
    after (exec (.marchPreserving 0) s) (fun t => decide (t.fld (bankAt 3263) BANK_OWN_OWNER = 5 ∧
      (t.die 3).marches = [⟨3263, 0, 5⟩])) = true := by decide +kernel
theorem test_march_refused : let s := (one (march 1039)).setFld (bankAt 3263) BANK_OWN_OWNER 1
    startableBy s 0 (fun x => x.op == 0x6000 && s.marchFree x) (march 1039) ∧ s.fld (bankAt 3263) BANK_OWN_OWNER ≠ 0 ∧
    startableBy (one (march 1040)) 0 (fun x => x.op == 0x6000 && (one (march 1040)).marchFree x) (march 1040) ∧
    (one (march 1040)).bankOfCode 3 1040 = none ∧ untouched (march 1039) ∧ cqOpen s 0 ∧
    tells (exec (.marchPreserving 0) s) (0x1020, 0, 0) = true ∧
    tells (exec (.marchPreserving 0) (one (march 1040))) (0x1021, 0, 0) = true := by decide +kernel
/-- A march that ends: no failing row; the last usable spare row taken. -/
theorem test_march_done : let c := { march 1039 with started := true }
    let s := ((one c).setFld (bankAt 3263) BANK_OWN_OWNER 5).modDie 3 (fun x => { x with marches := [⟨3263, 0, 5⟩] })
    (s.die 3).marches.find? (fun m => m.bank == 3263) = some ⟨3263, (0 : Slot).val, 5⟩ ∧ bankDie 3263 = 3 ∧
    s.fld (bankAt 3263) BANK_OWN_OWNER = 5 ∧ (failingRows ⟨3263, 0, []⟩).length ≤ (s.usable ⟨3263, 0, []⟩).length ∧
    (failingRows ⟨3263, 0x7FFF, [9]⟩).length = 1 ∧ (s.usable ⟨3263, 0x7FFF, [9]⟩).length = 1 ∧
    (s.qp 0).cmds.find? (fun x => x.started && x.op == 0x6000 && x.seq == c.seq) = some c ∧ s.cmd 0 5 = some c ∧ untouched c ∧ cqOpen s 0 ∧
    tells (exec (.marchDone 3 ⟨3263, 0, []⟩) s) (0, 16, 0) = true ∧
    tells (exec (.marchDone 3 ⟨3263, 0x7FFF, [9]⟩) s) (0, 16, 1) = true := by decide +kernel
/-- Outside a march and a self-test; in a self-test a bank of the spare with more failing rows than usable spares. -/
theorem test_march_none : let s := (on.modDie 3 (fun x => { x with testing := true })).setFld (bankAt 2448) BANK_STAT_FAILED 0
    (on.die 3).marches = [] ∧ (on.die 3).testing = false ∧ on.fld 0 HUB_BRINGUP_CURRENT ≠ 3 ∧ (s.die 3).testing = true ∧
    (s.die 3).marches = [] ∧ bankDie 2448 = 3 ∧ bankIsStore 2448 = false ∧ s.spareSlot 3 (2448 % 816 / 8) = none ∧
    s.bit (bankAt 2448) BANK_STAT_FAILED = false ∧
    after (exec (.marchDone 3 ⟨3263, 0, []⟩) on) (fun t => decide (t = on)) = true := by decide +kernel

/-! ## Banks, the scrub and the attic -/

/-- A bank given to the host at D2. -/
def hostBank : State := levelTwo.setFld (bankAt 7) BANK_OWN_OWNER 6
theorem test_bank_own : on.d2 = false ∧ levelTwo.d2 = true ∧ levelTwo.bit (bankAt 7) BANK_OWN_PENDING = false ∧
    on.serves (bankAt 7) = true ∧ (on.setFld 0 HUB_DIE_STATE_STATE 5).serves (bankAt 7) = false ∧
    after (exec (.bankOwnWrite 7 6) on) (fun t => decide (t = on)) = true ∧
    after (exec (.bankOwnWrite 7 6) levelTwo) (fun t => decide (t.fld (bankAt 7) BANK_OWN_OWNER = 6)) = true ∧
    after (exec (.bankOwnWrite 7 3) levelTwo) (fun t => decide (t = levelTwo)) = true ∧ bitN 16 4 = true ∧
    after (exec (.bankOwnWrite 7 16) (on.setFld (bankAt 7) BANK_OWN_REFUSED 1)) (fun t => !t.bit (bankAt 7) BANK_OWN_REFUSED) = true := by
  decide +kernel
theorem test_bank_own_pending : let s := levelTwo.setFld (bankAt 7) BANK_OWN_PENDING 1
    s.d2 = true ∧ bitN 6 4 = false ∧ s.bit (bankAt 7) BANK_OWN_PENDING = true ∧
    after (exec (.bankOwnWrite 7 6) s) (fun t => decide (t.fld (bankAt 7) BANK_OWN_OWNER = 0 ∧
      t.fld (bankAt 7) BANK_OWN_REFUSED_CODE = 6 ∧ t.fld (bankAt 7) BANK_CNT_REFUSED_V = 1)) = true := by decide +kernel
/-- One interval gives store-room bank 0 of CD0 to the DMA engines (code 2) from position 0 of phase 0 to position 9. -/
def owning : Mem := ((image 0 0).write 276 [1]).write 0x50000 (bytesLE 1 0 ++ [8] ++ bytesLE 2 0xFFFF ++ [0, 2, 0, 0] ++ bytesLE 4 0 ++ bytesLE 4 9)
/-- The boundary at the start of phase 0, done and not done. -/
theorem test_handover : let s := job owning base
    (s.job 0).run = some base ∧ (s.job 0).binding = some (bound owning) ∧ base.parked = false ∧ base.spilled = false ∧
    base.posted = false ∧ base.map.contains (bankDie 800) = true ∧ bitN base.failed (bankDie 800) = false ∧
    s.due base owning 800 = some (boundaryOf 0 0, 2) ∧ Tab.getD base.handed (s.planBank base 800) 0 < boundaryOf 0 0 ∧
    s.mayOwn 800 2 = true ∧
    after (exec (.handoverWrite 0 800) s) (fun t => decide (t.fld (bankAt 800) BANK_OWN_OWNER = 2 ∧
      t.bit (bankAt 800) BANK_OWN_JOB_VALID = true) &&
      after (exec (.handoverWrite 0 800) t) (fun u => decide (u.regs = t.regs))) = true := by decide +kernel
/-- The end of the interval takes the bank away: code 0. -/
theorem test_handover_ends : let r := { base with queues := [(96, { pos := 9 })] }
    (job owning r).due r owning 800 = some (boundaryOf 0 9, 0) := by decide +kernel
/-- A boundary that waits for an access, and a bank for which none is due. -/
theorem test_handover_waits : let s := (job owning base).setFld (bankAt 800) BANK_OWN_PENDING 1
    s.mayOwn 800 2 = false ∧ s.due base owning 801 = none ∧
    after (exec (.handoverWrite 0 800) s) (fun t => decide (t.fld (bankAt 800) BANK_CNT_HANDOVER_WAIT_V = 1)) = true := by
  decide +kernel
theorem test_bank_window : hostBank.dbgAt 7 = some 0 ∧ hostBank.fld (bankAt 7) BANK_OWN_OWNER = 6 ∧
    (hostBank.setFld (bankAt 7) BANK_STAT_READY 1).bit (bankAt 7) BANK_STAT_READY = true ∧
    after (exec (.bankDbgWrite 7 0x102) (hostBank.setFld (bankAt 7) BANK_STAT_READY 1)) (fun t =>
      after (exec (.bankDbgRead 7) t) (fun u => decide (u.rd.data = [2, 1, 0, 0, 0, 0, 0, 0]))) = true ∧
    levelTwo.fld (bankAt 7) BANK_OWN_OWNER ≠ 6 ∧ levelTwo.dbgAt 7 = some 0 ∧
    after (exec (.bankDbgRead 7) levelTwo) (fun t => decide (t.bit (bankAt 7) BANK_STAT_NONOWNER = true ∧
      t.fld (bankAt 7) BANK_CNT_NONOWNER_V = 1)) = true := by decide +kernel
theorem test_window_beyond : let s := (hostBank.setFld (bankAt 7) BANK_DBG_ADDR_WORD 163840)
    s.dbgAt 7 = none ∧ (hostBank.setFld (bankAt 7) BANK_DBG_ADDR_WORD 163839).dbgAt 7 = some 655352 ∧ s.serves (bankAt 7) = true ∧ (s.setFld 0 HUB_STATUS_FATAL 1).serves (bankAt 7) = false := by decide +kernel
theorem test_arr_inject : on.serves (arrAt 1 5 2) = true ∧ after (exec (.arrInject 1 5 2 0x101) levelTwo) (fun t => decide (Tab.find (t.core 1 5).armed 2 = some 0x101)) = true ∧
    after (exec (.arrInject 1 5 2 0x100) levelTwo) (fun t => decide (t = levelTwo)) = true ∧
    after (exec (.arrInject 1 5 2 0x101) on) (fun t => decide (t = on)) = true := by decide +kernel
theorem test_bank_power : let s := levelTwo.setFld (bankAt 7) BANK_STAT_READY 1
    s.d2 = true ∧ 2 % 4 ≠ 3 ∧ s.serves (bankAt 7) = true ∧ s.backPending 7 = false ∧ Tab.find s.bankTrans 7 = none ∧ s.bankPwr 7 ≠ 2 ∧ s.bit (bankAt 7) BANK_OWN_PENDING = false ∧
    after (exec (.bankPwrReqWrite 7 3) s) (fun t => decide (t = s)) = true ∧
    after (exec (.bankPwrReqWrite 7 2) s) (fun t => decide (t.bankPwr 7 = 3 ∧ Tab.find t.bankTrans 7 = some 2)) = true := by
  decide +kernel
theorem test_bank_wakes : let s := { on.setFld (bankAt 7) BANK_CTRL_PWR_REQ 2 with bankTrans := [(7, 2)], shelf := ({} : Mem).write (bankKey 7) [9] }
    Tab.find s.bankTrans 7 = some 2 ∧ s.fld (bankAt 7) BANK_CTRL_PWR_REQ = 2 % 4 ∧
    after (exec (.bankPowerTransition 7) s) (fun t => decide (t.bankPwr 7 = 2 ∧ t.bankRead 7 0 1 = [0])) = true := by decide +kernel
/-- A request that waited begins later; one that changed during its transition begins the next. -/
theorem test_bank_later : let s := on.setFld (bankAt 7) BANK_CTRL_PWR_REQ 1
    let n := { s with bankTrans := [(7, 2)] }
    Tab.find s.bankTrans 7 = none ∧ s.bankPwr 7 ≠ 1 ∧ s.fld (bankAt 7) BANK_CTRL_PWR_REQ = 1 ∧ s.bit (bankAt 7) BANK_OWN_PENDING = false ∧
    s.backPending 7 = false ∧ n.fld (bankAt 7) BANK_CTRL_PWR_REQ ≠ 2 % 4 ∧
    after (exec (.bankPowerTransition 7) s) (fun t => decide (t.bankPwr 7 = 3)) = true ∧
    after (exec (.bankPowerTransition 7) n) (fun t => decide (t.bankPwr 7 = 3 ∧ Tab.find t.bankTrans 7 = some 9)) = true := by
  decide +kernel
/-- The last byte of a shelf bank; one further does nothing. -/
theorem test_ecc : let s := on.setFld (bankAt 7) BANK_STAT_READY 1
    655359 < bankBytes 7 ∧ s.bit (bankAt 7) BANK_STAT_READY = true ∧ bankBytes 7 ≤ 655360 ∧ on.bit (bankAt 7) BANK_STAT_READY = false ∧
    (∀ d, d < 4 → (s.die d).backs = []) ∧ s.dies = [] ∧
    after (exec (.eccWriteback 7 (.uncorrectable 655359)) s) (fun t => decide (t.bankPoisoned 7 655359 1 = true ∧
      t.fld (bankAt 7) BANK_ECC_GRANULE = 10239 ∧ t.backPending 7 = true) &&
      after (exec (.eccWriteback 7 (.writeBack 655352)) t) (fun u => !u.backPending 7)) = true ∧
    after (exec (.eccWriteback 7 (.uncorrectable 655360)) s) (fun t => decide (t = s)) = true ∧
    after (exec (.eccWriteback 7 (.corrected 0)) s) (fun t => decide (t.fld (bankAt 7) BANK_CNT_CE_V = 1 ∧ t.shelf = s.shelf)) = true ∧
    after (exec (.eccWriteback 7 (.copies 0 3)) s) (fun t => t.bankPoisoned 7 0 1) = true ∧
    after (exec (.eccWriteback 7 (.copies 0 4)) s) (fun t => decide (t.bankPoisoned 7 0 1 = false ∧
      t.fld (bankAt 7) BANK_CNT_CE_V = 1)) = true := by
  decide +kernel
theorem test_scrub : let s := on.setFld 0 LDR_SCRUB_EN 1
    s.bit 0 LDR_SCRUB_EN = true ∧ (on.setFld 0 LDR_SCRUB_EN 0).bit 0 LDR_SCRUB_EN = false ∧ laPopulated (499999999 * 64) = true ∧ laPopulated (500000000 * 64) = false ∧
    after (exec (.patrolScrub 33 .uncorrectable) s) (fun t => decide (t.larder.poison = [33] ∧
      t.bit 0 LDR_DEV_STAT_UE (larderDevice (33 * 64)) = true)) = true ∧
    after (exec (.patrolScrub 500000000 .corrected) s) (fun t => decide (t = s)) = true ∧
    ({ s with larder := { poison := [33] } } : State).larder.poisoned (33 * 64) = true ∧
    after (exec (.patrolScrub 33 .clean) { s with larder := { poison := [33] } }) (fun t => t.bit 0 LDR_POISON_LOG_VALID) = true := by
  decide +kernel
/-- An attic request of a COPY, for the larder where it reads. -/
def request (w : Bool) : AtticReq :=
  { id := 3, port := 0, write := w, aa := 128, addr := 256, data := if w then List.replicate 64 7 else [], cmd := some 5 }
/-- `on` with that request, at time `ts`, the limit of port 0 10 µs. -/
def requested (w : Bool) (ts : Nat) : State :=
  { (on.setFld 0 ATC_STAT_UP 1).setFld 0 ATC_CTRL_TIMEOUT_US 10 with
    ts := ts, attics := [request w], atticNext := 4, attic := { cells := [(130, 9)] } }
/-- The answer just before the edge, the time just before the limit and at it; the answer after the edge. -/
theorem test_attic_write : (requested true 9997).attics.find? (fun x => x.id == 3 && x.sent) = some (request true) ∧
    (request true).slot < 64 ∧ (request true).write = true ∧ (request true).port < 2 ∧ (requested true 9997).atticLimit 0 = 10000 ∧
    9997 + 3 ≤ 0 + 10000 ∧ 0 + 10000 < 9999 + 2 ∧ (request true).data.length % 64 = 0 ∧
    after (exec (.atticTimeout 3) (requested true 9999)) (fun t => decide (t = requested true 9999)) = true := by decide +kernel
theorem test_attic_read : (requested false 10000).attics.find? (fun x => x.id == 3 && x.sent) = some (request false) ∧
    (request false).write = false ∧ (request false).tier = 2 ∧ (request false).denied = false ∧ (request false).bytes % 64 = 0 ∧
    ({ request false with denied := true } : AtticReq).tier = 2 ∧
    after (exec (.atticTimeout 3) (requested false 10000)) (fun t => decide (t.larder = { poison := [4] } ∧
      t.bit 0 ATC_ERR_TIMEOUT = true)) = true := by decide +kernel
/-- A write of a packed row of 16 B. -/
theorem test_attic_row : ({ request true with data := List.replicate 16 7 } : AtticReq).data.length % 64 ≠ 0 := by decide +kernel
theorem test_attic_down : (requested true 5).bit 0 ATC_STAT_UP = true ∧ (∀ q ∈ (requested true 5).attics, q.slot < 64) ∧
    after (exec (.atticLinkDown 0) (requested true 5)) (fun t => decide (t.bit 0 ATC_STAT_UP = false ∧
      t.bit 0 ATC_STAT_DOWN_SEEN = true ∧ t.attics = [])) = true ∧
    (requested true 5).attics = [request true] ∧ on.bit 0 ATC_STAT_UP 0 = false ∧ on.attics = [] := by decide +kernel
theorem test_attic_retrain : let s := on.setFld 0 ATC_CAP_BYTES 1024 1
    s.bit 0 ATC_STAT_UP 1 = false ∧ s.fld 0 ATC_CAP_BYTES 1 ≠ 0 ∧ s.power.atticOut / 2 % 2 = 0 ∧
    after (exec (.atticPortRetrain 1 true 1024) s) (fun t => t.bit 0 ATC_STAT_UP 1) = true ∧
    after (exec (.atticPortRetrain 1 true 512) s) (fun t => decide (t.regs = s.regs)) = true := by decide +kernel

/-! ## Links, dies and cores -/

/-- `on` with couch link CD3 to CD0 up, and its direction 0 at `n` replays. -/
def linked (n : Nat) : State := { on.setLink 3 RING_LINK_STAT_UP 1 with links := [(6, { replays := n })] }
theorem test_link_flit : (linked 15).linkRuns 3 = true ∧ ((linked 15).linkSt 6).replays < 16 ∧
    after (exec (.linkFlitReceive ⟨3, 0⟩ true) (linked 15)) (fun t => decide ((t.linkSt 6).replays = 0)) = true ∧
    after (exec (.linkFlitReceive ⟨3, 0⟩ false) (linked 15)) (fun t => decide ((t.linkSt 6).replays = 16 ∧ t.linkRuns 3 = true ∧
      t.fld (dieAt 3) RING_LINK_CNT_REPLAY_V = 1)) = true ∧
    after (exec (.linkFlitReceive ⟨3, 0⟩ false) (linked 16)) (fun t => decide (t.linkRuns 3 = false ∧ t.linkUp 3 = false)) = true ∧
    after (exec (.linkHandshakeTimeout ⟨3, 1⟩ true) (linked 0)) (fun t => decide (t.fld (dieAt 0) RING_LINK_CNT_LATE_V 1 = 1)) = true := by
  decide +kernel
/-- Couch link CD3 to CD0 has gone down, and the hub link of CD2. -/
def fallen : State := { on with links := [(6, { held := 1 }), (12, { held := 1 })] }
theorem test_link_retrain : fallen.linkDown 3 = true ∧ fallen.linkDown 6 = true ∧ fallen.jobs = [] ∧ fallen.inService 2 = true ∧
    atRest fallen ∧ after (exec (.linkRetrain 3 true) fallen) (fun t => decide (t.linkDown 3 = false ∧ t.linkUp 3 = true)) = true ∧
    after (exec (.linkRetrain 3 false) fallen) (fun t => decide (t.linkOk 3 = false ∧ t.bit (dieAt 1) RING_STAT_DEGRADED = true)) = true := by
  decide +kernel
/-- A run on CD0 that a ring timeout struck; a die of no such run; dies with nothing bound to them. -/
theorem test_peer : (job (image 0 0) { base with outcomes := [(0, 0x2043)] }).silentPeer 0 0 = true ∧ on.silentPeer 0 3 = false ∧
    on.inService 3 = true ∧ atRest on ∧ on.qps = [] ∧ after (exec (.peerCheck 0 3 false true) on) (fun t => decide (t = on)) = true := by
  decide +kernel
theorem test_self_test : let s := on.setFld 0 HUB_DIE_STATE_STATE 2 3
    s.dieState 3 = 2 ∧ (s.die 3).testing = false ∧ (s.die 3).marches = [] ∧ s.power.main = true := by decide +kernel
theorem test_self_test_done : let s := (on.setFld 0 HUB_DIE_STATE_STATE 2 3).modDie 3 (fun x => { x with testing := true })
    (s.die 3).testing = true ∧ after (exec (.dieSelfTestDone 3 true) s) (fun t => decide (t.dieState 3 = 3)) = true ∧
    after (exec (.dieSelfTestDone 3 false) s) (fun t => decide (t.dieState 3 = 4)) = true := by decide +kernel
/-- CD0 with logical place 5 on core 7, and spare core 44 ready in quadrant 0. -/
def spared : State :=
  let s := (on.setFld (dieAt 0) DIE_CORE_MAP_MAPPED 1 5).setFld (dieAt 0) DIE_CORE_MAP_PHYS 7 5
  (s.setFld (dieAt 0) DIE_SPARE_Q_MAPPED 1).setFld (dieAt 0) DIE_SPARE_Q_PHYS 44
theorem test_heartbeat : spared.watched 0 7 = true ∧ spared.watched 0 8 = false ∧ spared.logicalOf 0 7 = some 5 ∧
    (spared.die 0).fills = [] ∧ spared.spareReady 0 0 = true ∧
    after (exec (.heartbeatTimeout 0 7 false) spared) (fun t => decide (t.fld (coreAt 0 7) CORE_HEALTH_CAUSE = 2 ∧
      (t.die 0).fills = [{ logical := 5, source := 7, cause := 2 }])) = true ∧
    after (exec (.heartbeatTimeout 0 7 true) spared) (fun t => decide (t.fld 0 HUB_FLT_CNT_LATE_V = 1 ∧ (t.die 0).fills = [])) = true := by
  decide +kernel
/-- The spare under fill loses its heartbeat, the spare of quadrant 1 being ready. -/
theorem test_spare_beat :
    let s := (((spared.setFld (dieAt 0) DIE_SPARE_Q_MAPPED 1 1).setFld (dieAt 0) DIE_SPARE_Q_PHYS 49 1).modDie 0 (fun x =>
      { x with fills := [{ logical := 5, source := 7, cause := 2, target := 44, stage := 2 }] }))
    s.watched 0 44 = true ∧ s.spareSlot 0 44 = some 0 ∧ s.spareReady 0 1 = true ∧
    after (exec (.heartbeatTimeout 0 44 false) s) (fun t => decide ((t.die 0).fills.map FillSt.stage = [0] ∧
      t.fld (dieAt 0) DIE_SPARE_Q_STATE = 3)) = true := by decide +kernel
theorem test_retire : let s := spared.modCore 0 7 (fun x => { x with retiring := true })
    s.inService 0 = true ∧ s.logicalOf 0 7 = some 5 ∧ s.fld (coreAt 0 7) CORE_HEALTH_STATE = 0 ∧ (s.die 0).fills = [] ∧
    s.retireDue 0 7 1 = true ∧ s.spareReady 0 0 = true ∧
    after (exec (.coreRetire 0 7 1) s) (fun t => decide (t.fld (coreAt 0 7) CORE_HEALTH_STATE = 2 ∧
      (t.die 0).fills = [{ logical := 5, source := 7, cause := 1 }])) = true := by decide +kernel
/-- A core that retires with nothing in flight; one of a die under self-test. -/
theorem test_retired : let s := spared.setFld (coreAt 0 7) CORE_HEALTH_STATE 2
    let d := spared.modDie 0 (fun x => { x with testing := true })
    s.logicalOf 0 7 = some 5 ∧ s.fld (coreAt 0 7) CORE_HEALTH_STATE = 2 ∧ s.coreBusy 0 5 = false ∧ (s.die 0).fills = [] ∧
    (d.die 0).testing = true ∧ d.spareFor 0 7 = some 0 ∧ d.fld (dieAt 0) DIE_SPARE_Q_PHYS = 44 ∧
    after (exec (.coreRetire 0 7 1) s) (fun t => decide ((t.die 0).fills.map FillSt.source = [7])) = true := by decide +kernel
/-- The fill of place 5, queued or after its check. -/
def filling (st : Nat) : FillSt := { logical := 5, source := 7, cause := 2, target := if st = 3 then 44 else 127, stage := st }
theorem test_fill : let s := spared.modDie 0 (fun x => { x with fills := [filling 0] })
    s.dieState 0 = 0 ∧ (s.die 0).fills = [filling 0] ∧ (filling 0).stage = 0 ∧ s.spareFor 0 7 = some 0 ∧
    s.fld (dieAt 0) DIE_SPARE_Q_PHYS = 44 ∧ s.fillWaits 0 7 = false := by decide +kernel
theorem test_map_switch : let s := spared.modDie 0 (fun x => { x with fills := [filling 3] })
    s.dieState 0 = 0 ∧ (s.die 0).fills = [filling 3] ∧ (filling 3).stage = 3 ∧ (filling 3).target < 100 ∧ s.spareSlot 0 44 = some 0 ∧
    s.phys 0 5 = 7 ∧ s.spareSlot 0 7 = none ∧ s.jobs = [] ∧
    after (exec (.fillMapSwitch 0) s) (fun t => decide (t.phys 0 5 = 44 ∧ t.fld (coreAt 0 7) CORE_HEALTH_STATE = 3)) = true := by
  decide +kernel

/-! ## Security and management -/

/-- The debug halt of core 5 of CD1, and of all its mapped cores. -/
theorem test_halt : let w := 1 + 5 * 4
    levelTwo.d2 = true ∧ levelTwo.bit 0 HUB_STATUS_FATAL = false ∧ bitN w 9 = false ∧ bitsN w 8 2 < 100 ∧ bitN w 11 = false ∧
    bitN w 10 = false ∧ bitN (w + 512) 9 = true ∧ (levelTwo.setFld (dieAt 1) DIE_CORE_MAP_MAPPED 1).bit (dieAt 1) DIE_CORE_MAP_MAPPED = true ∧
    after (exec (.halt w) on) (fun t => decide (t = on)) = true ∧
    after (exec (.halt w) levelTwo) (fun t => (t.core 1 5).halted && after (exec (.resume w) t) (fun u => !(u.core 1 5).halted)) = true := by
  decide +kernel

/-- A BAR0 request. -/
def req (msg : Nat) (p : List Byte) : MboxReq := ⟨.bar0, msg, 7, p⟩
/-- `s` with one request at the engine. -/
def served (s : State) (r : MboxReq) : State := { s with mbox := { queue := [r] } }
/-- A message over BAR0, and one over PCIe with the payload of a request. -/
def bar0 : MboxMsg := ⟨.bar0, 0, []⟩
def pcie (p : List Byte) : MboxMsg := ⟨.pcie, 7, p⟩
/-- Both ways to bring a request: at the engine, and by MCTP. -/
abbrev bothTake (s : State) (msg : Nat) (p : List Byte) : Prop :=
  mboxTakes (served s (req msg p)) bar0 (req msg p) msg ∧ mboxTakes s (pcie p) ⟨.pcie, msg, 7, p⟩ msg
theorem test_go : let s := { on with mbox := { buf := ({} : Mem).write 0 (mboxMessage 1 7 0 []) } }
    let r := req 1 []
    s.power.aux = true ∧ s.bit 0 HUB_STATUS_FATAL = false ∧ s.mbox.queue = [] ∧ s.mbox.buf.readN 0 2 ∈ mboxCodes ∧
    on.mbox.buf.readN 0 2 ∉ mboxCodes ∧ State.reset.power.aux = false ∧ r.path = .bar0 ∧ r.msg ∈ mboxCodes ∧
    after (exec .mboxGo s) (fun t => decide (t.mbox.queue = [r] ∧ t.bit 0 SEC_MBOX_STAT_BUSY = true)) = true ∧
    after (exec .mboxGo { s with mbox := { s.mbox with queue := [r] } }) (fun t => decide (t.mbox.queue = [r, r])) = true ∧
    after (exec .mboxGo { s with mbox := { s.mbox with queue := [r, r] } }) (fun t => decide (t.fld 0 SEC_MBOX_STAT_STATUS = 0x300F)) = true := by
  decide +kernel
/-- The status of the last reply. -/
def answers (o : Host.Outcome State Fault Refusal) (st : Nat) : Bool :=
  after o (fun t => decide (t.fld 0 SEC_MBOX_STAT_STATUS = st ∧ t.bit 0 SEC_MBOX_STAT_DONE = true ∧ t.mbox.queue = []))
theorem test_get_state : bothTake on 1 [] ∧ answers (exec (.getState bar0) (served on (req 1 []))) 0 = true ∧
    after (exec (.getState ⟨.pcie, 9, []⟩) on) (fun t => decide (t.mbox.queue = [] ∧ (t.mbox.replyPci).take 1 = [1])) = true := by
  decide +kernel
theorem test_mbox_nonce : bothTake on 5 [] ∧ (req 5 []).payload = [] := by decide +kernel
theorem test_mbox_attest : bothTake on 3 (zeros 64) ∧ (zeros 64).length = 64 ∧ leAt (zeros 64) 34 30 = 0 ∧
    leAt ((zeros 64).set 63 1) 34 30 ≠ 0 := by decide +kernel
theorem test_mbox_attest_scope : (served on (req 3 (zeros 64))).attestScope (leAt (req 3 (zeros 64)).payload 32 1)
    (leAt (req 3 (zeros 64)).payload 33 1) = .ok none := rfl
theorem test_mbox_cert : bothTake on 4 [0, 0] ∧ (req 4 [0, 0]).payload.length = 2 := by decide +kernel
theorem test_mbox_cert_scope : (served on (req 4 [0, 0])).attestScope (leAt (req 4 [0, 0]).payload 0 1)
    (leAt (req 4 [0, 0]).payload 1 1) = .ok none := rfl
/-- Payloads of wrong lengths: one byte where there is to be none, and a token short of a byte. -/
theorem test_mbox_length : bothTake on 5 [0] ∧ bothTake on 6 (zeros 3455) ∧ on.sec.d2wait = none ∧
    mboxLengths.any (fun e => e.1 == 5 && !e.2.2 1) = true ∧ mboxLengths.any (fun e => e.1 == 6 && !e.2.2 3455) = true ∧
    answers (exec (.mboxNewNonce bar0) (served on (req 5 [0]))) 0x1008 = true := by decide +kernel
theorem test_claim : bothTake on 2 (zeros 1952) ∧ (zeros 1952).length = 1952 ∧ on.secState = 0 ∧
    on.bit 0 SEC_STAT_CLAIM_SPOILED = false ∧ on.level = 0 ∧ on.nvm.claimed = false ∧ bothTake (on.setFld 0 SEC_STAT_CLAIM_SPOILED 1) 2 (zeros 1952) ∧
    (on.setFld 0 SEC_STAT_CLAIM_SPOILED 1).bit 0 SEC_STAT_CLAIM_SPOILED = true ∧
    answers (exec (.claim bar0 none) (served (on.setFld 0 SEC_STAT_CLAIM_SPOILED 1) (req 2 (zeros 1952)))) 0x300C = true := by decide +kernel
/-- Tokens for D1 and D2 in P0, the cellar at rest and not. -/
theorem test_mbox_debug_enter : let s := on.setFld 0 SEC_STAT_NONCE_VALID 1
    bothTake s 6 (token 1 1) ∧ s.sec.d2wait = none ∧ (token 1 1).length = 3456 ∧ tokenForm (token 1 1) 1 = true ∧
    leAt (token 1 1) 7 1 = 1 ∧ leAt (token 1 1) 72 1 = s.signer ∧ s.tokenState 1 1 = none ∧ s.tokenBound (token 1 1) = true ∧
    s.tokenState 1 2 = none ∧ s.tokenBound (token 1 2) = true ∧ leAt (token 1 2) 7 1 = 2 ∧ s.pstate = 0 ∧ s.cellarRests = true ∧
    (s.setFld 0 CLR_STAT_RECOVERING 1).cellarRests = false := by decide +kernel
theorem test_mbox_debug_exit : bothTake on 7 [] ∧ on.level = 0 ∧ answers (exec (.mboxDebugExit bar0) (served on (req 7 []))) 0x3007 = true ∧
    (on.setFld 0 SEC_STAT_LEVEL 1).level ≠ 0 ∧ bothTake (on.setFld 0 SEC_STAT_LEVEL 1) 7 [] := by decide +kernel
/-- The last byte of the staging area, and one beyond it. -/
theorem test_fw_write : let r := bytesLE 4 16777215 ++ [9]
    let q := bytesLE 4 16777216 ++ [9]
    bothTake on 0x10 r ∧ 4 ≤ r.length ∧ r.length ≤ 4100 ∧ leAt r 0 4 + (r.length - 4) ≤ 16777216 ∧
    16777216 < leAt q 0 4 + (q.length - 4) ∧ bothTake on 0x10 q ∧
    answers (exec (.fwWrite bar0) (served on (req 0x10 q))) 0x1005 = true ∧
    after (exec (.fwWrite bar0) (served on (req 0x10 r))) (fun t => decide (t.mbox.staging.cells = [(16777215, 9)])) = true := by decide +kernel
theorem test_fw_verify : bothTake on 0x11 [] ∧ (req 0x11 []).payload = [] := by decide +kernel
theorem test_fw_activate : let s := { on with nvm := { on.nvm with fwB := ⟨[1], 9, 0xB0, true⟩ } }
    bothTake s 0x12 [1] ∧ bothTake s 0x12 [2] ∧ (req 0x12 [1]).payload = [1] ∧
    answers (exec (.fwActivate bar0) (served s (req 0x12 [2]))) 0x1002 = true ∧
    after (exec (.fwActivate bar0) (served s (req 0x12 [1]))) (fun t => decide (t.nvm.svnMin = 9 ∧ t.nvm.fwA.svn = 9)) = true := by decide +kernel
theorem test_endpoint : after (exec (.setEndpointId .pcie 254) on) (fun t => decide (t.mbox.eidPci = 254) &&
      after (exec (.getEndpointId .pcie) t) (fun u => decide (u.mbox.replyPci = [0, 254, 0, 0]))) = true ∧
    after (exec (.setEndpointId .pcie 255) on) (fun t => decide (t.mbox.eidPci = 0)) = true := by decide +kernel
theorem test_mctp : after (exec (.getMctpVersionSupport .pcie 5) on) (fun t => decide (t.mbox.replyPci = [0x80])) = true ∧
    after (exec (.getMessageTypeSupport .pcie) on) (fun t => decide (t.mbox.replyPci = [0, 1, 0x7E] ∧
      t.regs = on.regs)) = true := by decide +kernel
theorem test_alert : (on.setFld 0 HUB_SB_STAT_ALERT 1).bit 0 HUB_SB_STAT_ALERT = true ∧ on.bit 0 HUB_SB_STAT_ALERT = false ∧
    after (exec .smbusAlertResponse (on.setFld 0 HUB_SB_STAT_ALERT 1)) (fun t => decide (t.mbox.replySmb = [0xB8])) = true := by
  decide +kernel

/-! ## Instructions of a plan -/

/-- A deckle of `r` × `c` elements without padding: buffer, format, address and pitch. -/
def dk (buf fmt sa pitch r c : Nat) : List Byte :=
  block 64 [(8, 2, buf), (10, 1, fmt), (12, 4, sa), (16, 4, pitch), (28, 4, r), (32, 4, c), (36, 4, r), (40, 4, c)]
/-- A buffer of CD0: tier, first byte, bytes; a shelf buffer stands on logical core 0. -/
def buf (tier base size : Nat) : List Byte :=
  block 32 [(0, 1, tier), (2, 2, if tier = 0 then 0 else 0xFFFF), (8, 8, base), (16, 8, size)]
/-- An image with deckles and buffers. -/
def tables (ds bs : List (List Byte)) : Mem := ((image ds.length bs.length).write 1024 ds.flatten).write 2048 bs.flatten
/-- An instruction with fields. -/
def ins (op : Nat) (fs : List (Nat × Nat × Nat)) : List Byte := block 32 ((0, 1, op) :: fs)
/-- `base` with a queue at work. -/
def atQueue (q : Nat) (st : QueueSt) : Run := { base with queues := [(q, st)] }
/-- J0 at work with one instruction in queue `q`. -/
def only (m : Mem) (q : Nat) (i : List Byte) : State := job (queued m q [i]) base
/-- Does the instruction at the front of a queue issue, and has it an opcode? -/
def front (s : State) (q op : Nat) : Bool :=
  match s.ctx 0 0 q with
  | none => false
  | some c => match c.next q with
    | some (pos, i) => decide (issuable s 0 0 q c pos i ∧ iOp i = op)
    | none => false
/-- Where a queue of J0's run stands, and how much is in flight. -/
def stands (t : State) (q : Nat) : Nat × Nat := match (t.job 0).run with
  | some r => ((r.queue 0 q).pos, (r.queue 0 q).fly.length)
  | none => (99, 99)
/-- Queue `q` of J0's run on CD0 has a property. -/
def onQueue (s : State) (q : Nat) (p : Ctx → Bool) : Bool := match s.ctx 0 0 q with | some c => p c | none => false
/-- Queue `q` moved past its instruction with `n` in flight. -/
def moved (o : Host.Outcome State Fault Refusal) (q n : Nat) : Bool := after o (fun t => decide (stands t q = (1, n)))

theorem test_sync : let s := only (image 0 0) 96 (ins 0 [(1, 1, 2), (4, 2, 9)])
    front s 96 0 = true ∧ moved (exec (.sync 0 0 96) s) 96 0 = true ∧
    after (exec (.sync 0 0 96) s) (fun t => decide ((t.job 0).run.map (fun r => Tab.getD r.tokens 9 0) = some 1)) = true := by
  decide +kernel
/-- An instruction that awaits a token does not issue before it (R225). -/
theorem test_sync_waits : let s := only (image 0 0) 96 (ins 0 [(1, 1, 1), (2, 2, 9), (10, 2, 1)])
    front s 96 0 = false ∧ after (exec (.sync 0 0 96) s) (fun t => decide (t = s)) = true := by decide +kernel
theorem test_yield : let s := only (image 0 0) 0 (ins 0x0A [(12, 2, 7)])
    front s 0 0x0A = true ∧ moved (exec (.yield 0 0 0) s) 0 0 = true := by decide +kernel
/-- A YIELD behind an instruction that is in flight waits, on CD0, which has not failed. -/
theorem test_yield_waits :
    let s := job (queued (image 0 0) 0 [ins 0x0A [(12, 2, 7)]]) (atQueue 0 { fly := [{ idx := 9, op := 2 }] })
    front s 0 0x0A = true ∧ onQueue s 0 (fun c => decide ((c.run.queue c.pd 0).fly ≠ [] ∧ c.run.poisonQ = [] ∧ c.atYield = none) &&
      c.run.map.any (fun e => !bitN c.run.failed e)) = true ∧
    after (exec (.yield 0 0 0) s) (fun t => decide (t = s)) = true := by decide +kernel
theorem test_tbl : let s := only (image 0 0) 0 (ins 3 [(12, 1, 2)])
    front s 0 3 = true ∧ (∀ m ∈ base.members, m < 64) ∧
    after (exec (.tbl 0 0 0) s) (fun t => decide ((Tab.find (t.core 0 (t.phys 0 0)).books 2).map List.length = some 16)) = true := by
  decide +kernel
/-- Two rows of 64 B, in two larder buffers. -/
def moves : Mem := tables [dk 0 10 0 64 2 16, dk 1 10 0 64 2 16] [buf 2 0 128, buf 2 4096 128]
theorem test_xfer : let s := only moves 96 (ins 8 [(15, 3, 1)])
    front s 96 8 = true ∧ s.freeEngine 0 = some 0 ∧ moved (exec (.xfer 0 0 []) s) 96 1 = true := by decide +kernel
/-- A transfer to the attic, and one that finds no engine free. -/
def store : Mem := tables [dk 0 10 0 64 2 16, dk 1 10 0 64 2 16] [buf 2 0 128, buf 3 4096 128]
theorem test_xfer_attic : let s := only store 96 (ins 8 [(15, 3, 1)])
    front s 96 8 = true ∧ onQueue s 96 (fun c => decide ((s.xferEnds c (c.ins c.pd 96 0)).2.place.tier = 3)) = true := by decide +kernel
theorem test_xfer_waits : let s := (List.range 8).foldl (fun s e => s.setFld (dieAt 0) DIE_DMA_STAT_BUSY 1 e) (only moves 96 (ins 8 [(15, 3, 1)]))
    front s 96 8 = true ∧ s.freeEngine 0 = none ∧ after (exec (.xfer 0 0 []) s) (fun t => decide (t = s)) = true := by decide +kernel
theorem test_pwr : let s := only (image 0 0) 96 (ins 9 [(12, 2, 100)])
    front s 96 9 = true ∧ moved (exec (.pwr 0 0) s) 96 1 = true ∧
    moved (exec (.pwr 0 0) (s.setFld 0 PWR_DIE_DRAW 100)) 96 0 = true := by decide +kernel
theorem test_red : let s := only (tables [] [buf 2 0 4160, buf 2 8192 4160]) 96 (ins 4 [(14, 2, 1), (16, 2, 0xFFFF), (18, 2, 3)])
    front s 96 4 = true ∧ moved (exec (.red 0 0) s) 96 1 = true := by decide +kernel

/-- One element of FP32 in each of five larder buffers; a VEC of an operation on all the operands that its row names. -/
def scalars : Mem := tables ((List.range 5).map (fun k => dk k 10 0 64 1 1)) ((List.range 5).map (fun k => buf 2 (256 * k) 64))
def vec (vop present : Nat) : List Byte := ins 2 [(12, 1, vop), (14, 3, 0), (17, 3, 1), (20, 3, 2), (23, 3, 3), (26, 3, 4), (31, 1, present)]
theorem test_vec_issues : ∀ row ∈ vecRows.take 3, front (only scalars 0 (vec row.1 31)) 0 2 = true := by decide +kernel
theorem test_measure_fold : (match (only scalars 0 (vec 1 9)).ctx 0 0 0 with
    | some c => decide (c.phys = 0)
    | none => false) = true ∧
    after (exec (.measureFold 0 0 0) (only scalars 0 (vec 1 9))) (fun t => decide ((t.core 0 0).measure = [])) = true := by decide +kernel
/-- A closed gate: the layer that it names is not in the plan (R230). -/
def gatedAt (op vop : Nat) : State := only (image 0 0) 0 (ins op [(1, 1, 4), (12, 1, vop)])
theorem test_gated : ∀ row ∈ queueRows, (match (gatedAt 1 0).ctx 0 0 0 with
    | some c => match c.next 0 with
      | some (pos, i) => decide ((gatedAt 1 0).mayIssue c 0 pos i = true ∧ (gatedAt 1 0).fetchPoison c = none ∧
          (gatedAt 1 0).gated c i = true ∧ c.run.members.Nodup) && (row.1 i || iOp i == 1)
      | none => false
    | none => false) = true := by decide +kernel
theorem test_gated_vec : ∀ row ∈ vecRows.take 3, moved (exec (row.2 0 0 0) (gatedAt 2 row.1)) 0 0 = true := by decide +kernel
theorem test_gated_mma : moved (exec (.mma 0 0 0) (gatedAt 1 0)) 0 0 = true ∧ moved (exec (.tbl 0 0 0) (gatedAt 3 0)) 0 0 = true := by
  decide +kernel
/-- 1.0, 2.0 and 4.0 in the operands D0, D1 and D2 of `scalars`. -/
def numbers (vop present : Nat) : State :=
  { only scalars 0 (vec vop present) with larder := ((({} : Mem).write 0 (bytesLE 4 0x3F800000)).write 256 (bytesLE 4 0x40000000)).write 512 (bytesLE 4 0x40800000) }
/-- The tile at one element of the larder. -/
def single (c : Ctx) (s : State) (n : Nat) : Bool :=
  let x := s.tile c n
  x.place.tier == 2 && x.dk.rowsIn c.run.rtl == 1 && x.dk.colsIn c.run.rtl == 1
theorem test_elements : ∀ row ∈ elementRows.take 3, (match (numbers row.1 15).ctx 0 0 0 with
    | some c => match c.next 0 with
      | some (pos, i) => decide (issuable (numbers row.1 15) 0 0 0 c pos i ∧ iOp i = 2 ∧ vecOp i = row.1 ∧ vecDeckle i 3 = some 3 ∧
          fmtBits ((numbers row.1 15).tile c 3).dk.format = 32 ∧ bitN (vecMode i) 4 = false ∧ bitN (vecMode i) 5 = false ∧
          convRound (leAt i 29 1) ≠ 2) && (List.range 3).all (fun k => vecDeckle i k == some k) &&
          (List.range 4).all (single c (numbers row.1 15))
      | none => false
    | none => false) = true := by decide +kernel
/-- 1 + 2 = 3, 1 × 2 = 2 and 1 × 2 + 4 = 6. -/
theorem test_arithmetic : after (exec (.add 0 0 0) (numbers 2 11)) (fun t => decide (t.larder.readN 768 4 = 0x40400000)) = true ∧
    after (exec (.mul 0 0 0) (numbers 3 11)) (fun t => decide (t.larder.readN 768 4 = 0x40000000)) = true ∧
    after (exec (.fma 0 0 0) (numbers 4 15)) (fun t => decide (t.larder.readN 768 4 = 0x40C00000)) = true := by decide +kernel
/-- The largest finite E4M3 is 448, 2^-9 its least; the first of equal maxima wins, and a NaN wins at once. -/
theorem test_numbers : e4m3.dec 0x7E = .fin false 14 5 ∧ winner true [(0, 0x40000000), (1, 0x40000000), (2, 0)] = some (0, 0x40000000) ∧
    winner true [(0, 0x40000000), (1, 0x7FC00001)] = some (1, f32.nanBits) ∧ winner false [] = none ∧
    winner false [(0, 0), (1, 0x80000000)] = some (1, 0x80000000) ∧ f32.enc (f32.dec 0x3F800000) = 0x3F800000 := by decide +kernel

/-! ## The arrays -/

/-- One row of 32 INT4 activations, one column of weights and one FP32 result; an MMA of array 0 over them. -/
def products : Mem := tables [dk 0 0 0 16 1 32, dk 1 0 4096 16 32 1, dk 2 10 8192 64 1 1] [buf 0 0 64, buf 0 4096 1024, buf 0 8192 64]
def mma : List Byte := ins 1 [(12, 3, 0), (15, 3, 2), (18, 3, 1), (24, 1, 1), (25, 1, 4), (26, 2, 2)]
theorem test_mma : front (only products 0 mma) 0 1 = true ∧ ((only products 0 mma).core 0 0).mmas = [] ∧
    moved (exec (.mma 0 0 0) (only products 0 mma)) 0 1 = true := by decide +kernel
/-- That MMA in core 0 of CD0, the bank of its segment filled by one swap. -/
def inCore (f : MmaFly) : State :=
  (job (queued products 0 [mma]) (atQueue 0 { pos := 1, fly := [{ idx := 0, op := 1 }] })).modCore 0 0 (fun x => { x with mmas := [f] })
def sweptOnce : State := match exec (.weightBufferSwap 0 0 0 []) (inCore { lead := 0, idx := 0 }) with
  | .next t => t
  | _ => State.reset
def inBank (f : MmaFly) : State := sweptOnce.modCore 0 0 (fun x => { x with mmas := [f] })
/-- Is it the one at work, with one stream of a row of 32 products? -/
def atStage (s : State) (f : MmaFly) (p : Ctx → PInstr → Strm → Bool) : Bool :=
  match s.mmaOf 0 0 0 with
  | some (c, g, i) => match s.streams c i f.denied with
    | [t] => decide (g = f ∧ c.phys = 0) && p c i t
    | _ => false
  | none => false
/-- The oldest MMA afterwards. -/
def mmaAfter (o : Host.Outcome State Fault Refusal) (p : MmaFly → Bool) : Bool :=
  after o (fun t => match (t.core 0 0).mmas with | [f] => p f | _ => false)
/-- Its first load has its bank free, and no vote waits. -/
theorem test_swap : let s := inCore { lead := 0, idx := 0 }
    (match s.sweeper 0 0 0 with
      | some (c, place, f, ts) => decide (place = 0 ∧ f.sweeps ts = true ∧ f.pend = [] ∧ f.swaps % sliceCount ts = 0 ∧
          (∀ y ∈ arrsOf ts, Tab.find (s.core 0 c.phys).banks (y * 2 + f.seg % 2) = none) ∧ segLoads ts f.seg ≤ f.swaps + 1)
      | none => false) = true ∧ mmaAfter (exec (.weightBufferSwap 0 0 0 []) s) (fun f => decide (f.seg = 1 ∧ f.swaps = 0)) = true := by
  decide +kernel
/-- A second MMA behind one that has swept, and behind one that has not. -/
def pairOf (f : MmaFly) : State :=
  (job (queued (tables [dk 0 0 0 16 1 32, dk 1 0 4096 16 32 1, dk 2 10 8192 64 1 1, dk 3 10 12288 64 1 1]
      [buf 0 0 64, buf 0 4096 1024, buf 0 8192 64, buf 0 12288 64]) 0 [mma, putAt mma 15 (bytesLE 3 3)])
    (atQueue 0 { pos := 1, fly := [{ idx := 0, op := 1 }] })).modCore 0 0 (fun x => { x with mmas := [f] })
theorem test_mma_behind : let s := pairOf { lead := 0, idx := 0, seg := 1 }
    front s 0 1 = true ∧ onQueue s 0 (fun c => match (s.core 0 0).mmas with
      | [f] => !f.sweeps (s.streams c (c.ins c.pd 0 f.idx) f.denied)
      | _ => false) = true ∧
    after (exec (.mma 0 0 0) s) (fun t => decide ((t.core 0 0).mmas.map MmaFly.idx = [0, 1])) = true := by decide +kernel
theorem test_mma_waits : let s := pairOf { lead := 0, idx := 0 }
    front s 0 1 = true ∧ onQueue s 0 (fun c => match (s.core 0 0).mmas with
      | [f] => f.sweeps (s.streams c (c.ins c.pd 0 f.idx) f.denied) && decide (f.swaps = 0)
      | _ => false) = true ∧ after (exec (.mma 0 0 0) s) (fun t => decide (t = s)) = true := by decide +kernel
/-- Every weight set swept, no mismatch armed, extents within an array's. -/
def swept : MmaFly := { lead := 0, idx := 0, seg := 1 }
theorem test_drain : atStage (inBank swept) swept (fun _ _ t => decide (t.act.dk.shapeR = 1 ∧ t.wgt.dk.shapeC = 1 ∧ 0 < t.swept 0 ∧
      t.failing ((Tab.getD (sweptOnce.core 0 0).banks (t.arr * 2) []).getD 0 ⟨[], []⟩) = none)) = true ∧
    swept.stage = 0 ∧ swept.drained < swept.seg ∧ ((inBank swept).core 0 0).armed = [] ∧
    mmaAfter (exec (.segmentDrain 0 0 0 []) (inBank swept)) (fun f => decide (f.stage = 1 ∧ f.drained = 1)) = true := by
  decide +kernel
/-- A fault adds 1 to a lane of the first row. -/
theorem test_drain_flags : atStage (inBank swept) swept (fun _ _ t => decide (0 < t.swept 0 ∧ t.arr = 0 ∧ t.quad = 0 ∧
      0 < t.act.dk.shapeR ∧ swept.exempt t 0 0 = false) && (t.failing (t.upsets [⟨0, 0, 0, 1, 0, false, 1⟩] 0
      ((Tab.getD (sweptOnce.core 0 0).banks (t.arr * 2) []).getD 0 ⟨[], []⟩))).isSome) = true ∧
    Tab.find ((inBank swept).core 0 0).armed 0 = none ∧
    mmaAfter (exec (.segmentDrain 0 0 0 [⟨0, 0, 0, 1, 0, false, 1⟩]) (inBank swept)) (fun f => decide (f.pend.map Vote.rows = [[0]])) = true := by
  decide +kernel
/-- A vote of array 0. -/
def voting : MmaFly := { lead := 0, idx := 0, seg := 1, drained := 1, pend := [{ arr := 0, quad := 0, rows := [0], pass := 1, seg := 0 }] }
theorem test_vote : atStage (inBank voting) voting (fun c i _ => decide ((inBank voting).sibling c voting
      ((inBank voting).streams c i voting.denied) 0 = some 1 ∧ c.memberSlot 0 < 64)) = true ∧ voting.stage = 0 ∧
    mmaAfter (exec (.residueVote 0 0 0 []) (inBank voting)) (fun f => decide (f.pend = [] ∧ f.votes.map Vote.outcome = [1])) = true := by
  decide +kernel
/-- The MMA at a later stage. -/
def late (n : Nat) : MmaFly := { lead := 0, idx := 0, stage := n, seg := 1, drained := 1 }
theorem test_specials : atStage (inBank (late 1)) (late 1) (fun _ _ _ => true) = true ∧
    mmaAfter (exec (.specialsPass 0 0 0 []) (inBank (late 1))) (fun f => f.stage == 2) = true := by decide +kernel
theorem test_output : atStage (inBank (late 2)) (late 2) (fun _ _ t => decide (t.out.place.tier ≤ 1)) = true ∧
    mmaAfter (exec (.outputDrain 0 0 0) (inBank (late 2))) (fun f => f.stage == 3) = true := by decide +kernel
theorem test_recompute : atStage (inBank (late 3)) (late 3) (fun _ _ _ => true) = true ∧
    moved (exec (.recomputeSlot 0 0 0) (inBank (late 3))) 0 0 = true := by decide +kernel

/-! ## The ring, transfers, barriers and yields -/

/-- A bucket of two chunks of CD0 and CD1. -/
def bucket : List Byte := ins 4 [(14, 2, 1), (16, 2, 0xFFFF), (18, 2, 3), (20, 2, 2), (22, 4, 4096)]
/-- A run of two members; their REDs, the chunks on their way to CD0, and the link between them up. -/
def ringed (x y : RedSt) (ch : List ChunkFly) : State :=
  (job (queued (tables [] [buf 2 0 8320, buf 2 16384 8320]) 96 [bucket])
    { atQueue 96 { pos := 1, fly := [{ idx := 0, op := 4, arg := 3 }] } with map := [0, 1], n := 2, set := 3, reds := [x, y], chunks := ch }).setLink 0
      RING_LINK_STAT_UP 1
def redOf (d : Nat) : RedSt := { die := d, idx := 0, bucket := 3, raw := bucket }
/-- J0's ring unit on CD0. -/
def onRing (s : State) (p : Ctx → Bool) : Bool := match s.ctx 0 0 96 with | some c => p c | none => false
/-- The hop that CD0 expects first, and its chunk as CD1 sends it, cut to two elements of zero. -/
def hop : Hop := ⟨0, false, 1, 1⟩
def chunk : ChunkFly := ⟨0, 3, wireOf (chunkHead 0 0 1 3 0 hop.route 0) (zeros 4)⟩
/-- Both REDs, and that chunk on its way to CD0. -/
def incoming : State := ringed (redOf 0) (redOf 1) [chunk]
theorem test_chunk : onRing incoming (fun c => decide (c.run.chunks.find? (fun x => x.dest == c.pd) = some chunk ∧
      c.run.red c.pd 3 = some (redOf 0) ∧ (redOf 0).timedOut = false ∧ ((redOf 0).recvs c.run.n)[(0 : Nat)]? = some hop ∧
      incoming.pathUp (c.run.map.getD ((c.pd + c.run.n - 1) % c.run.n) 0) 0 = true ∧ (c.pd + c.run.n - 1) % c.run.n ≠ c.pd ∧
      (redOf 0).comp = false ∧ hop.gather = false ∧ (redOf 0).resends < 3)) = true := by decide +kernel
theorem test_chunk_check : wireBad false false 0 3 hop chunk.wire = false ∧ wireBad true false 0 3 hop chunk.wire = true ∧
    wireBad false false 1 3 hop chunk.wire = true ∧ wireBad false false 0 3 { hop with chunk := 0 } chunk.wire = true := by decide +kernel
theorem test_chunk_bad : after (exec (.ringChunkReceive 0 0 true) incoming) (fun t => match (t.job 0).run with
      | some r => decide ((r.red 0 3).map RedSt.resends = some 1)
      | none => false) = true := by decide +kernel
theorem test_credit : onRing incoming (fun c => decide (c.run.reds.find? (fun r => r.die == c.pd && !r.credit && !r.timedOut
        && (c.run.red ((c.pd + 1) % c.run.n) r.bucket).isSome) = some (redOf 0) ∧ c.run.n ≠ 1 ∧
      incoming.pathUp (c.run.map.getD ((c.pd + 1) % c.run.n) 0) 0 = true)) = true := by decide +kernel
/-- A wait of CD0's ring unit, which times out after 1 ms and not before. -/
def ringLate (n : Nat) : State := { incoming.setFld (dieAt 0) RING_CTRL_TIMEOUT_US 1000 with ts := n }
theorem test_ring_timeout : onRing (ringLate 1000000) (fun c => decide (c.run.spilled = false ∧ c.run.red c.pd 3 = some (redOf 0) ∧
      (redOf 0).peer c.run.n = some 1 ∧ (redOf 0).since + (ringLate 1000000).ringLimit 0 = 1000000)) = true ∧
    after (exec (.ringTimeout 0 0 3) (ringLate 1000000)) (fun t => match (t.job 0).run with
      | some r => decide ((0, 0x2043) ∈ r.outcomes)
      | none => false) = true ∧
    after (exec (.ringTimeout 0 0 3) (ringLate 999999)) (fun t => decide (t = ringLate 999999)) = true := by decide +kernel
/-- A RED whose records are both written and whose chunks are acknowledged. -/
def finished : RedSt := { redOf 0 with sent := 2, recvd := 2, acked := 2, acc := [(0, true, ⟨0, 0, []⟩), (1, true, ⟨0, 0, []⟩)] }
def drained : State := job (queued (tables [] [buf 2 0 8320, buf 2 16384 8320]) 96 [bucket])
  { atQueue 96 { pos := 1, fly := [{ idx := 0, op := 4, arg := 3 }] } with map := [0, 1], n := 2, set := 3, reds := [finished] }
theorem test_red_complete : onRing drained (fun c => decide (c.run.reds = [finished] ∧ finished.die = c.pd ∧
      (finished.recvs c.run.n).length ≤ finished.recvd ∧ (finished.sends c.run.n).length ≤ finished.acked ∧ (∀ m ∈ c.run.members, m < 64)) &&
      (List.range finished.chunks).all (fun k => decide ((Tab.find finished.acc k).map Prod.fst = some true))) = true ∧
    moved (exec (.redComplete 0 0) drained) 96 0 = true := by decide +kernel

/-- The transfer of `moves` on engine 2, its source holding 7 at its second byte. -/
def transfer : State :=
  { job (queued moves 96 [ins 8 [(15, 3, 1)]]) (atQueue 96 { pos := 1, fly := [{ idx := 0, op := 8, arg := 2 }] }) with larder := ({} : Mem).write 1 [7] }
theorem test_xfer_complete : onRing transfer (fun c =>
      let e := transfer.xferEnds c (c.ins c.pd 96 0)
      decide ((c.run.queue c.pd 96).fly.find? (fun x => x.idx == 0 && x.op == 0x08) = some { idx := 0, op := 8, arg := 2 } ∧ transfer.attics = [] ∧
        e.1.place.tier = 2 ∧ e.2.place.tier = 2 ∧ e.2.place.die = 0 ∧ e.1.dk.pitch = e.2.dk.pitch ∧ e.1.place.len = e.2.place.len ∧
        e.1.place.addr % 64 = 0 ∧ e.2.place.addr % 64 = 0 ∧ e.1.place.len % 64 = 0)) = true ∧
    after (exec (.xferComplete 0 0 0 []) transfer) (fun t => decide (t.larder.read 4096 2 = [0, 7])) = true := by decide +kernel

/-- One that waits for the attic. -/
theorem test_xfer_open : let s := { transfer with attics := [{ id := 0, port := 0, write := true, aa := 0, slot := 0, pd := 0, idx := 0 }] }
    s.attics.any (fun q => q.cmd.isNone && q.slot == (0 : Slot).val && q.pd == 0 && q.idx == 0) = true ∧
    after (exec (.xferComplete 0 0 0 []) s) (fun t => decide (t = s)) = true := by decide +kernel
/-- The context of J0's lead die. -/
def lead (s : State) (p : Ctx → Bool) : Bool := match s.ringCtx 0 0 with | some c => p c | none => false
/-- An image of one phase with a YIELD in the die queue, which waits at its yield point. -/
def yielding : State := job (queued (image 0 0) 96 [ins 0x0A [(12, 2, 4)]]) (atQueue 96 { pos := 1, yielded := some (4, false) })
theorem test_yield_point : lead yielding (fun c => decide (c.atYield = some (4, false) ∧ c.run.ended = false ∧
      c.run.stopping = false ∧ c.run.spilled = false ∧ c.run.evict = false)) = true ∧ yielding.mayEvict 0 = false ∧
    after (exec (.yieldPoint 0) yielding) (fun t => match (t.job 0).run with
      | some r => decide ((r.queue 0 96).yielded = none)
      | none => false) = true := by decide +kernel
/-- An image of one phase, its only instruction complete in the entry phase. -/
def phased : State := job ((queued (image 0 0) 96 [ins 0 []]).write 84 [1]) (atQueue 96 { pos := 1 })
theorem test_barrier : lead phased (fun c => decide (c.run.ended = false ∧ c.run.stopping = false ∧ c.run.posted = false ∧ c.run.spilled = false ∧
      c.run.evict = false ∧ phased.entryWaits c.run = false ∧ phased.runFrozen c.run = false ∧ c.run.phase < planPhases c.pl ∧
      c.phaseOver = true)) = true ∧
    after (exec (.phaseBarrier 0) phased) (fun t => decide ((t.job 0).run.map Run.phase = some 1)) = true := by decide +kernel
/-- A run that the hub has decided to evict, and one evicted. -/
def evicting : State := job (image 0 0) { base with evict := true }
def evicted : State := job (image 0 0) { base with spilled := true }
theorem test_spill : lead evicting (fun c => c.run.evict && evicting.enginesFree c) = true ∧ evicting.pstate = 0 ∧
    evicting.fillsIn (evicting.runPrint 0 ++ (evicting.waiters.filter (fun w => w.1 != 0)).flatMap Prod.snd) = false ∧
    after (exec (.jobSpill 0 []) evicting) (fun t => decide ((t.job 0).run.map Run.spilled = some true)) = true := by decide +kernel
/-- J1's RUN waits for the core of J0, whose quantum is over and whose spill areas are bound. -/
def rivalled (r : Run) : State :=
  let s := ((job (queued (image 0 0) 0 [ins 0x0A [(12, 2, 4)]]) r).setFld 0 HUB_SLICE_CTRL_EN 1).setFld 0 HUB_FLT_JOB_SET 1 1
  { s with
    ts := 4000000
    qps := s.qps ++ [(1, { cqBase := 8192, cmds := [cmd 0x2002 [(2, 2, 8), (40, 4, 1120), (44, 1, 1)] (some (zeros 1120))] })]
    jobs := s.jobs.map (fun e => (e.1, { e.2 with binding := e.2.binding.map (fun b => { b with spill := [64, 64, 64, 64] }) }))
      ++ [(1, { binding := some (bound (queued (image 0 0) 0 [ins 0 []])) })] }
theorem test_yield_evicts : let s := rivalled (atQueue 0 { pos := 1, yielded := some (4, false) })
    lead s (fun c => decide (c.atYield = some (4, false) ∧ c.run.ended = false ∧ c.run.stopping = false ∧ c.run.spilled = false ∧
      c.run.evict = false)) = true ∧ s.mayEvict 0 = true ∧
    after (exec (.yieldPoint 0) s) (fun t => decide ((t.job 0).run.map Run.evict = some true)) = true := by decide +kernel
theorem test_spill_parked : let s := rivalled { base with ended := true, posted := true, parked := true }
    lead s (fun c => c.run.posted && c.run.parked && !c.run.spilled && s.enginesFree c) = true ∧ s.pstate = 0 ∧ s.mayEvict 0 = true ∧
    s.fillsIn (s.runPrint 0 ++ (s.waiters.filter (fun w => w.1 != 0)).flatMap Prod.snd) = false := by decide +kernel
/-- One that ended and was evicted, its next RUN waiting. -/
theorem test_resume_ended : let s := { job (image 0 0) { base with ended := true, posted := true, spilled := true } with qps := ready.qps }
    lead s (fun c => c.run.spilled && c.run.posted && s.enginesFree c) = true ∧ (s.groupOf 0).isSome = true ∧ s.pstate = 0 ∧
    s.picked 0 (s.runPrint 0) = true ∧ s.printFree 0 (s.runPrint 0) = true ∧ s.fillsIn (s.runPrint 0) = false := by decide +kernel
theorem test_resume_job : lead evicted (fun c => c.run.spilled && !c.run.posted && evicted.enginesFree c) = true ∧
    evicted.picked 0 (evicted.runPrint 0) = true ∧ evicted.pstate = 0 ∧
    evicted.printFree 0 (evicted.runPrint 0) = true ∧ evicted.fillsIn (evicted.runPrint 0) = false ∧
    after (exec (.jobResume 0 []) evicted) (fun t => decide ((t.job 0).run.map Run.spilled = some false)) = true := by decide +kernel

/-! ## The step boundary -/

/-- One digest of three differs; one of two resolves nothing. -/
theorem test_compare : wmCompare [(0, [1]), (1, [1]), (2, [9])] = (2, 4) ∧ (wmCompare [(0, [1]), (1, [2])]).1 = 3 ∧
    wmCompare [(0, [1]), (1, [1])] = (1, 0) := by decide +kernel
/-- A run of two replicas that has ended. -/
def ending : State :=
  let s := ((job (image 0 0) { base with ended := true, map := [0, 1], n := 2, set := 3 }).setFld 0 HUB_FLT_JOB_SET 3).setFld 0 HUB_WM_CTRL_EN 1
  s.modJob 0 (fun x => { x with wmDue := true })
/-- Without an optimizer the watermark is that of no point. -/
theorem watermark_of_nothing (c : Ctx) (s : State) (h : c.optimizers c.pd = []) : s.watermarkOf c = (wmDigest c.run.step [], false) := by
  simp [State.watermarkOf, h, sortBy, wmDistinct]
theorem test_watermark : (match (ending.job 0).run with
      | some r => r.ended && !r.posted && ending.wmPending 0 r &&
        ((maskBits 4 (ending.jobSet 0)).filter (fun d => r.map.contains d && !bitN r.failed d)).all (fun d =>
          match ending.ctx 0 d 96 with
          | some c => decide (c.optimizers c.pd = [] ∧ c.run.step = 0)
          | none => false)
      | none => false) = true := by decide +kernel
/-- A run of one replica that has ended, and its steward run. -/
def excess (r : Run) : State := (job (image 0 0) { r with ended := true }).setFld 0 HUB_FLT_JOB_SET 1
theorem test_steward : (match ((excess base).job 0).run with
      | some r => r.ended && !r.stewDone && !(excess base).wmPending 0 r
      | none => false) = true ∧ ((excess base).job 0).binding = some (bound (image 0 0)) ∧ (excess base).bit 0 HUB_FLT_JOB_ROLLING 0 = false ∧
    (excess base).stewardDue.head?.map Prod.snd = some (0 : Slot).val ∧ on.stewardDue.head?.map Prod.snd ≠ some (0 : Slot).val ∧
    after (exec (.stewardRun 0) (excess base)) (fun t => decide ((t.job 0).run.map Run.stewDone = some true)) = true := by decide +kernel
/-- A rollback with no snapshot to restore holds the job. -/
theorem test_rollback : let s := (excess base).setFld 0 HUB_FLT_JOB_ROLLING 1
    (s.job 0).run.map Run.posted = some false ∧ (s.planId 0).isSome = true ∧ s.bit 0 HUB_FLT_JOB_ROLLING 0 = true ∧
    after (exec (.rollback 0) s) (fun t => t.bit 0 HUB_FLT_JOB_HOLD 0) = true := by decide +kernel
/-- The same where a policy waits: ripe, it comes into force. -/
theorem test_steward_policy : let s := (excess base).modJob 0 (fun x => { x with policyNew := some policy, policyRipe := true })
    (s.job 0).policyRipe = true ∧ after (exec (.stewardRun 0) s) (fun t => decide ((t.job 0).policy = some policy ∧ (t.job 0).policyNew = none)) = true := by
  decide +kernel
theorem test_boundary : let s := excess { base with stewDone := true }
    (match (s.job 0).run with
      | some r => r.ended && !r.posted && !s.wmPending 0 r && r.stewDone
      | none => false) = true ∧ (s.ringCtx 0 0).isSome = true ∧ s.bit 0 HUB_FLT_JOB_ROLLING 0 = false ∧ (∀ m ∈ base.members, (s.job m).capture = none) ∧
    s.boundaryTake 0 5 = none ∧
    after (exec (.stepBoundary 0) s) (fun t => decide ((t.job 0).run.map Run.posted = some true)) = true := by decide +kernel

/-! ## Clocks and collisions -/

/-- A tile of a shelf or of the store room of CD0 with rows and columns. -/
def tileOf (tier a fmt r k : Nat) : TileAt := ⟨Deckle.ofBytes (dk 0 fmt 0 64 r k), ⟨tier, 0, 0, a, 64⟩, 0⟩
/-- A stream of `r` rows and K elements in segments of S_K, one pass, in array `a`. -/
def rows64 (mode fmt a r k sk : Nat) : Strm :=
  { pos := 0, arr := a, quad := 0, act := tileOf 0 0 fmt r k, wgt := tileOf 0 0 fmt k 1, out := tileOf 0 0 10 r 1, wsc := none,
    zpt := none, gsc := none, asc := none, m := {}, rtl := [], bookA := [], bookW := [], mode := mode, qm := false, pass := 1, sk := sk }
/-- Stall counted in array 0 of core 0 by the first swap of segment 2. -/
def stallOf (mode fmt sk : Nat) : Nat :=
  match (only products 0 mma).ctx 0 0 0 with
  | none => 0
  | some c => (State.reset.swapClocks c [rows64 mode fmt 0 64 (4 * sk) sk] 2 0).fld (arrAt 0 0 0) ARR_CNT_DRAIN_STALL_V
/-- Rows of Table 2-4. -/
theorem test_drain_stalls : stallOf 0 0 32 = 203 ∧ stallOf 0 0 128 = 11 ∧ stallOf 1 2 32 = 139 ∧ stallOf 2 2 32 = 11 ∧
    stallOf 2 2 64 = 0 := by decide +kernel
/-- A sibling with fewer rows waits (R60). -/
theorem test_share_wait : (match (only products 0 mma).ctx 0 0 0 with
    | none => false
    | some c =>
      let s := State.reset.swapClocks c [rows64 2 2 0 64 256 256, rows64 2 2 1 24 256 256] 0 0
      decide (s.fld (arrAt 0 0 0) ARR_CNT_SWEEP_V = 64 ∧ s.fld (arrAt 0 0 1) ARR_CNT_SWEEP_V = 24 ∧
        s.fld (arrAt 0 0 1) ARR_CNT_SHARE_WAIT_V = 40)) = true := by decide +kernel

/-- The collision of clock 1,000 in the worked example of R265 to R268: engine 2 reads the granule at word 0x4000 of a
store-room bank while engine 3 writes it. -/
theorem test_collision : (match transfer.ctx 0 0 96 with
    | none => false
    | some c =>
      let g := (storeKey 0 65536) / 64
      let t := fun (tier a : Nat) => (⟨Deckle.ofBytes (dk 0 10 0 64 1 16), ⟨tier, 0, 0, a, 64⟩, 0⟩ : TileAt)
      let x : XferAt := ⟨c, { idx := 0, op := 8, arg := 2 }, t 1 65536, t 2 0⟩
      let y : XferAt := ⟨c, { idx := 7, op := 8, arg := 3 }, t 2 4096, t 1 65536⟩
      let s := (transfer.setFld (bankAt (storeBank 0 0)) BANK_OWN_OWNER 2).meet x y (8 * g + 3)
      let a := bankAt (storeBank 0 0)
      decide (s.fld a BANK_CNT_COLLIDE_V = 1 ∧ s.fld a BANK_STAT_COL_PORT = 1 ∧ s.fld a BANK_STAT_COL_KIND = 0 ∧
        s.fld a BANK_STAT_COL_WORD = 0x4000 ∧ (s.flyNow c { idx := 0, op := 8, arg := 2 }).undef = [g])) = true := by decide +kernel

end Sys2Proof.Tests
end

section
/-!
SUPPORT. Folds over the state, fields of registers, and what changes of registers alone leave unchanged.
-/
namespace Sys2Proof.Laws

open Sys2Proof Sys2Proof.Machine

/-! ## Folds over the state -/

/-- A reflexive and transitive relation that every step of a fold satisfies holds of the fold. -/
theorem forAll_related {α : Type} {R : State → State → Prop} (refl : ∀ s, R s s) (trans : ∀ {s t u}, R s t → R t u → R s u)
    {f : State → α → State} {l : List α} (hf : ∀ s, ∀ x ∈ l, R s (f s x)) (s : State) : R s (s.forAll l f) := by
  induction l generalizing s with
  | nil => exact refl s
  | cons x l ih =>
    exact trans (hf s x List.mem_cons_self) (ih (fun s y hy => hf s y (List.mem_cons_of_mem _ hy)) (f s x))

/-! ## Fields -/

theorem fld_of_reg {s t : State} {base i : Nat} {f : Fld} (h : t.reg (f.at base i) = s.reg (f.at base i)) :
    t.fld base f i = s.fld base f i := by simp only [State.fld, h]

theorem bit_of_reg {s t : State} {base i : Nat} {f : Fld} (h : t.reg (f.at base i) = s.reg (f.at base i)) :
    t.bit base f i = s.bit base f i := by simp only [State.bit, fld_of_reg h]

/-- A counter advances at its width. -/
theorem fld_bump_same (s : State) (base : Nat) (f : Fld) (n i : Nat) (h : f.hi < 64) :
    (s.bump base f n i).fld base f i = (s.fld base f i + n) % 2 ^ (f.hi + 1 - f.lo) := fld_setFld_same s base f _ i h

theorem reg_bump_other (s : State) (base : Nat) (f : Fld) (n i : Nat) {b : Nat} (h : b ≠ f.at base i) :
    (s.bump base f n i).reg b = s.reg b := reg_setFld_other s base f _ i h

theorem bit_setFld_one (s : State) (base : Nat) (f : Fld) (i : Nat) (h : f.hi < 64) (hw : f.lo ≤ f.hi) :
    (s.setFld base f 1 i).bit base f i = true := by
  have hlt : 1 < 2 ^ (f.hi + 1 - f.lo) := Nat.one_lt_two_pow (by omega)
  rw [State.bit, fld_setFld_same s base f 1 i h, Nat.mod_eq_of_lt hlt]
  rfl

/-- A bit of the same register outside the bits written is unchanged. -/
theorem bit_setFld_bits (s : State) {base base' : Nat} {f g : Fld} {v i k : Nat} (ha : g.at base' k = f.at base i)
    (h : f.hi < g.lo ∨ g.hi < f.lo) : (s.setFld base f v i).bit base' g k = s.bit base' g k := by
  rw [State.bit, fld_setFld_bits s ha h, State.bit]

/-! ## Changes of registers alone -/

/-- Memories, work and the hub's parts are as before; registers may differ. -/
structure SameButRegs (s t : State) : Prop where
  memories : sameMemories s t
  work : sameWork s t
  hub : sameHub s t

theorem SameButRegs.larder {s t : State} (h : SameButRegs s t) : t.larder = s.larder := h.memories.2.1
theorem SameButRegs.qps {s t : State} (h : SameButRegs s t) : t.qps = s.qps := h.work.1
theorem SameButRegs.jobs {s t : State} (h : SameButRegs s t) : t.jobs = s.jobs := h.work.2.1
theorem SameButRegs.power {s t : State} (h : SameButRegs s t) : t.power = s.power := h.hub.2.1

theorem SameButRegs.refl (s : State) : SameButRegs s s := by constructor <;> simp [sameMemories, sameWork, sameHub]

theorem SameButRegs.trans {s t u : State} (h : SameButRegs s t) (h' : SameButRegs t u) : SameButRegs s u := by
  obtain ⟨hm, hw, hh⟩ := h
  obtain ⟨hm', hw', hh'⟩ := h'
  constructor <;> simp_all [sameMemories, sameWork, sameHub]

theorem sameButRegs_setReg (s : State) (a : Nat) (v : Word) : SameButRegs s (s.setReg a v) := by
  constructor <;> simp [sameMemories, sameWork, sameHub]

theorem sameButRegs_setFld (s : State) (base : Nat) (f : Fld) (v i : Nat) : SameButRegs s (s.setFld base f v i) :=
  sameButRegs_setReg s _ _

theorem sameButRegs_drawn (s : State) : SameButRegs s s.drawn := by constructor <;> simp [sameMemories, sameWork, sameHub]

theorem sameButRegs_forAll {α : Type} {f : State → α → State} (hf : ∀ s x, SameButRegs s (f s x)) (s : State) (l : List α) :
    SameButRegs s (s.forAll l f) := forAll_related (R := SameButRegs) .refl .trans (fun s x _ => hf s x) s

/-- A register that no step of a fold changes reads as before. -/
theorem reg_forAll {α : Type} {f : State → α → State} {b : Nat} (hf : ∀ s x, (f s x).reg b = s.reg b) (s : State) (l : List α) :
    (s.forAll l f).reg b = s.reg b :=
  forAll_related (R := fun s t => t.reg b = s.reg b) (fun _ => rfl) (fun h h' => h'.trans h) (fun s x _ => hf s x) s

@[simp] theorem reg_drawn (s : State) (b : Nat) : s.drawn.reg b = s.reg b := rfl

end Sys2Proof.Laws
end

section
/-!
BAR0 accesses (R11, R13, R39 to R43): the lemma of each kind of write and of the reads that answer zeros, and O15 from them.
-/
namespace Sys2Proof.Laws

open Sys2Proof Sys2Proof.Machine

/-! ## Meanings of the BAR0 commands -/

theorem exec_registerWrite_inside {a n : Nat} (v : Nat) (s : State) (h : a + n ≤ 0x4000000) :
    exec (.registerWrite a n v) s = .next (s.bar0Write a n v) := by
  show execRegisterWrite a n v s = _
  rw [execRegisterWrite, if_neg (by omega)]

/-- A read from an address that no register serves answers zeros. -/
theorem exec_bar0HalfRead_unserved {a n : Nat} {s : State} (h : a + n ≤ 0x4000000) (hs : s.serves a = false) :
    exec (.bar0HalfRead a n) s = .next { s with rd := ⟨bytesLE n 0, false⟩ } := by
  show execBar0HalfRead a n s = _
  rw [execBar0HalfRead, if_neg (by omega)]
  simp [State.read4, State.regValue, hs]

@[simp] theorem bytesLE_zero (n : Nat) : bytesLE n 0 = zeros n := by
  induction n with
  | zero => rfl
  | succ n ih => simp [bytesLE, ih, zeros, List.replicate_succ]

theorem bar0Write_misaligned {a n : Nat} (v : Nat) (s : State) (h : (n ≠ 4 ∧ n ≠ 8) ∨ a % n ≠ 0) : s.bar0Write a n v = s := by
  have hg : (!(n == 4 || n == 8) || a % n != 0 || !s.serves a) = true := by
    rcases h with ⟨h4, h8⟩ | h
    · simp [h4, h8]
    · simp [h]
  rw [State.bar0Write, if_pos hg]

theorem bar0Write_unserved {a : Nat} (n v : Nat) {s : State} (h : s.serves a = false) : s.bar0Write a n v = s := by
  simp [State.bar0Write, h]

/-- An aligned write outside the mailbox buffer, where registers are served. -/
theorem bar0Write_served {a n : Nat} (v : Nat) {s : State} (hn : n = 4 ∨ n = 8) (ha : a % n = 0) (hs : s.serves a = true)
    (hm : inMbox a = false) : s.bar0Write a n v =
      if n = 4 then s.write4 a (v % 2 ^ 32)
      else if widthAt a = 64 then s.regWrite a (v % 2 ^ 64) (2 ^ 64 - 1)
      else (s.write4 a (v % 2 ^ 32)).write4 (a + 4) (v / 2 ^ 32 % 2 ^ 32) := by
  rcases hn with rfl | rfl <;> simp [State.bar0Write, ha, hs, hm]

/-- A 4 B write to a word of no register changes nothing. -/
theorem write4_reserved {a : Nat} (v : Nat) (s : State) (h : widthAt a = 0) (h4 : widthAt (a - 4) ≠ 64) : s.write4 a v = s := by
  simp [State.write4, h, h4]

/-- A 4 B write at a register's address: its low half, or all 32 bits. -/
theorem write4_register {a : Nat} (v : Nat) (s : State) (h : widthAt a ≠ 0) : s.write4 a v = s.regWrite a v (2 ^ 32 - 1) := by
  rw [State.write4, if_pos h]

/-- A 4 B write above a 64-bit register's address: its high half. -/
theorem write4_upper_half {a : Nat} (v : Nat) (s : State) (h : widthAt (a + 4) = 0) (hw : widthAt a = 64) :
    s.write4 (a + 4) v = s.regWrite a (v * 2 ^ 32) ((2 ^ 32 - 1) * 2 ^ 32) := by
  have hmask : (2 ^ 32 - 1) * 2 ^ 32 = 2 ^ 64 - 2 ^ 32 := by decide
  rw [State.write4, if_neg (fun hne => hne h), Nat.add_sub_cancel, if_pos hw, hmask]

theorem serves_die_false {s : State} {a d : Nat} (hd : dieOf a = some d) (h : s.dieState d = 5 ∨ s.pstate = 3) :
    s.serves a = false := by
  rcases h with h | h <;> simp [State.serves, hd, h]

theorem serves_fatal_false {s : State} {a : Nat} (hf : s.bit 0 HUB_STATUS_FATAL = true) (ha : 0x90 ≤ a) : s.serves a = false := by
  simp [State.serves, hf, Nat.not_lt.mpr ha]

/-- Outside the dies' windows registers are served while FATAL is clear. -/
theorem serves_hub {s : State} {a : Nat} (hd : dieOf a = none) (hf : s.bit 0 HUB_STATUS_FATAL = false) : s.serves a = true := by
  simp [State.serves, hd, hf]

/-- A 4 B read of a reserved word answers zeros. -/
theorem exec_bar0HalfRead_reserved {a : Nat} {s : State} (h : a + 4 ≤ 0x4000000) (ha : a % 4 = 0) (hw : widthAt a = 0)
    (hw4 : widthAt (a - 4) ≠ 64) (hm : inMbox a = false) (ht : inTrace a = false) (hs : s.serves a = true) :
    exec (.bar0HalfRead a 4) s = .next { s.seeQueue a with rd := ⟨zeros 4, false⟩ } := by
  show execBar0HalfRead a 4 s = _
  rw [execBar0HalfRead, if_neg (by omega)]
  simp [State.read4, State.value4, ha, hw, hw4, hm, ht, hs]

/-! ## Where registers stand -/

theorem widthAt_of_regRow {a : Nat} {r : RegRow} (h : regRow a = some r) : widthAt a = r.width := by simp [widthAt, h]

theorem regRow_lt {a : Nat} {r : RegRow} (h : regRow a = some r) : a < 0x2000000 := by
  rcases Nat.lt_or_ge a 0x2000000 with hlt | hge
  · exact hlt
  · rw [regRow, if_neg (by omega), if_neg (by omega)] at h
    cases h

theorem bankOf_of_dieOf_none {a : Nat} (h : dieOf a = none) : bankOf a = none := by simp [bankOf, h]

theorem arrOf_of_dieOf_none {a : Nat} (h : dieOf a = none) : arrOf a = none := by simp [arrOf, h]

theorem dieOf_isSome {a : Nat} : (dieOf a).isSome = true ↔ 0x1000000 ≤ a ∧ a < 0x2000000 := by
  simp [dieOf, within, Bool.and_eq_true]

theorem dieOf_eq_none {a : Nat} : dieOf a = none ↔ ¬ (0x1000000 ≤ a ∧ a < 0x2000000) := by
  rw [← dieOf_isSome]; simp

theorem inMbox_eq {a : Nat} : inMbox a = true ↔ 0x210000 ≤ a ∧ a < 0x220000 := by simp [inMbox, within]

theorem dieOf_of_inMbox {a : Nat} (h : inMbox a = true) : dieOf a = none := by
  rw [inMbox_eq] at h
  rw [dieOf_eq_none]
  omega

/-! ## What a write of a register drives -/

theorem voltAt_state (s : State) (d p f : Nat) : (s.voltAt d p f).1 = s ∨ (s.voltAt d p f).1 = s.drawn := by
  unfold State.voltAt
  split
  · exact .inl rfl
  · split
    · exact .inl rfl
    · exact .inr rfl

theorem sameButRegs_voltAt (s : State) (d p f : Nat) : SameButRegs s (s.voltAt d p f).1 := by
  rcases voltAt_state s d p f with h | h <;> rw [h]
  · exact .refl s
  · exact sameButRegs_drawn s

theorem reg_voltAt (s : State) (d p f b : Nat) : (s.voltAt d p f).1.reg b = s.reg b := by
  rcases voltAt_state s d p f with h | h <;> rw [h]
  exact reg_drawn s b

theorem sameButRegs_showIsland (s : State) (d p : Nat) : SameButRegs s (s.showIsland d p) := by
  unfold State.showIsland
  dsimp only
  split
  · exact .refl s
  · exact (sameButRegs_voltAt s d p _).trans ((sameButRegs_setFld _ _ _ _ _).trans (sameButRegs_setFld _ _ _ _ _))

theorem reg_showIsland {s : State} {d p b : Nat} (h : ∀ k, b ≠ AGE_ISL_F_NOW.at 0 k) : (s.showIsland d p).reg b = s.reg b := by
  unfold State.showIsland
  dsimp only
  split
  · rfl
  · have hV : b ≠ AGE_ISL_V_NOW.at 0 (islOf d p) := h (islOf d p)
    rw [reg_setFld_other _ _ _ _ _ hV, reg_setFld_other _ _ _ _ _ (h (islOf d p)), reg_voltAt]

theorem sameButRegs_showIslands (s : State) : SameButRegs s s.showIslands :=
  sameButRegs_forAll (fun s d => sameButRegs_forAll (fun s p => sameButRegs_showIsland s d p) s _) s _

theorem reg_showIslands {s : State} {b : Nat} (h : ∀ k, b ≠ AGE_ISL_F_NOW.at 0 k) : s.showIslands.reg b = s.reg b :=
  reg_forAll (fun s _ => reg_forAll (fun _ _ => reg_showIsland h) s _) s _

/-- What follows the write of a register without behaviour of its own: PWR_CTRL.BOOST moves the islands' frequencies (R495), an
alert register or an enable drives ALERT# (R551). -/
def driven (s : State) (a : Nat) : State :=
  if a = 0x300010 then s.showIslands else if alertReg a = true then s.syncAlert else s

theorem sameButRegs_driven (s : State) (a : Nat) : SameButRegs s (driven s a) := by
  unfold driven
  split
  · exact sameButRegs_showIslands s
  · split
    · exact sameButRegs_setFld _ _ _ _ _
    · exact .refl s

/-- The registers that the write of register `a` drives. -/
def drives (a b : Nat) : Prop :=
  (alertReg a = true ∧ b = HUB_SB_STAT_ALERT.at 0 0) ∨ (a = 0x300010 ∧ ∃ k, b = AGE_ISL_F_NOW.at 0 k)

theorem reg_driven {s : State} {a b : Nat} (h : ¬ drives a b) : (driven s a).reg b = s.reg b := by
  obtain ⟨halert, hisl⟩ := not_or.mp h
  unfold driven
  split
  · next ha => exact reg_showIslands (fun k hk => hisl ⟨ha, k, hk⟩)
  · split
    · next ha => exact reg_setFld_other _ _ _ _ _ (fun hb => halert ⟨ha, hb⟩)
    · rfl

theorem alertReg_eq {a : Nat} : alertReg a = true ↔ a = 0x300040 ∨ a = 0x300048 ∨ a = 0x200600 ∨ a = 0x200608 := by
  simp [alertReg]

theorem not_drives_self (a : Nat) : ¬ drives a a := by
  rintro (⟨ha, hb⟩ | ⟨ha, k, hb⟩)
  · rw [alertReg_eq] at ha
    simp only [Fld.at] at hb
    omega
  · simp only [Fld.at] at hb
    omega

/-- Registers in the dies' windows drive nothing. -/
theorem driven_of_die {s : State} {a : Nat} (h : (dieOf a).isSome = true) : driven s a = s := by
  rw [dieOf_isSome] at h
  have halert : ¬ alertReg a = true := by rw [alertReg_eq]; omega
  rw [driven, if_neg (by omega), if_neg halert]

/-! ## Writes of registers without behaviour of their own -/

theorem hubWrite_plain {a : Nat} (s : State) (v mask : Nat) (hb : bankOf a = none) (ha : arrOf a = none) (h : ownReg a = false) :
    s.hubWrite a v mask = driven (s.plainWrite a v mask) a := by
  simp only [ownReg, hb, ha, Bool.or_eq_false_iff, Bool.and_eq_false_imp, List.contains_cons, List.contains_nil,
    beq_eq_false_iff_ne, Bool.or_false] at h
  obtain ⟨⟨⟨hq, hc⟩, -⟩, hreset, hnonce, hhalt, hmbox⟩ := h
  have hcfg : ¬ (within 0x101000 0x103000 a = true ∧ a % 0x80 = 0x18) := fun hin => hc hin.1 hin.2
  simp [State.hubWrite, driven, alertReg, hq, hcfg, hreset, hnonce, hhalt, hmbox, or_assoc]

theorem bankWrite_plain {b o : Nat} (s : State) (a v mask : Nat) (h : (o == 0x00 || o == 0x10 || o == 0x88) = false) :
    s.bankWrite b o a v mask = s.plainWrite a v mask := by
  simp only [Bool.or_eq_false_iff, beq_eq_false_iff_ne] at h
  obtain ⟨⟨howner, hpower⟩, hwindow⟩ := h
  rw [State.bankWrite, if_neg howner, if_neg hpower, if_neg hwindow]

theorem dieOf_of_bankOf {a : Nat} {x : Nat × Nat} (h : bankOf a = some x) : (dieOf a).isSome = true := by
  cases hd : dieOf a with
  | some d => rfl
  | none =>
    rw [bankOf_of_dieOf_none hd] at h
    cases h

theorem dieOf_of_arrOf {a : Nat} {x : Nat × Nat × Nat × Nat} (h : arrOf a = some x) : (dieOf a).isSome = true := by
  cases hd : dieOf a with
  | some d => rfl
  | none =>
    rw [arrOf_of_dieOf_none hd] at h
    cases h

/-- A write of a register without behaviour of its own sets its bits and drives what follows it, wherever the register stands. -/
theorem regWrite_plain {a : Nat} (s : State) (v mask : Nat) (h : ownReg a = false) :
    s.regWrite a v mask = driven (s.plainWrite a v mask) a := by
  unfold State.regWrite
  cases hb : bankOf a with
  | some x =>
    have ho : (x.2 == 0x00 || x.2 == 0x10 || x.2 == 0x88) = false := by simpa [ownReg, hb] using h
    rw [driven_of_die (dieOf_of_bankOf hb)]
    exact bankWrite_plain s a v mask ho
  | none =>
    cases ha : arrOf a with
    | some x =>
      have ho : x.2.2.2 ≠ 0x58 := by simpa [ownReg, hb, ha] using h
      rw [driven_of_die (dieOf_of_arrOf ha)]
      exact if_neg ho
    | none =>
      by_cases hd : (dieOf a).isSome = true
      · rw [driven_of_die hd]
        exact if_pos hd
      · rw [← hubWrite_plain s v mask hb ha h]
        exact if_neg hd

/-- Bit i of a register written under a mask (R11, R13). -/
theorem getLsbD_written (r : RegRow) (old : Word) (v mask : Nat) {i : Nat} (hi : i < 64) :
    (r.written old.toNat v mask).getLsbD i =
      if mask.testBit i = false then old.getLsbD i
      else if r.w1c.testBit i && v.testBit i then false
      else if r.rw.testBit i then v.testBit i else old.getLsbD i := by
  simp only [RegRow.written, BitVec.ofNat_toNat, BitVec.setWidth_eq, BitVec.getLsbD_and, BitVec.getLsbD_or, BitVec.getLsbD_not,
    BitVec.getLsbD_ofNat, Nat.testBit_and, hi, decide_true, Bool.true_and]
  cases mask.testBit i <;> cases r.w1c.testBit i <;> cases v.testBit i <;> cases r.rw.testBit i <;> simp

/-- The mask of bytes [o, o + n) of a register. -/
abbrev bytesMask (o n : Nat) : Nat := (2 ^ (8 * n) - 1) * 2 ^ (8 * o)

theorem testBit_bytesMask (o n i : Nat) :
    (bytesMask o n).testBit i = (decide (8 * o ≤ i) && decide (i < 8 * o + 8 * n)) := by
  rw [bytesMask, Nat.testBit_mul_two_pow, Nat.testBit_two_pow_sub_one]
  rcases Nat.lt_or_ge i (8 * o) with h | h
  · simp [Nat.not_le.mpr h]
  · have hlt : i - 8 * o < 8 * n ↔ i < 8 * o + 8 * n := by omega
    simp [h, hlt]

/-- Bit i of data placed at byte o. -/
theorem testBit_placed {o n i : Nat} (v : Nat) (h : 8 * o ≤ i) (hn : i < 8 * o + 8 * n) :
    (v % 2 ^ (8 * n) * 2 ^ (8 * o)).testBit i = v.testBit (i - 8 * o) := by
  have hlt : i - 8 * o < 8 * n := by omega
  rw [Nat.testBit_mul_two_pow, Nat.testBit_mod_two_pow]
  simp [h, hlt]

theorem inMbox_upper_half {a : Nat} (ha : a % 8 = 0) (hm : inMbox a = false) : inMbox (a + 4) = false := by
  rw [← Bool.not_eq_true, inMbox_eq] at hm ⊢
  omega

/-- A write that the register at `a` takes whole, or of one half of its 64 bits: it sets the bytes written. -/
theorem bar0Write_register {a n o : Nat} {r : RegRow} (v : Nat) {s : State} (hr : regRow a = some r)
    (hw : r.width = 32 ∨ r.width = 64) (ha : a % (r.width / 8) = 0)
    (hn : n = r.width / 8 ∧ o = 0 ∨ r.width = 64 ∧ n = 4 ∧ (o = 0 ∨ o = 4 ∧ widthAt (a + 4) = 0))
    (hs : s.serves (a + o) = true) (hm : inMbox a = false) :
    s.bar0Write (a + o) n v = s.regWrite a (v % 2 ^ (8 * n) * 2 ^ (8 * o)) (bytesMask o n) := by
  have hwa : widthAt a = r.width := widthAt_of_regRow hr
  have hregister : widthAt a ≠ 0 := by omega
  rcases hw with hw | hw <;> rw [hw] at ha hn hwa
  · obtain ⟨rfl, rfl⟩ : n = 4 ∧ o = 0 := by omega
    simp only [bytesMask, Nat.reduceMul, Nat.pow_zero, Nat.mul_one, Nat.add_zero] at hs ⊢
    rw [bar0Write_served v (.inl rfl) ha hs hm, if_pos rfl, write4_register _ s hregister]
  · rcases hn with ⟨rfl, rfl⟩ | ⟨-, rfl, rfl | ⟨rfl, hw4⟩⟩
    · simp only [bytesMask, Nat.reduceMul, Nat.reduceDiv, Nat.pow_zero, Nat.mul_one, Nat.add_zero] at hs ⊢
      rw [bar0Write_served v (.inr rfl) ha hs hm, if_neg (by decide), if_pos hwa]
    · simp only [bytesMask, Nat.reduceMul, Nat.pow_zero, Nat.mul_one, Nat.add_zero] at hs ⊢
      rw [bar0Write_served v (.inl rfl) (by omega) hs hm, if_pos rfl, write4_register _ s hregister]
    · simp only [bytesMask, Nat.reduceMul]
      rw [bar0Write_served v (.inl rfl) (by omega) hs (inMbox_upper_half ha hm), if_pos rfl, write4_upper_half _ s hw4 hwa]

/-- The mailbox buffer counts as a register with behaviour of its own. -/
theorem inMbox_of_ownReg_false {a : Nat} (h : ownReg a = false) : inMbox a = false := by
  cases hm : inMbox a with
  | false => rfl
  | true =>
    have hd := dieOf_of_inMbox hm
    simp [ownReg, bankOf_of_dieOf_none hd, arrOf_of_dieOf_none hd, hm] at h

theorem sameButRegs_plainWrite (s : State) (a v mask : Nat) : SameButRegs s (s.plainWrite a v mask) := by
  unfold State.plainWrite
  split
  · exact .refl s
  · exact sameButRegs_setReg s _ _

theorem plainWrite_row {a : Nat} {r : RegRow} (s : State) (v mask : Nat) (h : regRow a = some r) :
    s.plainWrite a v mask = s.setReg a (r.written (s.reg a).toNat v mask) := by
  simp [State.plainWrite, h]

/-- A write of a register without behaviour of its own, whole or of one half: its bits, what it drives, and nothing else. -/
theorem registerWrite_plain {a n o v : Nat} {r : RegRow} {s : State} (hr : regRow a = some r) (hw : r.width = 32 ∨ r.width = 64)
    (ha : a % (r.width / 8) = 0)
    (hn : n = r.width / 8 ∧ o = 0 ∨ r.width = 64 ∧ n = 4 ∧ (o = 0 ∨ o = 4 ∧ widthAt (a + 4) = 0)) (hown : ownReg a = false)
    (hs : s.serves (a + o) = true) : ∃ t, exec (.registerWrite (a + o) n v) s = .next t ∧
      (∀ i, i < r.width → (t.reg a).getLsbD i = if i < 8 * o ∨ 8 * o + 8 * n ≤ i then (s.reg a).getLsbD i
        else if r.w1c.testBit i && v.testBit (i - 8 * o) then false
        else if r.rw.testBit i then v.testBit (i - 8 * o) else (s.reg a).getLsbD i) ∧
      sameRegs (fun b => b = a ∨ drives a b) s t ∧ SameButRegs s t := by
  have hlt := regRow_lt hr
  refine ⟨_, exec_registerWrite_inside v s (by omega), ?_⟩
  rw [bar0Write_register v hr hw ha hn hs (inMbox_of_ownReg_false hown), regWrite_plain s _ _ hown]
  refine ⟨fun i hi => ?_, fun b hb => ?_, (sameButRegs_plainWrite s a _ _).trans (sameButRegs_driven _ a)⟩
  · rw [reg_driven (not_drives_self a), plainWrite_row s _ _ hr, reg_setReg_same, getLsbD_written r _ _ _ (by omega),
      testBit_bytesMask]
    by_cases hout : i < 8 * o ∨ 8 * o + 8 * n ≤ i
    · have hmask : (decide (8 * o ≤ i) && decide (i < 8 * o + 8 * n)) = false := by
        rw [← Bool.decide_and]
        exact decide_eq_false (by omega)
      rw [if_pos hmask, if_pos hout]
    · have hmask : ¬ (decide (8 * o ≤ i) && decide (i < 8 * o + 8 * n)) = false := by
        rw [← Bool.decide_and]
        simp only [decide_eq_false_iff_not]
        omega
      rw [if_neg hmask, if_neg hout, testBit_placed v (by omega) (by omega)]
  · obtain ⟨hba, hdrives⟩ := not_or.mp hb
    rw [reg_driven hdrives, plainWrite_row s _ _ hr, reg_setReg_other s _ hba]

/-- An 8 B write of two words writes the lower, then the higher (log entry 6). -/
theorem registerWrite_two_words {a v : Nat} {s t : State} (ha : a % 8 = 0) (hin : a + 8 ≤ 0x4000000) (hw : widthAt a ≠ 64)
    (hm : inMbox a = false) (hs : s.serves a = true) (h : exec (.registerWrite a 4 v) s = .next t)
    (ht : t.serves (a + 4) = true) (hm4 : inMbox (a + 4) = false) :
    exec (.registerWrite a 8 v) s = exec (.registerWrite (a + 4) 4 (v / 2 ^ 32)) t := by
  rw [exec_registerWrite_inside v s (by omega), bar0Write_served v (.inl rfl) (by omega) hs hm, if_pos rfl] at h
  cases h
  rw [exec_registerWrite_inside v s hin, bar0Write_served v (.inr rfl) ha hs hm, if_neg (by decide), if_neg hw,
    exec_registerWrite_inside _ _ (by omega), bar0Write_served _ (.inl rfl) (by omega) ht hm4, if_pos rfl]

/-- A write to the mailbox buffer stores its bytes. -/
theorem bar0Write_mbox {a n : Nat} (v : Nat) {s : State} (hm : inMbox a = true) (hn : n = 4 ∨ n = 8) (ha : a % n = 0)
    (hf : s.bit 0 HUB_STATUS_FATAL = false) :
    s.bar0Write a n v = s.modMbox (fun x => { x with buf := x.buf.write (a - 0x210000) (bytesLE n v) }) := by
  have hs := serves_hub (dieOf_of_inMbox hm) hf
  rcases hn with rfl | rfl <;> simp [State.bar0Write, ha, hs, hm]

/-- Settles O15: each clause by the lemma of its kind of access, misaligned, reserved, not served, plain, of two words or to the
mailbox buffer. -/
theorem registerWriteBits : Obligations.RegisterWriteBits := by
  refine ⟨fun a n v s hin h => ?_, fun a v s hin ha hw hw4 hm ht => ⟨?_, fun ha8 hw8 => ?_, fun hs => ?_⟩,
    fun a n v s hin h => ?_, fun a n o v r s hr hw ha hn hown _ hs => ?_,
    fun a v s t ha hin hw hm hs h ht hm4 => registerWrite_two_words ha hin hw hm hs h ht hm4,
    fun a n v s hm hn ha hf => ?_⟩
  case refine_1 => rw [exec_registerWrite_inside v s hin, bar0Write_misaligned v s h]
  case refine_2 =>
    rw [exec_registerWrite_inside v s hin]
    cases hs : s.serves a with
    | false => rw [bar0Write_unserved 4 v hs]
    | true => rw [bar0Write_served v (.inl rfl) ha hs hm, if_pos rfl, write4_reserved _ s hw hw4]
  case refine_3 =>
    rw [exec_registerWrite_inside v s (by omega)]
    cases hs : s.serves a with
    | false => rw [bar0Write_unserved 8 v hs]
    | true =>
      rw [bar0Write_served v (.inr rfl) ha8 hs hm, if_neg (by decide), if_neg (by simp [hw]), write4_reserved _ s hw hw4,
        write4_reserved _ s hw8 (by simp [hw])]
  case refine_4 => exact exec_bar0HalfRead_reserved hin ha hw hw4 hm ht hs
  case refine_5 =>
    have hs : s.serves a = false := by
      rcases h with ⟨d, hd, h⟩ | ⟨hf, h⟩
      · exact serves_die_false hd h
      · exact serves_fatal_false hf h
    rw [exec_registerWrite_inside v s hin, bar0Write_unserved n v hs, exec_bar0HalfRead_unserved hin hs, bytesLE_zero]
    exact ⟨rfl, rfl⟩
  case refine_6 =>
    obtain ⟨t, hexec, hbits, hregs, hrest⟩ := registerWrite_plain hr hw ha hn hown hs
    exact ⟨t, hexec, hbits, hregs, hrest.memories, hrest.work, hrest.hub⟩
  case refine_7 =>
    rw [inMbox_eq] at hm
    refine ⟨_, exec_registerWrite_inside v s (by omega), ?_⟩
    rw [bar0Write_mbox v (inMbox_eq.mpr hm) hn ha hf]
    simp [State.modMbox, sameMemories, sameWork]

end Sys2Proof.Laws
end

section
/-!
SUPPORT. Poison of granules (R280), populated larder addresses (R32) and the pieces of a range by granule.
-/
namespace Sys2Proof.Laws

open Sys2Proof Sys2Proof.Machine

/-! ## Poison -/

/-- The granules of a range take the poison set; every other keeps its own. -/
theorem poisoned_setPoison (m : Mem) (a n x : Nat) (p : Bool) : (m.setPoison a n p).poisoned x =
    if (granuleSpan a n).1 ≤ x / 64 ∧ x / 64 < (granuleSpan a n).1 + (granuleSpan a n).2 then p else m.poisoned x := by
  simp only [Mem.poisoned, Mem.setPoison, Mem.splicePoison]
  generalize (granuleSpan a n).1 = g, (granuleSpan a n).2 = k, x / 64 = y
  rw [Bool.eq_iff_iff, List.contains_iff_mem]
  by_cases hin : g ≤ y ∧ y < g + k
  · have hlow : ¬ y < g := by omega
    have hhigh : ¬ g + k ≤ y := by omega
    rw [if_pos hin]
    cases p with
    | false => simp [hlow, hhigh]
    | true =>
      simp only [if_true, List.mem_append, List.mem_filter, List.mem_map, List.mem_range, decide_eq_true_eq, hlow, hhigh,
        and_false, false_or, or_false, iff_true]
      exact ⟨y - g, by omega, by omega⟩
  · have hnew : y ∉ (if p = true then (List.range k).map (fun i => g + i) else []) := by
      cases p with
      | false => simp
      | true =>
        simp only [if_true, List.mem_map, List.mem_range, not_exists, not_and]
        omega
    have hold : y < g ∨ g + k ≤ y := by omega
    rw [if_neg hin]
    simp only [List.mem_append, List.mem_filter, decide_eq_true_eq, hnew, or_false, List.contains_iff_mem, ← and_or_left, hold,
      and_true]

/-- Setting the poison of a byte's granule sets that granule and no other. -/
theorem poisoned_setPoison_granule (m : Mem) {a n : Nat} (x : Nat) (p : Bool) (hn : 0 < n) (hg : (a + n - 1) / 64 = a / 64) :
    (m.setPoison a n p).poisoned x = if x / 64 = a / 64 then p else m.poisoned x := by
  have hspan : granuleSpan a n = (a / 64, 1) := by
    rw [granuleSpan, if_neg (by omega), hg, Nat.add_sub_cancel_left]
  rw [poisoned_setPoison, hspan]
  have hgranule : (a / 64 ≤ x / 64 ∧ x / 64 < a / 64 + 1) ↔ x / 64 = a / 64 := by omega
  exact ite_congr (propext hgranule) (fun _ => rfl) (fun _ => rfl)

theorem poisoned_congr (m : Mem) {a b : Nat} (h : a / 64 = b / 64) : m.poisoned a = m.poisoned b := by
  simp only [Mem.poisoned, h]

@[simp] theorem poisoned_write (m : Mem) (a x : Nat) (bs : List Byte) : (m.write a bs).poisoned x = m.poisoned x := rfl

/-! ## Populated larder addresses (R32) -/

theorem laPopulated_iff {a : Nat} : laPopulated a = true ↔ a < 2 ^ 37 ∧ a % 2 ^ 35 < 32000000000 := by
  simp [laPopulated]

/-- A granule is populated whole or not at all. -/
theorem laPopulated_granule {a b : Nat} (h : a / 64 = b / 64) : laPopulated a = laPopulated b := by
  rw [Bool.eq_iff_iff, laPopulated_iff, laPopulated_iff]
  omega

theorem laPopulated_of_laRange {la n x : Nat} (h : laRange la n = true) (hx : la ≤ x) (hxn : x < la + n) :
    laPopulated x = true := by
  simp only [laRange, Bool.and_eq_true, decide_eq_true_eq] at h
  rw [laPopulated_iff]
  omega

theorem larderDevice_lt {la : Nat} (h : laPopulated la = true) : larderDevice la < 32 := by
  rw [laPopulated_iff] at h
  unfold larderDevice
  omega

theorem larderDevice_die (la : Nat) : larderDevice la / 8 = la / 2 ^ 35 := by
  unfold larderDevice
  omega

/-! ## The pieces of a range by granule -/

/-- What a piece of [la, la + n) is: the part of the range in its granule, which is not empty. -/
structure IsPiece (la n : Nat) (p : Nat × Nat × Nat) : Prop where
  granule : p.2.1 / 64 = p.1
  bytes : ∀ x, (p.2.1 ≤ x ∧ x < p.2.1 + p.2.2) ↔ la ≤ x ∧ x < la + n ∧ x / 64 = p.1
  nonempty : 0 < p.2.2
  whole : p.2.2 = 64 ↔ la ≤ p.1 * 64 ∧ p.1 * 64 + 64 ≤ la + n

/-- Piece i of a range. -/
def pieceAt (la n i : Nat) : Nat × Nat × Nat :=
  (la / 64 + i, max la ((la / 64 + i) * 64), min (la + n) ((la / 64 + i) * 64 + 64) - max la ((la / 64 + i) * 64))

theorem granulePieces_eq (la n : Nat) : granulePieces la n = (List.range (granuleSpan la n).2).map (pieceAt la n) := rfl

theorem granuleSpan_count {la n i : Nat} (h : i < (granuleSpan la n).2) : 0 < n ∧ (la / 64 + i) * 64 < la + n := by
  unfold granuleSpan at h
  split at h
  · simp at h
  · dsimp only at h
    omega

theorem isPiece_of_mem {la n : Nat} {p : Nat × Nat × Nat} (h : p ∈ granulePieces la n) : IsPiece la n p := by
  simp only [granulePieces_eq, List.mem_map, List.mem_range] at h
  obtain ⟨i, hi, rfl⟩ := h
  have hcount := granuleSpan_count hi
  refine ⟨?_, fun x => ?_, ?_, ?_⟩ <;> simp only [pieceAt] <;> omega

/-- Every byte of a range lies in one of its pieces. -/
theorem granule_mem_pieces {la n x : Nat} (h : la ≤ x) (hn : x < la + n) : x / 64 ∈ (granulePieces la n).map Prod.fst := by
  simp only [granulePieces_eq, List.map_map, List.mem_map, List.mem_range, Function.comp_apply, granuleSpan, pieceAt]
  refine ⟨x / 64 - la / 64, ?_, by omega⟩
  rw [if_neg (by omega)]
  dsimp only
  omega

theorem IsPiece.first {la n : Nat} {p : Nat × Nat × Nat} (h : IsPiece la n p) : la ≤ p.2.1 ∧ p.2.1 < la + n := by
  have hpos := h.nonempty
  obtain ⟨hla, hend, -⟩ := (h.bytes p.2.1).mp ⟨Nat.le_refl _, by omega⟩
  exact ⟨hla, hend⟩

/-- A piece lies in one granule. -/
theorem IsPiece.last {la n : Nat} {p : Nat × Nat × Nat} (h : IsPiece la n p) : (p.2.1 + p.2.2 - 1) / 64 = p.2.1 / 64 := by
  have hpos := h.nonempty
  rw [h.granule]
  exact ((h.bytes (p.2.1 + p.2.2 - 1)).mp ⟨by omega, by omega⟩).2.2

/-- The first piece that does not lie in populated larder begins at the first unpopulated address. -/
theorem find_unpopulated {la n x : Nat} (h : la ≤ x) (hn : x < la + n) (hx : laPopulated x = false)
    (hbefore : ∀ y, la ≤ y → y < x → laPopulated y = true) :
    ∃ p, (granulePieces la n).find? (fun p => !laPopulated p.2.1) = some p ∧ p.2.1 = x := by
  have hstart : x = la ∨ x % 64 = 0 := by
    by_cases hc : x = la ∨ x % 64 = 0
    · exact hc
    · have hprev := hbefore (x - 1) (by omega) (by omega)
      rw [laPopulated_granule (b := x) (by omega), hx] at hprev
      cases hprev
  have hlo : max la ((la / 64 + (x / 64 - la / 64)) * 64) = x := by omega
  refine ⟨pieceAt la n (x / 64 - la / 64), ?_, hlo⟩
  rw [granulePieces_eq, List.find?_map, Option.map_eq_some_iff]
  refine ⟨_, ?_, rfl⟩
  rw [List.find?_range_eq_some]
  refine ⟨?_, ?_, fun j hj => ?_⟩
  · simp only [Function.comp_apply, pieceAt, hlo, hx, Bool.not_false]
  · rw [List.mem_range, granuleSpan, if_neg (by omega)]
    dsimp only
    omega
  · simp only [Function.comp_apply, pieceAt, Bool.not_not]
    exact hbefore _ (by omega) (by omega)

end Sys2Proof.Laws
end

section
/-!
The BAR2 window (R32 to R35, R282): what an access reports, what a read answers, and what a write stores piece by piece.
-/
namespace Sys2Proof.Laws

open Sys2Proof Sys2Proof.Machine

/-! ## What an access to the window reports -/

theorem sameButRegs_unpop (s : State) (la : Nat) : SameButRegs s (s.unpop la) := by
  unfold State.unpop
  split
  · exact .refl s
  · exact (sameButRegs_setFld _ _ _ _ _).trans (sameButRegs_setFld _ _ _ _ _)

theorem reg_unpop {s : State} {la b : Nat} (h : b ≠ 0x208) : (s.unpop la).reg b = s.reg b := by
  unfold State.unpop
  split
  · rfl
  · rw [reg_setFld_other _ _ _ _ _ h, reg_setFld_other _ _ _ _ _ h]

/-- UNPOP is set from the first unpopulated address on, and keeps its record (R34). -/
theorem unpop_of_set {s : State} (la : Nat) (h : s.bit 0 HUB_BAR2_ERR_UNPOP = true) : s.unpop la = s := by
  rw [State.unpop, if_pos h]

theorem unpopReported_unpop (s : State) (la : Nat) : unpopReported s (s.unpop la) la := by
  cases h : s.bit 0 HUB_BAR2_ERR_UNPOP with
  | true =>
    rw [unpop_of_set la h]
    exact ⟨h, (if_pos h).symm⟩
  | false =>
    rw [State.unpop, h, if_neg (by decide)]
    refine ⟨?_, (fld_setFld_same _ _ HUB_BAR2_ERR_ADDR _ _ (by decide)).trans (by simp [h])⟩
    exact (bit_setFld_bits (f := HUB_BAR2_ERR_ADDR) (g := HUB_BAR2_ERR_UNPOP) (i := 0) _ rfl (.inr (by decide))).trans
      (bit_setFld_one s 0 HUB_BAR2_ERR_UNPOP 0 (by decide) (by decide))

theorem unpopReported_of_reg {s t u : State} {la : Nat} (h : u.reg 0x208 = t.reg 0x208) (ht : unpopReported s t la) :
    unpopReported s u la :=
  ⟨(bit_of_reg (f := HUB_BAR2_ERR_UNPOP) h).trans ht.1, (fld_of_reg (f := HUB_BAR2_ERR_ADDR) h).trans ht.2⟩

/-- UNPOP and its record depend on their register alone. -/
theorem reg_unpop_congr {s t : State} (la : Nat) (h : t.reg 0x208 = s.reg 0x208) :
    (t.unpop la).reg 0x208 = (s.unpop la).reg 0x208 := by
  have hbit : t.bit 0 HUB_BAR2_ERR_UNPOP = s.bit 0 HUB_BAR2_ERR_UNPOP := bit_of_reg h
  have hat : ∀ f : Fld, f = HUB_BAR2_ERR_UNPOP ∨ f = HUB_BAR2_ERR_ADDR → f.at 0 0 = 0x208 := by
    rintro f (rfl | rfl) <;> rfl
  unfold State.unpop
  rw [hbit]
  split
  · exact h
  · simp only [State.setFld, hat _ (.inl rfl), hat _ (.inr rfl), reg_setReg_same, h]

/-- The report of the first piece that is not populated, if any is. -/
def noteUnpop (s : State) (ps : List (Nat × Nat × Nat)) : State :=
  match ps.find? (fun p => !laPopulated p.2.1) with
  | some p => s.unpop p.2.1
  | none => s

theorem sameButRegs_noteUnpop (s : State) (ps : List (Nat × Nat × Nat)) : SameButRegs s (noteUnpop s ps) := by
  unfold noteUnpop
  split
  · exact sameButRegs_unpop s _
  · exact .refl s

theorem reg_noteUnpop {s : State} (ps : List (Nat × Nat × Nat)) {b : Nat} (h : b ≠ 0x208) : (noteUnpop s ps).reg b = s.reg b := by
  unfold noteUnpop
  split
  · exact reg_unpop h
  · rfl

theorem reg_noteUnpop_congr {s t : State} (ps : List (Nat × Nat × Nat)) (h : t.reg 0x208 = s.reg 0x208) :
    (noteUnpop t ps).reg 0x208 = (noteUnpop s ps).reg 0x208 := by
  unfold noteUnpop
  split
  · exact reg_unpop_congr _ h
  · exact h

theorem unpopReported_noteUnpop (s : State) {la n x : Nat} (h : la ≤ x) (hn : x < la + n) (hx : laPopulated x = false)
    (hbefore : ∀ y, la ≤ y → y < x → laPopulated y = true) : unpopReported s (noteUnpop s (granulePieces la n)) x := by
  obtain ⟨p, hp, rfl⟩ := find_unpopulated h hn hx hbefore
  simp only [noteUnpop, hp]
  exact unpopReported_unpop s _

theorem sameButRegs_poisonLog (s : State) (src la : Nat) : SameButRegs s (s.poisonLog src la) := by
  unfold State.poisonLog
  split
  · exact .refl s
  · exact sameButRegs_setReg s _ _

theorem reg_poisonLog {s : State} {src la b : Nat} (h : b ≠ 0x400810) : (s.poisonLog src la).reg b = s.reg b := by
  unfold State.poisonLog
  split
  · rfl
  · exact reg_setReg_other s _ h

/-! ## BAR2 reads -/

/-- A piece that answers poisoned. -/
def poisonedPiece (s : State) (p : Nat × Nat × Nat) : Bool := laPopulated p.2.1 && s.larder.poisoned p.2.1

/-- The record of the first poisoned piece, if any is. -/
def notePoison (s : State) (ps : List (Nat × Nat × Nat)) : State :=
  match ps.find? (poisonedPiece s) with
  | some p => s.poisonLog 1 p.2.1
  | none => s

theorem sameButRegs_notePoison (s : State) (ps : List (Nat × Nat × Nat)) : SameButRegs s (notePoison s ps) := by
  unfold notePoison
  split
  · exact sameButRegs_poisonLog s _ _
  · exact .refl s

theorem reg_notePoison {s : State} (ps : List (Nat × Nat × Nat)) {b : Nat} (h : b ≠ 0x400810) :
    (notePoison s ps).reg b = s.reg b := by
  unfold notePoison
  split
  · exact reg_poisonLog h
  · rfl

/-- What a read answers once its errors have struck. -/
def answerRead (s : State) (la len : Nat) : State :=
  { notePoison s (granulePieces la len) with
    rd := ⟨(List.range len).map (fun i =>
        if laPopulated (la + i) then (notePoison s (granulePieces la len)).larder.read1 (la + i) else 0xFF),
      ((granulePieces la len).find? (poisonedPiece s)).isSome⟩ }

theorem sameButRegs_rd {s t : State} (rd : ReadBack) (h : SameButRegs s t) : SameButRegs s { t with rd := rd } :=
  ⟨h.memories, h.work, h.hub⟩

theorem sameButRegs_answerRead (s : State) (la len : Nat) : SameButRegs s (answerRead s la len) :=
  sameButRegs_rd _ (sameButRegs_notePoison s _)

theorem reg_answerRead {s : State} (la len : Nat) {b : Nat} (h : b ≠ 0x400810) : (answerRead s la len).reg b = s.reg b :=
  reg_notePoison _ h

theorem answerRead_data (s : State) (la len : Nat) : (answerRead s la len).rd.data =
    (List.range len).map (fun i => if laPopulated (la + i) then s.larder.read1 (la + i) else 0xFF) := by
  simp only [answerRead, (sameButRegs_notePoison s (granulePieces la len)).larder]

/-- A read is poisoned exactly where it covers a poisoned granule (R282). -/
theorem answerRead_poison (s : State) (la len : Nat) : (answerRead s la len).rd.poison = true ↔
    ∃ x, la ≤ x ∧ x < la + len ∧ laPopulated x = true ∧ s.larder.poisoned x = true := by
  simp only [answerRead, List.find?_isSome, poisonedPiece, Bool.and_eq_true]
  constructor
  · rintro ⟨p, hp, hpop, hpois⟩
    have hin := (isPiece_of_mem hp).first
    exact ⟨p.2.1, hin.1, hin.2, hpop, hpois⟩
  · rintro ⟨x, hx, hxn, hpop, hpois⟩
    obtain ⟨p, hp, hg⟩ := List.mem_map.mp (granule_mem_pieces hx hxn)
    have hgr : p.2.1 / 64 = x / 64 := (isPiece_of_mem hp).granule.trans hg
    exact ⟨p, hp, (laPopulated_granule hgr).trans hpop, (poisoned_congr _ hgr).trans hpois⟩

/-- What a read inside the window does, powered or not. -/
theorem exec_bar2Read_inside {off len : Nat} (es : List BurstErr) {s : State} (h : off + len ≤ s.bar2Bytes) :
    exec (.bar2Read off len es) s = .next (
      let la := s.bar2La off
      let u := noteUnpop s (granulePieces la len)
      if !u.power.main then
        { u.drawnN len with
          rd := ⟨(List.range len).map (fun i =>
            if laPopulated (la + i) then (freeBytes (u.fresh + i) 1).headD 0 else 0xFF), false⟩ }
      else answerRead (u.bursts [(la, len)] [] es) la len) := by
  show execBar2Read off len es s = _
  rw [execBar2Read, if_neg (by omega)]
  rfl

theorem exec_bar2Read_powered {off len : Nat} (es : List BurstErr) {s : State} (h : off + len ≤ s.bar2Bytes)
    (hp : s.power.main = true) : exec (.bar2Read off len es) s =
      .next (answerRead ((noteUnpop s (granulePieces (s.bar2La off) len)).bursts [(s.bar2La off, len)] [] es)
        (s.bar2La off) len) := by
  rw [exec_bar2Read_inside es h]
  simp [(sameButRegs_noteUnpop s (granulePieces (s.bar2La off) len)).power, hp]

theorem exec_bar2Read_unpowered {off len : Nat} (es : List BurstErr) {s : State} (h : off + len ≤ s.bar2Bytes)
    (hp : s.power.main = false) : ∃ t, exec (.bar2Read off len es) s = .next t ∧ SameButRegs s t := by
  have hsame := sameButRegs_noteUnpop s (granulePieces (s.bar2La off) len)
  refine ⟨_, exec_bar2Read_inside es h, ?_⟩
  simp only [hsame.power, hp, Bool.not_false, if_true]
  exact ⟨hsame.memories, hsame.work, hsame.hub⟩

/-! ## BAR2 writes -/

/-- All but registers and the larder is as before. -/
structure SameButLarder (s t : State) : Prop where
  memories : t.host = s.host ∧ t.attic = s.attic ∧ t.shelf = s.shelf ∧ t.store = s.store
  work : sameWork s t
  hub : sameHub s t

theorem SameButLarder.power {s t : State} (h : SameButLarder s t) : t.power = s.power := h.hub.2.1

theorem SameButLarder.refl (s : State) : SameButLarder s s := by constructor <;> simp [sameWork, sameHub]

theorem SameButLarder.trans {s t u : State} (h : SameButLarder s t) (h' : SameButLarder t u) : SameButLarder s u := by
  obtain ⟨hm, hw, hh⟩ := h
  obtain ⟨hm', hw', hh'⟩ := h'
  constructor <;> simp_all [sameWork, sameHub]

theorem SameButRegs.sameButLarder {s t : State} (h : SameButRegs s t) : SameButLarder s t := by
  obtain ⟨⟨hhost, -, hattic, hshelf, hstore⟩, hw, hh⟩ := h
  exact ⟨⟨hhost, hattic, hshelf, hstore⟩, hw, hh⟩

theorem touchEpoch_eq (s : State) (la n : Nat) : ∃ e, s.touchEpoch la n = { s with epochs := e } := by
  unfold State.touchEpoch
  split
  · exact ⟨s.epochs, rfl⟩
  · refine forAll_related (R := fun s t => ∃ e, t = { s with epochs := e }) (fun s => ⟨s.epochs, rfl⟩) ?_ (fun s i _ => ⟨_, rfl⟩) s
    rintro s _ _ ⟨e, rfl⟩ ⟨e', rfl⟩
    exact ⟨e', rfl⟩

/-- A write to the larder changes its bytes and poison, and the epochs of its regions. -/
theorem larderWrite_eq (s : State) (la : Nat) (bs : List Byte) (p : Bool) :
    ∃ e, s.larderWrite la bs p = { s with larder := s.larder.writeP la bs p, epochs := e } := by
  obtain ⟨e, he⟩ := touchEpoch_eq { s with larder := s.larder.writeP la bs p } la bs.length
  exact ⟨e, he⟩

section pieces

variable {s : State} {la : Nat} {data : List Byte} {poison : Bool} {p : Nat × Nat × Nat}

theorem bar2Piece_unpopulated (h : laPopulated p.2.1 = false) : s.bar2Piece la data poison p = s.unpop p.2.1 := by
  simp [State.bar2Piece, h]

theorem bar2Piece_unpowered (h : laPopulated p.2.1 = true) (hp : s.power.main = false) : s.bar2Piece la data poison p = s := by
  simp [State.bar2Piece, h, hp]

/-- The bytes of a piece. -/
def pieceBytes (la : Nat) (data : List Byte) (p : Nat × Nat × Nat) : List Byte := (data.drop (p.2.1 - la)).take p.2.2

/-- The poison that a piece's granule takes (R282). -/
def piecePoison (s : State) (poison : Bool) (p : Nat × Nat × Nat) : Bool :=
  poison || (p.2.2 != 64 && s.larder.poisoned p.2.1)

theorem bar2Piece_powered (h : laPopulated p.2.1 = true) (hp : s.power.main = true) : s.bar2Piece la data poison p =
    if poison then (s.larderWrite p.2.1 (pieceBytes la data p) (piecePoison s poison p)).poisonLog 2 p.2.1
    else s.larderWrite p.2.1 (pieceBytes la data p) (piecePoison s poison p) := by
  simp [State.bar2Piece, h, hp, pieceBytes, piecePoison]

theorem bar2Piece_larder (h : laPopulated p.2.1 = true) (hp : s.power.main = true) :
    (s.bar2Piece la data poison p).larder = s.larder.writeP p.2.1 (pieceBytes la data p) (piecePoison s poison p) := by
  obtain ⟨e, he⟩ := larderWrite_eq s p.2.1 (pieceBytes la data p) (piecePoison s poison p)
  rw [bar2Piece_powered h hp, he]
  split
  · exact (sameButRegs_poisonLog _ _ _).larder
  · rfl

theorem sameButLarder_bar2Piece : SameButLarder s (s.bar2Piece la data poison p) := by
  cases h : laPopulated p.2.1 with
  | false => rw [bar2Piece_unpopulated h]; exact (sameButRegs_unpop s _).sameButLarder
  | true =>
    cases hp : s.power.main with
    | false => rw [bar2Piece_unpowered h hp]; exact .refl s
    | true =>
      obtain ⟨e, he⟩ := larderWrite_eq s p.2.1 (pieceBytes la data p) (piecePoison s poison p)
      have hwrite : SameButLarder s (s.larderWrite p.2.1 (pieceBytes la data p) (piecePoison s poison p)) := by
        rw [he]
        constructor <;> simp [sameWork, sameHub]
      rw [bar2Piece_powered h hp]
      split
      · exact hwrite.trans (sameButRegs_poisonLog _ _ _).sameButLarder
      · exact hwrite

theorem reg_bar2Piece (h : laPopulated p.2.1 = true) {b : Nat} (hb : b ≠ 0x400810) :
    (s.bar2Piece la data poison p).reg b = s.reg b := by
  cases hp : s.power.main with
  | false => rw [bar2Piece_unpowered h hp]
  | true =>
    obtain ⟨e, he⟩ := larderWrite_eq s p.2.1 (pieceBytes la data p) (piecePoison s poison p)
    rw [bar2Piece_powered h hp, he]
    split
    · exact reg_poisonLog hb
    · rfl

theorem sameButRegs_bar2Piece (hp : s.power.main = false) : SameButRegs s (s.bar2Piece la data poison p) := by
  cases h : laPopulated p.2.1 with
  | false => rw [bar2Piece_unpopulated h]; exact sameButRegs_unpop s _
  | true => rw [bar2Piece_unpowered h hp]; exact .refl s

end pieces

/-! ### The pieces of a write together -/

section writes

variable (la : Nat) (data : List Byte) (poison : Bool)

/-- The pieces of a list written in turn. -/
def writePieces (s : State) (ps : List (Nat × Nat × Nat)) : State :=
  s.forAll ps (fun s p => s.bar2Piece la data poison p)

theorem sameButLarder_writePieces (s : State) (ps : List (Nat × Nat × Nat)) :
    SameButLarder s (writePieces la data poison s ps) :=
  forAll_related (R := SameButLarder) .refl .trans (fun _ _ _ => sameButLarder_bar2Piece) s

theorem sameButRegs_writePieces {s : State} (ps : List (Nat × Nat × Nat)) (hp : s.power.main = false) :
    SameButRegs s (writePieces la data poison s ps) :=
  forAll_related (R := fun s t => s.power.main = false → SameButRegs s t) (fun s _ => .refl s)
    (fun h h' hp => (h hp).trans (h' ((congrArg Power.main (h hp).power).trans hp)))
    (fun _ _ _ => sameButRegs_bar2Piece) s hp

theorem reg_writePieces {s : State} {ps : List (Nat × Nat × Nat)} (h : ∀ p ∈ ps, laPopulated p.2.1 = true) {b : Nat}
    (hb : b ≠ 0x400810) : (writePieces la data poison s ps).reg b = s.reg b :=
  forAll_related (R := fun s t => t.reg b = s.reg b) (fun _ => rfl) (fun h h' => h'.trans h)
    (fun _ p hp => reg_bar2Piece (h p hp) hb) s

/-- Once UNPOP is set, no piece changes it or its record. -/
theorem reg_writePieces_set {s : State} (ps : List (Nat × Nat × Nat)) (h : s.bit 0 HUB_BAR2_ERR_UNPOP = true) :
    (writePieces la data poison s ps).reg 0x208 = s.reg 0x208 :=
  forAll_related (R := fun s t => s.bit 0 HUB_BAR2_ERR_UNPOP = true → t.reg 0x208 = s.reg 0x208) (fun _ _ => rfl)
    (fun h h' hs => (h' ((bit_of_reg (f := HUB_BAR2_ERR_UNPOP) (h hs)).trans hs)).trans (h hs))
    (fun s p _ hs => by
      cases hpop : laPopulated p.2.1 with
      | false => rw [bar2Piece_unpopulated hpop, unpop_of_set _ hs]
      | true => exact reg_bar2Piece hpop (by decide)) s h

/-- A write reports what its first unpopulated piece reports (R34). -/
theorem reg_writePieces_unpop (s : State) (ps : List (Nat × Nat × Nat)) :
    (writePieces la data poison s ps).reg 0x208 = (noteUnpop s ps).reg 0x208 := by
  induction ps generalizing s with
  | nil => rfl
  | cons p ps ih =>
    show (writePieces la data poison (s.bar2Piece la data poison p) ps).reg 0x208 = _
    cases hpop : laPopulated p.2.1 with
    | false =>
      have hnote : noteUnpop s (p :: ps) = s.unpop p.2.1 := by simp [noteUnpop, hpop]
      rw [hnote, bar2Piece_unpopulated hpop]
      exact reg_writePieces_set la data poison ps (unpopReported_unpop s p.2.1).1
    | true =>
      have hnote : noteUnpop s (p :: ps) = noteUnpop s ps := by simp [noteUnpop, hpop]
      rw [hnote, ih]
      exact reg_noteUnpop_congr ps (reg_bar2Piece hpop (by decide))

end writes

theorem length_pieceBytes {la : Nat} {data : List Byte} {p : Nat × Nat × Nat} (h : IsPiece la data.length p) :
    (pieceBytes la data p).length = p.2.2 := by
  have hpos := h.nonempty
  have hfirst := h.first
  have hlast := (h.bytes (p.2.1 + p.2.2 - 1)).mp ⟨by omega, by omega⟩
  rw [pieceBytes, List.length_take, List.length_drop]
  omega

/-- A byte of the larder after one piece: the data's inside the piece. -/
theorem read1_bar2Piece {s : State} {la : Nat} {data : List Byte} {poison : Bool} {p : Nat × Nat × Nat}
    (h : IsPiece la data.length p) (hpop : laPopulated p.2.1 = true) (hp : s.power.main = true) (x : Nat) :
    (s.bar2Piece la data poison p).larder.read1 x =
      if la ≤ x ∧ x < la + data.length ∧ x / 64 = p.1 then data.getD (x - la) 0 else s.larder.read1 x := by
  rw [bar2Piece_larder hpop hp, Mem.writeP, read1_setPoison]
  have hlen := length_pieceBytes h
  by_cases hin : p.2.1 ≤ x ∧ x < p.2.1 + p.2.2
  · have hoff : x = p.2.1 + (x - p.2.1) := by omega
    have hla := h.first
    rw [if_pos ((h.bytes x).mp hin), hoff, read1_write_in _ _ _ (by omega), pieceBytes, ← hoff]
    simp only [List.getD_eq_getElem?_getD, List.getElem?_take, List.getElem?_drop]
    rw [if_pos (by omega), show p.2.1 - la + (x - p.2.1) = x - la by omega]
  · rw [if_neg (fun hc => hin ((h.bytes x).mpr hc)), read1_write_out _ _ _ (by omega)]

/-- A granule's poison after one piece. -/
theorem poisoned_bar2Piece {s : State} {la : Nat} {data : List Byte} {poison : Bool} {p : Nat × Nat × Nat}
    (h : IsPiece la data.length p) (hpop : laPopulated p.2.1 = true) (hp : s.power.main = true) (x : Nat) :
    (s.bar2Piece la data poison p).larder.poisoned x =
      if x / 64 = p.1 then poison || (p.2.2 != 64 && s.larder.poisoned x) else s.larder.poisoned x := by
  have hlen := length_pieceBytes h
  rw [bar2Piece_larder hpop hp, Mem.writeP, poisoned_setPoison_granule _ x _ (by have := h.nonempty; omega)
    (by rw [hlen]; exact h.last), h.granule]
  split
  · next hx => rw [piecePoison, poisoned_congr _ (h.granule.trans hx.symm)]
  · rfl

section

variable {la : Nat} {data : List Byte} {poison : Bool} {ps : List (Nat × Nat × Nat)}

/-- The larder after pieces of a write: the data where a populated piece lies, the old bytes elsewhere. -/
theorem read1_writePieces {s : State} (h : ∀ p ∈ ps, IsPiece la data.length p) (hp : s.power.main = true) (x : Nat) :
    (writePieces la data poison s ps).larder.read1 x =
      if la ≤ x ∧ x < la + data.length ∧ laPopulated x = true ∧ x / 64 ∈ ps.map Prod.fst then data.getD (x - la) 0
      else s.larder.read1 x := by
  induction ps generalizing s with
  | nil => simp [writePieces, State.forAll]
  | cons p ps ih =>
    have hpiece := h p List.mem_cons_self
    have hp' : (s.bar2Piece la data poison p).power.main = true := by rw [sameButLarder_bar2Piece.power, hp]
    show (writePieces la data poison (s.bar2Piece la data poison p) ps).larder.read1 x = _
    rw [ih (fun q hq => h q (List.mem_cons_of_mem _ hq)) hp']
    simp only [List.map_cons, List.mem_cons]
    have hpop : x / 64 = p.1 → laPopulated x = laPopulated p.2.1 := fun hx =>
      laPopulated_granule (hx.trans hpiece.granule.symm)
    cases hl : laPopulated p.2.1 with
    | false =>
      rw [bar2Piece_unpopulated hl, (sameButRegs_unpop s _).larder]
      by_cases hx : laPopulated x = true
      · have hg : x / 64 ≠ p.1 := fun hg => by rw [hpop hg, hl] at hx; cases hx
        simp only [hg, false_or]
      · simp only [hx, Bool.false_eq_true, false_and, and_false]
    | true =>
      rw [read1_bar2Piece hpiece hl hp]
      by_cases hg : x / 64 = p.1
      · have hx : laPopulated x = true := (hpop hg).trans hl
        by_cases hin : la ≤ x ∧ x < la + data.length
        · simp only [hx, hg, hin.1, hin.2, true_and, true_or, if_true, ite_self]
        · rw [if_neg (fun hc => hin ⟨hc.1, hc.2.1⟩), if_neg (fun hc => hin ⟨hc.1, hc.2.1⟩), if_neg (fun hc => hin ⟨hc.1, hc.2.1⟩)]
      · simp only [hg, false_or, and_false, if_false]

/-- Poison after pieces of a write (R282). -/
theorem poisoned_writePieces {s : State} (h : ∀ p ∈ ps, IsPiece la data.length p) (hp : s.power.main = true) (x : Nat) :
    (writePieces la data poison s ps).larder.poisoned x =
      if laPopulated x = true ∧ x / 64 ∈ ps.map Prod.fst then
        poison || (s.larder.poisoned x && !(decide (la ≤ x / 64 * 64) && decide (x / 64 * 64 + 64 ≤ la + data.length)))
      else s.larder.poisoned x := by
  induction ps generalizing s with
  | nil => simp [writePieces, State.forAll]
  | cons p ps ih =>
    have hpiece := h p List.mem_cons_self
    have hp' : (s.bar2Piece la data poison p).power.main = true := by rw [sameButLarder_bar2Piece.power, hp]
    show (writePieces la data poison (s.bar2Piece la data poison p) ps).larder.poisoned x = _
    rw [ih (fun q hq => h q (List.mem_cons_of_mem _ hq)) hp']
    simp only [List.map_cons, List.mem_cons]
    have hpop : x / 64 = p.1 → laPopulated x = laPopulated p.2.1 := fun hx =>
      laPopulated_granule (hx.trans hpiece.granule.symm)
    cases hl : laPopulated p.2.1 with
    | false =>
      rw [bar2Piece_unpopulated hl, (sameButRegs_unpop s _).larder]
      by_cases hx : laPopulated x = true
      · have hg : x / 64 ≠ p.1 := fun hg => by rw [hpop hg, hl] at hx; cases hx
        simp only [hg, false_or]
      · simp only [hx, Bool.false_eq_true, false_and]
    | true =>
      rw [poisoned_bar2Piece hpiece hl hp]
      by_cases hg : x / 64 = p.1
      · have hx : laPopulated x = true := (hpop hg).trans hl
        have hpart : (p.2.2 != 64) = !(decide (la ≤ p.1 * 64) && decide (p.1 * 64 + 64 ≤ la + data.length)) := by
          refine congrArg Bool.not (Bool.eq_iff_iff.mpr ?_)
          rw [beq_iff_eq, Bool.and_eq_true, decide_eq_true_eq, decide_eq_true_eq]
          exact hpiece.whole
        simp only [hx, hg, true_and, true_or, if_true, hpart]
        generalize (decide (la ≤ p.1 * 64) && decide (p.1 * 64 + 64 ≤ la + data.length)) = whole, s.larder.poisoned x = old
        split
        · cases poison <;> cases whole <;> cases old <;> rfl
        · rw [Bool.and_comm]
      · simp only [hg, false_or, if_false]

end

end Sys2Proof.Laws
end

section
/-!
SUPPORT. A die that leaves service in a module without pairs and jobs (R427): which registers tell of it.
-/
namespace Sys2Proof.Laws

open Sys2Proof Sys2Proof.Machine

/-! ## A die that leaves service while nothing runs (R427) -/

/-- Registers that tell of die d leaving service: HUB_STATUS, its HUB_DIE_STATE, the count of lost dies, the trace unit's
position, and those of the dies' windows. -/
def leavingReg (d b : Nat) : Prop :=
  b = 0 ∨ b = HUB_DIE_STATE_STATE.at 0 d ∨ b = 0x1718 ∨ b = 0x200408 ∨ 0x1000000 ≤ b

/-- A step of die d's leaving: pairs and jobs stand, the die's state keeps its code, and no register but its own changes. -/
structure Leaving (d : Nat) (s t : State) : Prop where
  qps : t.qps = s.qps
  jobs : t.jobs = s.jobs
  state : t.dieState d = s.dieState d
  regs : sameRegs (leavingReg d) s t

theorem Leaving.refl (d : Nat) (s : State) : Leaving d s s := ⟨rfl, rfl, rfl, fun _ _ => rfl⟩

theorem Leaving.trans {d : Nat} {s t u : State} (h : Leaving d s t) (h' : Leaving d t u) : Leaving d s u :=
  ⟨h'.qps.trans h.qps, h'.jobs.trans h.jobs, h'.state.trans h.state, fun b hb => (h'.regs b hb).trans (h.regs b hb)⟩

/-- A change of what is neither a register nor a pair nor a job. -/
theorem leaving_of_regs {d : Nat} {s t : State} (hq : t.qps = s.qps) (hj : t.jobs = s.jobs) (hr : t.regs = s.regs) :
    Leaving d s t := by
  have hreg : ∀ b, t.reg b = s.reg b := fun b => by simp only [State.reg, hr]
  exact ⟨hq, hj, fld_of_reg (hreg _), fun b _ => hreg b⟩

theorem leaving_modDie {d : Nat} (s : State) (e : Nat) (f : DieSt → DieSt) : Leaving d s (s.modDie e f) :=
  leaving_of_regs rfl rfl rfl

/-- A field of another register of the die's leaving. -/
theorem leaving_setFld_other {d : Nat} (s : State) {base i : Nat} {f : Fld} (v : Nat) (h : leavingReg d (f.at base i))
    (hne : HUB_DIE_STATE_STATE.at 0 d ≠ f.at base i) : Leaving d s (s.setFld base f v i) :=
  ⟨rfl, rfl, fld_setFld_reg s hne, fun _ hb => reg_setFld_other s base f v i (fun hbf => hb (hbf ▸ h))⟩

/-- Another field of the die's HUB_DIE_STATE. -/
theorem leaving_setFld_state {d : Nat} (s : State) {f : Fld} (v : Nat) (h : HUB_DIE_STATE_STATE.at 0 d = f.at 0 d)
    (hlo : 2 < f.lo) : Leaving d s (s.setFld 0 f v d) :=
  ⟨rfl, rfl, fld_setFld_bits s h (.inr hlo), fun _ hb => reg_setFld_other s 0 f v d (fun hbf =>
    hb (.inr (.inl (hbf.trans h.symm))))⟩

/-- A register of a die's window. -/
theorem leaving_setFld_window {d : Nat} (hd : d < 4) (s : State) (e : Nat) (f : Fld) (v i : Nat) :
    Leaving d s (s.setFld (dieAt e) f v i) := by
  have hat : 0x1000000 ≤ f.at (dieAt e) i := by simp only [Fld.at, dieAt]; omega
  refine leaving_setFld_other s v (.inr (.inr (.inr (.inr hat)))) ?_
  simp only [Fld.at] at hat ⊢
  omega

theorem leaving_forAll {α : Type} {d : Nat} {f : State → α → State} (hf : ∀ s x, Leaving d s (f s x)) (s : State) (l : List α) :
    Leaving d s (s.forAll l f) := forAll_related (Leaving.refl d) Leaving.trans (fun s x _ => hf s x) s

theorem leaving_trace {d : Nat} (hd : d < 4) (s : State) (cls die core slot : Nat) : Leaving d s (s.trace cls die core slot) := by
  have hreg : ∀ (s : State) (f : Fld) (v : Nat), f.at 0 0 = 0x200408 → Leaving d s (s.setFld 0 f v) := fun s f v hat =>
    leaving_setFld_other s v (.inr (.inr (.inr (.inl hat)))) (by rw [hat]; simp only [Fld.at]; omega)
  have hdrawn : ∀ s : State, Leaving d s s.drawn := fun s => leaving_of_regs rfl rfl rfl
  unfold State.trace
  dsimp only
  split
  · exact .refl d s
  · split
    · exact (hdrawn s).trans (hreg _ SEC_TRACE_STAT_DROPPED _ rfl)
    · have hput : ∀ i v, Leaving d s ({ s.drawn with sec := { s.drawn.sec with trace := Tab.setD s.drawn.sec.trace i v 0 } }) :=
        fun i v => leaving_of_regs rfl rfl rfl
      split
      · exact ((hput _ _).trans (hreg _ SEC_TRACE_STAT_WR_INDEX _ rfl)).trans (hreg _ SEC_TRACE_STAT_WRAPPED _ rfl)
      · exact (hput _ _).trans (hreg _ SEC_TRACE_STAT_WR_INDEX _ rfl)

/-- One fill of die d abandoned: the FILLING bit of its place, its spare and the count. -/
def abandonFill (s : State) (d : Nat) (f : FillSt) : State :=
  let a := dieAt d
  let s := s.setFld a DIE_CORE_MAP_FILLING 0 f.logical
  let s := ((List.range 4).filter (fun q => s.fld a DIE_SPARE_Q_PHYS q == f.target && s.fld a DIE_SPARE_Q_STATE q == 1)).foldl
    (fun s q => s.setFld a DIE_SPARE_Q_STATE 0 q) s
  s.bump a DIE_FILL_CNT_ABANDONED_V

/-- Die d has no fill any more, and its registers show none. -/
def endFills (s : State) (d : Nat) : State :=
  let s := s.modDie d (fun x => { x with fills := [] })
  let s := (s.setFld (dieAt d) DIE_FILL_STAT_STATE 0).setFld (dieAt d) DIE_FILL_STAT_QUEUED 0
  s.setFld 0 HUB_DIE_STATE_FILL_ACTIVE 0 d

section fills

variable {d : Nat} (hd : d < 4)
include hd

theorem leaving_abandonFill (s : State) (f : FillSt) : Leaving d s (abandonFill s d f) :=
  ((leaving_setFld_window hd s d _ _ _).trans (leaving_forAll (fun s q => leaving_setFld_window hd s d _ _ q) _ _)).trans
    (leaving_setFld_window hd _ d _ _ _)

theorem leaving_endFills (s : State) : Leaving d s (endFills s d) :=
  (leaving_modDie s d _).trans ((leaving_setFld_window hd _ d DIE_FILL_STAT_STATE 0 0).trans
    ((leaving_setFld_window hd _ d DIE_FILL_STAT_QUEUED 0 0).trans
      (leaving_setFld_state (f := HUB_DIE_STATE_FILL_ACTIVE) _ _ rfl (by decide))))

theorem leaving_abandonFills (s : State) : Leaving d s (s.abandonFills d) := by
  have hlog : ∀ (s : State) (f : Fld) (v : Nat), Leaving d s (s.setFld (dieAt d) f v) := fun s f v =>
    leaving_setFld_window hd s d f v 0
  unfold State.abandonFills
  dsimp only
  split
  · exact .refl d s
  · refine (leaving_forAll (leaving_abandonFill hd) s (s.die d).fills).trans ?_
    split
    · exact ((((hlog _ _ _).trans (hlog _ _ _)).trans (hlog _ _ _)).trans (hlog _ _ _)).trans
        ((hlog _ _ _).trans (leaving_endFills hd _))
    · exact leaving_endFills hd _

end fills

theorem leaving_scramble {d : Nat} (s : State) (tier key n : Nat) (pois : Option Bool) :
    Leaving d s (s.scramble tier key n pois) := by
  unfold State.scramble State.setTierMem
  dsimp only
  repeat' split
  all_goals exact leaving_of_regs rfl rfl rfl

theorem leaving_scrambleDie {d : Nat} (s : State) (e : Nat) : Leaving d s (s.scrambleDie e) :=
  ((leaving_scramble s _ _ _ _).trans (leaving_scramble _ _ _ _ _)).trans (leaving_scramble _ _ _ _ _)

theorem leaving_showSpares {d : Nat} (s : State) : Leaving d s (s.showSpares d) :=
  (leaving_setFld_state (f := HUB_DIE_STATE_SPARES) s _ rfl (by decide)).trans
    (leaving_setFld_state (f := HUB_DIE_STATE_FILL_ACTIVE) _ _ rfl (by decide))

theorem shrinkSets_of_no_jobs {s : State} (cause : Nat) (h : s.jobs = []) : s.shrinkSets cause = s := by
  simp [State.shrinkSets, State.forAll, h]

theorem copyLost_of_no_pairs {s : State} (d : Nat) (h : s.qps = []) : s.copyLost d = s := by
  simp [State.copyLost, State.forAll, h]

theorem partLost_of_no_pairs {s : State} (d : Nat) (h : s.qps = []) : s.partLost d = s := by
  simp [State.partLost, State.forAll, h]

/-- The registers by which a die reports that it leaves, ahead of what it abandons. -/
def announceLeaving (s : State) (d cause st : Nat) : State :=
  let s := (s.setFld 0 HUB_DIE_STATE_STATE st d).setFld 0 HUB_DIE_STATE_CAUSE cause d
  let s := s.setFld 0 HUB_STATUS_DIES (clearBit (s.fld 0 HUB_STATUS_DIES) d)
  (s.bump 0 HUB_FLT_CNT_DIE_OUT_V).trace 6 d 96 0

theorem leaving_announceLeaving {d : Nat} (hd : d < 4) (s : State) (cause st : Nat) :
    Leaving d (s.setFld 0 HUB_DIE_STATE_STATE st d) (announceLeaving s d cause st) := by
  refine (leaving_setFld_state (f := HUB_DIE_STATE_CAUSE) _ cause rfl (by decide)).trans ?_
  refine (leaving_setFld_other (f := HUB_STATUS_DIES) (i := 0) _ _ (.inl rfl) ?_).trans
    ((leaving_setFld_other (f := HUB_FLT_CNT_DIE_OUT_V) (i := 0) _ _ (.inr (.inr (.inl rfl))) ?_).trans
    (leaving_trace hd _ _ _ _ _))
  · simp only [Fld.at]; omega
  · simp only [Fld.at]; omega

/-- A module without pairs and jobs abandons only the die's fills and contents. -/
theorem leaveService_atRest {d : Nat} (hd : d < 4) {s : State} (hrest : atRest s) (h0 : s.dieState d = 0) (cause st : Nat) :
    s.leaveService d cause st = (((announceLeaving s d cause st).abandonFills d).scrambleDie d).showSpares d := by
  have hx := (leaving_announceLeaving hd s cause st).trans (leaving_abandonFills hd _)
  have hy := hx.trans (leaving_scrambleDie _ d)
  have hjobs : ((announceLeaving s d cause st).abandonFills d).jobs = [] := hx.jobs.trans hrest.2
  have hqps : (((announceLeaving s d cause st).abandonFills d).scrambleDie d).qps = [] := hy.qps.trans hrest.1
  have hjobs' : (((announceLeaving s d cause st).abandonFills d).scrambleDie d).jobs = [] := hy.jobs.trans hrest.2
  unfold State.leaveService
  rw [if_neg (by simp [h0])]
  simp only [announceLeaving] at hjobs hqps hjobs' ⊢
  rw [shrinkSets_of_no_jobs cause hjobs, copyLost_of_no_pairs d hqps, partLost_of_no_pairs d hqps, hjobs']
  rfl

theorem leaving_leaveService {d : Nat} (hd : d < 4) {s : State} (hrest : atRest s) (h0 : s.dieState d = 0) (cause st : Nat) :
    Leaving d (s.setFld 0 HUB_DIE_STATE_STATE st d) (s.leaveService d cause st) := by
  rw [leaveService_atRest hd hrest h0]
  exact (((leaving_announceLeaving hd s cause st).trans (leaving_abandonFills hd _)).trans (leaving_scrambleDie _ d)).trans
    (leaving_showSpares _)

end Sys2Proof.Laws
end

section
/-!
Errors of the bursts of a BAR2 read (R280, R281), and O18 from the lemmas of the window.
-/
namespace Sys2Proof.Laws

open Sys2Proof Sys2Proof.Machine

/-! ## Errors that the bursts of a read meet (R280, R281) -/

/-- A field of a larder device's registers. -/
def deviceFld (f : Fld) : Bool := f.stride == 0x40 && decide (0x400000 ≤ f.off) && decide (f.off < 0x400040) && decide (f.hi < 64)

theorem deviceFld_at {f : Fld} {n : Nat} (hf : deviceFld f = true) (hn : n < 32) :
    0x400000 ≤ f.at 0 n ∧ f.at 0 n < 0x400800 := by
  simp only [deviceFld, Bool.and_eq_true, beq_iff_eq, decide_eq_true_eq] at hf
  obtain ⟨⟨⟨hstride, hlo⟩, hhi⟩, -⟩ := hf
  simp only [Fld.at, hstride]
  omega

theorem deviceFld_hi {f : Fld} (hf : deviceFld f = true) : f.hi < 64 := by
  simp only [deviceFld, Bool.and_eq_true, decide_eq_true_eq] at hf
  exact hf.2

theorem dieStateReg_at {d : Nat} (hd : d < 4) :
    0x1410 ≤ HUB_DIE_STATE_STATE.at 0 d ∧ HUB_DIE_STATE_STATE.at 0 d < 0x1430 := by
  simp only [Fld.at]
  omega

theorem dieState_of_reg {s t : State} {d : Nat} (h : t.reg (HUB_DIE_STATE_STATE.at 0 d) = s.reg (HUB_DIE_STATE_STATE.at 0 d)) :
    t.dieState d = s.dieState d := fld_of_reg h

/-- What a read reports touches no device's registers. -/
theorem reg_device_answerRead {v : State} (la len : Nat) {f : Fld} {n : Nat} (hf : deviceFld f = true) (hn : n < 32) :
    (answerRead v la len).reg (f.at 0 n) = v.reg (f.at 0 n) := by
  have hat := deviceFld_at hf hn
  exact reg_answerRead la len (by omega)

theorem reg_device_noteUnpop {s : State} (ps : List (Nat × Nat × Nat)) {f : Fld} {n : Nat} (hf : deviceFld f = true) (hn : n < 32) :
    (noteUnpop s ps).reg (f.at 0 n) = s.reg (f.at 0 n) := by
  have hat := deviceFld_at hf hn
  exact reg_noteUnpop ps (by omega)

/-- What the bursts of a read count, the read counts. -/
theorem counted_answerRead {s v : State} {ps : List (Nat × Nat × Nat)} (la len : Nat) {f : Fld} {n k : Nat}
    (hf : deviceFld f = true) (hn : n < 32) (h : counted (noteUnpop s ps) v 0 f n k) : counted s (answerRead v la len) 0 f n k := by
  have hs : (noteUnpop s ps).fld 0 f n = s.fld 0 f n := fld_of_reg (reg_device_noteUnpop ps hf hn)
  exact (fld_of_reg (reg_device_answerRead la len hf hn)).trans (h.trans (by rw [hs]))

theorem counted_bump (s : State) {f : Fld} (hf : deviceFld f = true) (n k : Nat) : counted s (s.bump 0 f k n) 0 f n k :=
  fld_bump_same s 0 f k n (deviceFld_hi hf)

section

variable {s : State} {start len la : Nat}

/-- An address of the read lies in one of its bursts. -/
theorem strikes (h : start ≤ la) (hn : la < start + len) (hpop : laPopulated la = true) :
    (laPopulated la && [(start, len)].any (fun r => decide (r.1 / 64 ≤ la / 64) && decide (la / 64 * 64 < r.1 + r.2))) = true := by
  simp only [hpop, List.any_cons, List.any_nil, Bool.or_false, Bool.true_and, Bool.and_eq_true, decide_eq_true_eq]
  omega

variable (h : start ≤ la) (hn : la < start + len) (hpop : laPopulated la = true)
include h hn hpop

theorem burst_corrected : s.burst [(start, len)] [] (.corrected la) = s.bump 0 LDR_DEV_CNT_CE_V 1 (larderDevice la) :=
  if_pos (strikes h hn hpop)

theorem burst_uncorrectable : s.burst [(start, len)] [] (.uncorrectable la) = s.larderUe la := if_pos (strikes h hn hpop)

theorem burst_retried (k : Nat) :
    s.burst [(start, len)] [] (.retried la k) = s.bump 0 LDR_DEV_CNT_RETRY_V (min k 16) (larderDevice la) :=
  if_pos (strikes h hn hpop)

theorem burst_exhausted : s.burst [(start, len)] [] (.exhausted la) =
    (s.bump 0 LDR_DEV_CNT_RETRY_V 16 (larderDevice la)).deviceFails (larderDevice la) := if_pos (strikes h hn hpop)

end

theorem larderUe_larder (s : State) (la : Nat) : (s.larderUe la).larder = s.larder.setPoison la 1 true :=
  (sameButRegs_poisonLog _ _ _).larder

/-- An uncorrectable error marks its device and is counted. -/
theorem larderUe_device (s : State) {la : Nat} (hn : larderDevice la < 32) :
    (s.larderUe la).bit 0 LDR_DEV_STAT_UE (larderDevice la) = true ∧
      counted s (s.larderUe la) 0 LDR_DEV_CNT_UE_V (larderDevice la) 1 := by
  have hlog : ∀ f : Fld, deviceFld f = true → ∀ t : State,
      (t.poisonLog 0 (la / 64 * 64)).reg (f.at 0 (larderDevice la)) = t.reg (f.at 0 (larderDevice la)) := fun f hf t => by
    have hat := deviceFld_at hf hn
    exact reg_poisonLog (by omega)
  have hne : LDR_DEV_STAT_UE.at 0 (larderDevice la) ≠ LDR_DEV_CNT_UE_V.at 0 (larderDevice la) := by simp [Fld.at]
  constructor
  · refine (bit_of_reg ((hlog LDR_DEV_STAT_UE rfl _).trans (reg_bump_other _ _ _ _ _ hne))).trans ?_
    exact bit_setFld_one _ _ _ _ (by decide) (by decide)
  · refine (fld_of_reg (hlog LDR_DEV_CNT_UE_V rfl _)).trans ((counted_bump _ rfl _ 1).trans ?_)
    rw [fld_setFld_reg _ hne.symm]
    rfl

/-- A device that fails takes its die out of service, in a module without pairs and jobs (R280). -/
theorem deviceFails_atRest {s : State} {n : Nat} (hn : n < 32) (hrest : atRest s) (h0 : s.dieState (n / 8) = 0) :
    (s.deviceFails n).bit 0 LDR_DEV_STAT_FAILED n = true ∧ (s.deviceFails n).dieState (n / 8) = 2 ∧
      (s.deviceFails n).fld 0 LDR_DEV_CNT_RETRY_V n = s.fld 0 LDR_DEV_CNT_RETRY_V n := by
  have hd : n / 8 < 4 := by omega
  have hstate := dieStateReg_at hd
  have hfailed := deviceFld_at (f := LDR_DEV_STAT_FAILED) rfl hn
  have hw : (s.setFld 0 LDR_DEV_STAT_FAILED 1 n).dieState (n / 8) = 0 := by
    rw [State.dieState, fld_setFld_reg s (by omega)]
    exact h0
  have hleave := leaving_leaveService hd (s := s.setFld 0 LDR_DEV_STAT_FAILED 1 n) hrest hw 2 2
  have hreg : ∀ f : Fld, deviceFld f = true →
      (s.deviceFails n).reg (f.at 0 n) = (s.setFld 0 LDR_DEV_STAT_FAILED 1 n).reg (f.at 0 n) := fun f hf => by
      have hat := deviceFld_at hf hn
      refine (hleave.regs _ ?_).trans (reg_setFld_other _ _ _ _ _ (by omega))
      unfold leavingReg
      omega
  refine ⟨(bit_of_reg (hreg _ rfl)).trans (bit_setFld_one _ _ _ _ (by decide) (by decide)), ?_,
    (fld_of_reg (hreg _ rfl)).trans (fld_setFld_reg s (by simp [Fld.at]))⟩
  exact hleave.state.trans (fld_setFld_same _ _ _ _ _ (by decide))

/-! ## Accesses to the window, clause by clause -/

section window

variable {off : Nat} {s : State}

/-- A write writes its pieces in turn, where no error strikes its bursts or the dies have no power. -/
theorem exec_bar2Write_inside {data : List Byte} (p : Bool) {es : List BurstErr} (h : off + data.length ≤ s.bar2Bytes)
    (hes : es = [] ∨ s.power.main = false) : exec (.bar2Write off data p es) s =
      .next (writePieces (s.bar2La off) data p s (granulePieces (s.bar2La off) data.length)) := by
  show execBar2Write off data p es s = _
  rw [execBar2Write, if_neg (by omega)]
  rcases hes with rfl | hp
  · simp [State.bursts, writePieces]
  · simp [hp, writePieces]

/-- A write of populated larder stores its bytes and poison, and nothing else changes. -/
theorem bar2Write_populated {data : List Byte} (p : Bool) (hp : s.power.main = true)
    (hpop : laRange (s.bar2La off) data.length = true) :
    let t := writePieces (s.bar2La off) data p s (granulePieces (s.bar2La off) data.length)
    (∀ x, t.larder.read1 x = if s.bar2La off ≤ x ∧ x < s.bar2La off + data.length then data.getD (x - s.bar2La off) 0
        else s.larder.read1 x) ∧
      (∀ x, s.bar2La off ≤ x → x < s.bar2La off + data.length → t.larder.poisoned x =
        (p || (s.larder.poisoned x && !(decide (s.bar2La off ≤ x / 64 * 64) &&
          decide (x / 64 * 64 + 64 ≤ s.bar2La off + data.length))))) ∧
      sameRegs (fun a => a = 0x400810) s t := by
  have hpieces : ∀ q ∈ granulePieces (s.bar2La off) data.length, IsPiece (s.bar2La off) data.length q := fun q =>
    isPiece_of_mem
  refine ⟨fun x => ?_, fun x hx hxn => ?_, fun a ha => ?_⟩
  · rw [read1_writePieces hpieces hp x]
    by_cases hin : s.bar2La off ≤ x ∧ x < s.bar2La off + data.length
    · rw [if_pos hin, if_pos ⟨hin.1, hin.2, laPopulated_of_laRange hpop hin.1 hin.2, granule_mem_pieces hin.1 hin.2⟩]
    · rw [if_neg hin, if_neg (fun hc => hin ⟨hc.1, hc.2.1⟩)]
  · rw [poisoned_writePieces hpieces hp x, if_pos ⟨laPopulated_of_laRange hpop hx hxn, granule_mem_pieces hx hxn⟩]
  · refine reg_writePieces _ _ _ (fun q hq => ?_) ha
    have hfirst := (hpieces q hq).first
    exact laPopulated_of_laRange hpop hfirst.1 hfirst.2

/-- A read of a granule with an uncorrectable error: it answers poisoned, and the granule stays poisoned. -/
theorem bar2Read_uncorrectable {start len la : Nat} (h : start ≤ la) (hlan : la < start + len) (hpop : laPopulated la = true) :
    let t := answerRead ((noteUnpop s (granulePieces start len)).larderUe la) start len
    t.rd.poison = true ∧ t.larder.poisoned la = true ∧ (∀ x, t.larder.read1 x = s.larder.read1 x) ∧
      t.bit 0 LDR_DEV_STAT_UE (larderDevice la) = true ∧ counted s t 0 LDR_DEV_CNT_UE_V (larderDevice la) 1 := by
  have hn := larderDevice_lt hpop
  have hdevice := larderUe_device (noteUnpop s (granulePieces start len)) hn
  have hpois : ((noteUnpop s (granulePieces start len)).larderUe la).larder.poisoned la = true := by
    rw [larderUe_larder, poisoned_setPoison_granule _ la true Nat.one_pos rfl, if_pos rfl]
  have hlarder := (sameButRegs_answerRead ((noteUnpop s (granulePieces start len)).larderUe la) start len).larder
  refine ⟨(answerRead_poison _ _ _).mpr ⟨la, h, hlan, hpop, hpois⟩, by rw [hlarder, hpois], fun x => ?_,
    (bit_of_reg (reg_device_answerRead _ _ rfl hn)).trans hdevice.1, counted_answerRead _ _ rfl hn hdevice.2⟩
  rw [hlarder, larderUe_larder, read1_setPoison, (sameButRegs_noteUnpop s _).larder]

/-- A read whose device exhausts its retries, in a module without pairs and jobs. -/
theorem bar2Read_exhausted {start len la : Nat} (hpop : laPopulated la = true) (hrest : atRest s)
    (h0 : s.dieState (la / 2 ^ 35) = 0) :
    let n := larderDevice la
    let t := answerRead (((noteUnpop s (granulePieces start len)).bump 0 LDR_DEV_CNT_RETRY_V 16 n).deviceFails n) start len
    t.bit 0 LDR_DEV_STAT_FAILED n = true ∧ t.dieState (la / 2 ^ 35) = 2 ∧ counted s t 0 LDR_DEV_CNT_RETRY_V n 16 := by
  intro n t
  have hn : n < 32 := larderDevice_lt hpop
  have hdie : n / 8 = la / 2 ^ 35 := larderDevice_die la
  have hat := dieStateReg_at (d := n / 8) (by omega)
  have hretry := deviceFld_at (f := LDR_DEV_CNT_RETRY_V) rfl hn
  have hunpop := sameButRegs_noteUnpop s (granulePieces start len)
  have hbefore : ((noteUnpop s (granulePieces start len)).bump 0 LDR_DEV_CNT_RETRY_V 16 n).dieState (n / 8) = 0 := by
    refine (dieState_of_reg ((reg_bump_other _ _ _ _ _ (by omega)).trans (reg_noteUnpop _ (by omega)))).trans ?_
    rw [hdie, h0]
  obtain ⟨hfailed, hgone, hcount⟩ := deviceFails_atRest
    (s := (noteUnpop s (granulePieces start len)).bump 0 LDR_DEV_CNT_RETRY_V 16 n) hn
    ⟨hunpop.qps.trans hrest.1, hunpop.jobs.trans hrest.2⟩ hbefore
  refine ⟨(bit_of_reg (reg_device_answerRead _ _ rfl hn)).trans hfailed, ?_,
    counted_answerRead _ _ rfl hn (hcount.trans (counted_bump _ rfl n 16))⟩
  rw [← hdie]
  exact (dieState_of_reg (reg_answerRead _ _ (by omega))).trans hgone

/-- A read whose bursts meet an error in populated larder. -/
theorem bar2Read_error {len : Nat} (e : BurstErr) (h : off + len ≤ s.bar2Bytes) (hp : s.power.main = true) :
    exec (.bar2Read off len [e]) s = .next (answerRead ((noteUnpop s (granulePieces (s.bar2La off) len)).burst
      [(s.bar2La off, len)] [] e) (s.bar2La off) len) := exec_bar2Read_powered [e] h hp

end window

/-- Settles O18: a write by what its pieces store and report, a read by its report, the errors of its bursts and its answer. -/
theorem bar2Window : Obligations.Bar2Window := by
  refine ⟨fun off data p s hin hp hpop => ?_, fun off len s hin hp => ?_, fun off data p s hin hp => ?_,
    fun off len data p es s hp => ⟨fun hin => ?_, fun hin => ?_⟩, fun off len la s hin hp hla hlan hpop => ?_⟩
  case refine_1 =>
    have hsame := sameButLarder_writePieces (s.bar2La off) data p s (granulePieces (s.bar2La off) data.length)
    obtain ⟨hhost, hattic, hshelf, hstore⟩ := hsame.memories
    obtain ⟨hbytes, hpoison, hregs⟩ := bar2Write_populated p hp hpop
    exact ⟨_, exec_bar2Write_inside p hin (.inl rfl), hbytes, hpoison, hhost, hattic, hshelf, hstore, hsame.work, hsame.hub, hregs⟩
  case refine_2 =>
    have hunpop := sameButRegs_noteUnpop s (granulePieces (s.bar2La off) len)
    have hsame := hunpop.trans (sameButRegs_answerRead _ (s.bar2La off) len)
    refine ⟨_, exec_bar2Read_powered [] hin hp, hsame.memories, hsame.work, hsame.hub, ?_, ?_, fun x hx hxn hnone hbefore => ?_⟩
    · rw [answerRead_data]
      simp only [State.bursts, List.foldl_nil, hunpop.larder]
    · rw [answerRead_poison]
      simp only [State.bursts, List.foldl_nil, hunpop.larder]
    · exact unpopReported_of_reg (reg_answerRead _ _ (by decide)) (unpopReported_noteUnpop s hx hxn hnone hbefore)
  case refine_3 =>
    obtain ⟨hhost, hattic, hshelf, hstore⟩ :=
      (sameButLarder_writePieces (s.bar2La off) data p s (granulePieces (s.bar2La off) data.length)).memories
    refine ⟨_, exec_bar2Write_inside p hin (.inl rfl), hhost, hattic, hshelf, hstore, fun x hnone => ⟨?_, ?_⟩,
      fun x hx hxn hnone hbefore => ?_⟩
    · rw [read1_writePieces (fun q => isPiece_of_mem) hp x, if_neg (by simp [hnone])]
    · rw [poisoned_writePieces (fun q => isPiece_of_mem) hp x, if_neg (by simp [hnone])]
    · exact unpopReported_of_reg (reg_writePieces_unpop _ _ _ s _) (unpopReported_noteUnpop s hx hxn hnone hbefore)
  case refine_4 =>
    obtain ⟨t, hexec, hsame⟩ := exec_bar2Read_unpowered es hin hp
    exact ⟨t, hexec, hsame.memories, hsame.work, hsame.hub⟩
  case refine_5 =>
    have hsame := sameButRegs_writePieces (s.bar2La off) data p (granulePieces (s.bar2La off) data.length) hp
    exact ⟨_, exec_bar2Write_inside p hin (.inr hp), hsame.memories, hsame.work, hsame.hub⟩
  case refine_6 =>
    have hn := larderDevice_lt hpop
    have hunpop := sameButRegs_noteUnpop s (granulePieces (s.bar2La off) len)
    have hcounter : ∀ k f, SameButRegs s (answerRead ((noteUnpop s (granulePieces (s.bar2La off) len)).bump 0 f k (larderDevice la))
        (s.bar2La off) len) := fun k f => (hunpop.trans (sameButRegs_setFld _ _ _ _ _)).trans (sameButRegs_answerRead _ _ _)
    refine ⟨⟨_, bar2Read_error _ hin hp, ?_⟩, ⟨_, bar2Read_error _ hin hp, ?_⟩, fun k hk => ⟨_, bar2Read_error _ hin hp, ?_⟩,
      fun hrest h0 => ⟨_, bar2Read_error _ hin hp, ?_⟩⟩
    · rw [burst_corrected hla hlan hpop]
      exact ⟨(hcounter 1 _).memories, counted_answerRead _ _ rfl hn (counted_bump _ rfl _ 1)⟩
    · rw [burst_uncorrectable hla hlan hpop]
      exact bar2Read_uncorrectable hla hlan hpop
    · rw [burst_retried hla hlan hpop, Nat.min_eq_left hk]
      exact ⟨(hcounter k _).memories, counted_answerRead _ _ rfl hn (counted_bump _ rfl _ k)⟩
    · rw [burst_exhausted hla hlan hpop]
      exact bar2Read_exhausted hpop hrest h0

end Sys2Proof.Laws
end

section
/-!
SUPPORT. Frames: what a change leaves unchanged, as a view of the state that stands and the register bits that may change.
-/
namespace Sys2Proof.Laws

open Sys2Proof Sys2Proof.Machine

/-! ## Frames -/

/-- A change under which the view `v` of the state stands and every register bit outside `p` keeps its value. -/
structure Frame {β : Type} (v : State → β) (p : Nat → Nat → Prop) (s t : State) : Prop where
  view : v t = v s
  bits : ∀ a k, ¬ p a k → (t.reg a).getLsbD k = (s.reg a).getLsbD k

/-- The memories, the queue pairs and the jobs. -/
def working (s : State) := ((s.host, s.larder, s.attic, s.shelf, s.store), s.qps, s.jobs)
/-- The memories and the work of the module. -/
def standing (s : State) := (working s, s.dies, s.cores, s.prepared, s.attics)
/-- The memories, the work and the power supply with its governor. -/
def powered (s : State) := (standing s, s.power)

section frames

variable {β γ : Type} {v : State → β} {p q : Nat → Nat → Prop} {s t u : State}

theorem Frame.refl (s : State) : Frame v p s s := ⟨rfl, fun _ _ _ => rfl⟩

theorem Frame.trans (h : Frame v p s t) (h' : Frame v p t u) : Frame v p s u :=
  ⟨h'.view.trans h.view, fun a k hp => (h'.bits a k hp).trans (h.bits a k hp)⟩

theorem Frame.mono (h : Frame v p s t) (hpq : ∀ a k, p a k → q a k) : Frame v q s t :=
  ⟨h.view, fun a k hq => h.bits a k (fun hp => hq (hpq a k hp))⟩

theorem Frame.toStanding (h : Frame powered p s t) : Frame standing p s t := ⟨congrArg Prod.fst h.view, h.bits⟩

theorem Frame.toWorking (h : Frame standing p s t) : Frame working p s t := ⟨congrArg Prod.fst h.view, h.bits⟩

theorem Frame.power (h : Frame powered p s t) : t.power = s.power := congrArg Prod.snd h.view

theorem Frame.memories (h : Frame working p s t) : sameMemories s t := by
  simpa only [working, Prod.mk.injEq] using congrArg Prod.fst h.view

theorem Frame.qps (h : Frame working p s t) : t.qps = s.qps := congrArg (fun x => x.2.1) h.view

theorem Frame.jobs (h : Frame working p s t) : t.jobs = s.jobs := congrArg (fun x => x.2.2) h.view

theorem Frame.work (h : Frame standing p s t) : sameWork s t := by
  have hparts := congrArg Prod.snd h.view
  simp only [standing, Prod.mk.injEq] at hparts
  exact ⟨h.toWorking.qps, h.toWorking.jobs, hparts⟩

/-- A field none of whose bits may change reads as before. -/
theorem Frame.fld (h : Frame v p s t) {base i : Nat} {f : Fld} (hf : ∀ k, f.lo ≤ k → k ≤ f.hi → ¬ p (f.at base i) k) :
    t.fld base f i = s.fld base f i := by
  apply Nat.eq_of_testBit_eq
  intro k
  simp only [State.fld, testBit_bitsOf]
  by_cases hk : k < f.hi + 1 - f.lo
  · rw [h.bits _ _ (hf (f.lo + k) (by omega) (by omega))]
  · simp [hk]

/-- A register none of whose bits may change reads as before. -/
theorem Frame.reg (h : Frame v p s t) {a : Nat} (ha : ∀ k, ¬ p a k) : t.reg a = s.reg a :=
  BitVec.eq_of_getLsbD_eq (fun k _ => h.bits a k (ha k))

theorem frame_forAll {α : Type} {f : State → α → State} {l : List α} (hf : ∀ s, ∀ x ∈ l, Frame v p s (f s x)) (s : State) :
    Frame v p s (s.forAll l f) := forAll_related (R := Frame v p) .refl .trans hf s

/-- A change that reaches no register. -/
theorem frame_of_regs (hv : v t = v s) (hr : t.regs = s.regs) : Frame v p s t :=
  ⟨hv, fun a _ _ => by simp only [State.reg, hr]⟩

theorem frame_setReg (s : State) {a : Nat} (w : Word) (h : ∀ k, p a k) : Frame powered p s (s.setReg a w) :=
  ⟨rfl, fun b k hb => by rw [reg_setReg_other s w (fun hba => hb (by rw [hba]; exact h k))]⟩

theorem frame_setFld (s : State) {base i : Nat} {f : Fld} (x : Nat) (h : ∀ k, f.lo ≤ k → k ≤ f.hi → p (f.at base i) k) :
    Frame powered p s (s.setFld base f x i) := by
  refine ⟨rfl, fun b k hb => ?_⟩
  by_cases hba : b = f.at base i
  · subst hba
    have hout : ¬ (f.lo ≤ k ∧ k < f.hi + 1) := fun hk => hb (h k hk.1 (by omega))
    by_cases h64 : k < 64
    · have hmask : (decide (f.lo ≤ k) && decide (k < f.hi + 1)) = false := by simpa [← Bool.decide_and] using hout
      simp only [State.setFld, reg_setReg_same, withBits, BitVec.getLsbD_or, BitVec.getLsbD_and, BitVec.getLsbD_not,
        getLsbD_bitMask, h64, decide_true, Bool.true_and, hmask]
      simp
    · simp [BitVec.getLsbD_of_ge _ _ (Nat.le_of_not_lt h64)]
  · rw [reg_setFld_other s base f x i hba]

theorem frame_bump (s : State) {base i : Nat} {f : Fld} (n : Nat) (h : ∀ k, f.lo ≤ k → k ≤ f.hi → p (f.at base i) k) :
    Frame powered p s (s.bump base f n i) := frame_setFld s _ h

/-- What the trace unit records changes its position register alone (R522). -/
theorem frame_trace (s : State) (cls die core slot : Nat) (h : ∀ k, p 0x200408 k) :
    Frame powered p s (s.trace cls die core slot) := by
  unfold State.trace
  dsimp only
  split
  · exact .refl s
  · have hdrawn : Frame powered p s s.drawn := frame_of_regs rfl rfl
    split
    · exact hdrawn.trans (frame_bump (f := SEC_TRACE_STAT_DROPPED) _ _ (fun k _ _ => h k))
    · have hput : ∀ i x, Frame powered p s { s.drawn with sec := { s.drawn.sec with trace := Tab.setD s.drawn.sec.trace i x 0 } } :=
        fun i x => frame_of_regs rfl rfl
      split
      · exact ((hput _ _).trans (frame_setFld (f := SEC_TRACE_STAT_WR_INDEX) _ _ (fun k _ _ => h k))).trans
          (frame_setFld (f := SEC_TRACE_STAT_WRAPPED) _ _ (fun k _ _ => h k))
      · exact (hput _ _).trans (frame_setFld (f := SEC_TRACE_STAT_WR_INDEX) _ _ (fun k _ _ => h k))

end frames

end Sys2Proof.Laws
end

section
/-!
The governor's displays and ramps (R486 to R496): the register bits that they may change, and what of levels, draws and states
they leave.
-/
namespace Sys2Proof.Laws

open Sys2Proof Sys2Proof.Machine

/-! ## What the governor shows -/

/-- The register bits in which the governor shows what it does: PWR_STAT beyond PSTATE, the dies' EFFECTIVE and GRANTED, the
alerts, every register from its counters up, the islands' among them, and the trace unit's position. -/
def shown (a k : Nat) : Prop :=
  (a = 0x300000 ∧ 2 ≤ k) ∨ (0x300020 ≤ a ∧ a < 0x300040 ∧ ((11 ≤ k ∧ k ≤ 21) ∨ k = 33)) ∨ a = 0x300040 ∨ 0x300080 ≤ a
    ∨ a = 0x1800 ∨ a = 0x200408

/-- Those bits and the dies' draws. -/
def ramped (a k : Nat) : Prop := shown a k ∨ (0x300020 ≤ a ∧ a < 0x300040 ∧ 22 ≤ k ∧ k ≤ 32)

/-- A field of which the governor shows every bit, at its places below `n`. -/
def shownFld (f : Fld) (n : Nat) : Prop := ∀ i k, i < n → f.lo ≤ k → k ≤ f.hi → shown (f.at 0 i) k

theorem frame_setShown {f : Fld} {n : Nat} (hf : shownFld f n) (s : State) (x : Nat) {i : Nat} (hi : i < n) :
    Frame powered shown s (s.setFld 0 f x i) := frame_setFld s x (fun k => hf i k hi)

theorem shownFld_pwrStat {f : Fld} (h : f.off = 0x300000) (hlo : 2 ≤ f.lo) : shownFld f 1 := by
  intro i k hi hk _
  simp only [shown, Fld.at, h]
  obtain rfl : i = 0 := by omega
  omega

theorem shownFld_counter {f : Fld} (h : 0x300080 ≤ f.off) (n : Nat) : shownFld f n := by
  intro i k _ _ _
  simp only [shown, Fld.at]
  omega

theorem shownFld_register {f : Fld} (h : f.off = 0x300040 ∨ f.off = 0x1800) : shownFld f 1 := by
  intro i k hi _ _
  obtain rfl : i = 0 := by omega
  simp only [shown, Fld.at]
  omega

theorem shownFld_effective : shownFld PWR_DIE_EFFECTIVE 4 := by
  intro i k hi hlo hhi
  simp only [shown, Fld.at] at hlo hhi ⊢
  omega

theorem shownFld_granted : shownFld PWR_DIE_GRANTED 4 := by
  intro i k hi hlo hhi
  simp only [shown, Fld.at] at hlo hhi ⊢
  omega

theorem mem_allDies {d : Nat} : d ∈ allDies ↔ d < 4 := by
  simp only [allDies, List.mem_cons, List.not_mem_nil, or_false]
  omega

/-! ## Displays stay within those bits -/

theorem frame_syncAlert (s : State) : Frame powered shown s s.syncAlert :=
  frame_setShown (shownFld_register (.inr rfl)) s _ Nat.one_pos

theorem frame_moduleAlert (s : State) : Frame powered shown s s.moduleAlert := by
  have hwake : ∀ u, Frame powered shown u (u.setFld 0 HUB_SB_STAT_WAKE 1) := fun u =>
    frame_setShown (shownFld_register (.inr rfl)) u 1 Nat.one_pos
  unfold State.moduleAlert
  dsimp only
  split
  · refine Frame.trans ?_ (hwake _)
    exact frame_of_regs rfl rfl
  · exact frame_of_regs rfl rfl

theorem frame_pwrAlert (s : State) (b : Nat) : Frame powered shown s (s.pwrAlert b) := by
  have hbits := frame_setShown (f := PWR_ALERT_BITS) (shownFld_register (.inl rfl)) s (orBit (s.fld 0 PWR_ALERT_BITS) b)
    Nat.one_pos
  unfold State.pwrAlert
  dsimp only
  split
  · exact .refl s
  · split
    · exact (hbits.trans (frame_moduleAlert _)).trans (frame_syncAlert _)
    · exact hbits.trans (frame_syncAlert _)

theorem frame_alertOn (s : State) (b : Nat) (was now : Bool) : Frame powered shown s (s.alertOn b was now) := by
  unfold State.alertOn
  split
  · exact frame_pwrAlert s b
  · exact .refl s

theorem frame_traced (s : State) (cls die core slot : Nat) : Frame powered shown s (s.trace cls die core slot) :=
  frame_trace s cls die core slot (fun _ => .inr (.inr (.inr (.inr (.inr rfl)))))

theorem frame_showLevels (s : State) : Frame powered shown s s.showLevels := by
  refine ((frame_setShown (shownFld_pwrStat rfl (by decide)) s _ Nat.one_pos).trans (frame_alertOn _ _ _ _)).trans
    (frame_forAll (fun s d hd => ?_) _)
  rw [mem_allDies] at hd
  exact (frame_setShown shownFld_effective s _ hd).trans (frame_setShown shownFld_granted _ _ hd)

theorem frame_showInput (s : State) (p : Nat) : Frame powered shown s (s.showInput p) := by
  have hinput : ∀ u x, Frame powered shown u (u.setFld 0 PWR_STAT_INPUT_W x) := fun u x =>
    frame_setShown (shownFld_pwrStat rfl (by decide)) u x Nat.one_pos
  unfold State.showInput
  dsimp only
  split
  · exact hinput _ _
  · exact Frame.trans (t := s.drawn) (frame_of_regs rfl rfl) (hinput _ _)

theorem frame_rampBegins (s : State) : Frame powered shown s s.rampBegins := by
  unfold State.rampBegins
  split
  · exact frame_setShown (shownFld_pwrStat rfl (by decide)) s 0 Nat.one_pos
  · split
    · split
      · exact frame_setShown (shownFld_counter (by decide) 1) s _ Nat.one_pos
      · exact .refl s
    · exact .refl s

theorem frame_addRamp (s : State) (die : Option Nat) (state : Nat) (serves : RampFor) :
    Frame standing shown s (s.addRamp die state serves) := by
  unfold State.addRamp
  refine Frame.trans ?_ (frame_setShown (shownFld_pwrStat rfl (by decide)) _ 1 Nat.one_pos).toStanding
  exact frame_of_regs rfl rfl

theorem frame_addRamps (s : State) (serves : Nat → RampFor) : Frame standing shown s (s.addRamps serves) :=
  frame_forAll (fun s d _ => frame_addRamp s (some d) 0 (serves d)) s

/-! ## What stays in force -/

section figures

variable {β : Type} {v : State → β} {s t : State} {d : Nat}

theorem not_ramped_level (hd : d < 4) {k : Nat} (hk : k ≤ 10) : ¬ ramped (PWR_DIE_LEVEL.at 0 d) k := by
  simp only [ramped, shown, Fld.at]
  omega

theorem levelW_of_ramped (h : Frame v ramped s t) (hd : d < 4) : t.levelW d = s.levelW d :=
  h.fld (fun _ _ hk => not_ramped_level hd hk)

theorem dieState_of_ramped (h : Frame v ramped s t) (hd : d < 4) : t.dieState d = s.dieState d :=
  h.fld (fun k _ _ => by simp only [ramped, shown, Fld.at]; omega)

theorem capW_of_ramped (h : Frame v ramped s t) : t.fld 0 PWR_CAP_CAP_W = s.fld 0 PWR_CAP_CAP_W :=
  h.fld (fun k _ _ => by simp only [ramped, shown, Fld.at]; omega)

theorem sumW_of_ramped (h : Frame v ramped s t) : t.sumW = s.sumW := by
  have hlevel : ∀ d, d < 4 → t.levelW d = s.levelW d := fun d => levelW_of_ramped h
  simp [State.sumW, allDies, hlevel]

theorem capLimits_of_ramped (h : Frame v ramped s t) : t.capLimits = s.capLimits := by
  rw [State.capLimits, sumW_of_ramped h, capW_of_ramped h, State.capLimits]

/-- The effective level follows from the levels and the cap. -/
theorem effW_of_ramped (h : Frame v ramped s t) (hd : d < 4) : t.effW d = s.effW d := by
  simp only [State.effW, capLimits_of_ramped h, levelW_of_ramped h hd, sumW_of_ramped h, capW_of_ramped h]

theorem Frame.ofShown (h : Frame v shown s t) : Frame v ramped s t := h.mono (fun _ _ => .inl)

theorem drawW_of_shown (h : Frame v shown s t) (hd : d < 4) : t.drawW d = s.drawW d :=
  h.fld (fun k hlo hhi => by simp only [shown, Fld.at] at hlo hhi ⊢; omega)

/-- The fields of HUB_STATUS stand. -/
theorem hubStatus_of_shown (h : Frame v shown s t) {f : Fld} (hf : f.at 0 0 = 0) : t.fld 0 f = s.fld 0 f :=
  h.fld (fun k _ _ => by rw [hf]; simp [shown])

/-- A cap lowers a level, never raises it (R492). -/
theorem effW_le_levelW (s : State) (d : Nat) : s.effW d ≤ s.levelW d := by
  unfold State.effW
  split
  · next hcap =>
    simp only [State.capLimits, decide_eq_true_eq] at hcap
    exact Nat.div_le_of_le_mul (by rw [Nat.mul_comm s.sumW]; exact Nat.mul_le_mul_left _ (by omega))
  · exact Nat.le_refl _

theorem effW_lt (s : State) (d : Nat) : s.effW d < 2 ^ 11 :=
  Nat.lt_of_le_of_lt (effW_le_levelW s d) (Nat.mod_lt _ (by decide))

end figures

/-! ## Draws -/

theorem frame_setDraw (s : State) {d : Nat} (w : Nat) (hd : d < 4) : Frame powered ramped s (s.setFld 0 PWR_DIE_DRAW w d) :=
  frame_setFld s w (fun k hlo hhi => by simp only [ramped, Fld.at] at hlo hhi ⊢; omega)

theorem drawW_setDraw_same (s : State) (d : Nat) {w : Nat} (hw : w < 2 ^ 11) : (s.setFld 0 PWR_DIE_DRAW w d).drawW d = w := by
  rw [State.drawW, fld_setFld_same s 0 PWR_DIE_DRAW w d (by decide)]
  exact Nat.mod_eq_of_lt hw

theorem drawW_setDraw_other (s : State) {d e : Nat} (w : Nat) (h : e ≠ d) :
    (s.setFld 0 PWR_DIE_DRAW w d).drawW e = s.drawW e := by
  have hat : PWR_DIE_DRAW.at 0 e ≠ PWR_DIE_DRAW.at 0 d := by simp only [Fld.at]; omega
  exact fld_setFld_reg s hat

end Sys2Proof.Laws
end

section
/-!
Levels, ramps and ballast (R493, R494, R496): the next state of LINGER_EXPIRY, RAMP_COMPLETE and BALLAST_ADJUST.
-/
namespace Sys2Proof.Laws

open Sys2Proof Sys2Proof.Machine

/-! ## LINGER_EXPIRY -/

/-- Beyond the level itself, a change of level changes displays and queues ramps. -/
theorem frame_setLevel (s : State) (d w : Nat) (serves : RampFor) :
    Frame standing shown (s.setFld 0 PWR_DIE_LEVEL w d) (s.setLevel d w serves).1 :=
  ((frame_showLevels _).trans (frame_traced _ 5 d 96 0)).toStanding.trans (frame_addRamps _ _)

theorem levelW_setLevel_same (s : State) {d w : Nat} (serves : RampFor) (hd : d < 4) (hw : w < 2 ^ 11) :
    (s.setLevel d w serves).1.levelW d = w := by
  rw [levelW_of_ramped (frame_setLevel s d w serves).ofShown hd, State.levelW, fld_setFld_same s 0 PWR_DIE_LEVEL w d (by decide)]
  exact Nat.mod_eq_of_lt hw

theorem levelW_setLevel_other (s : State) {d e : Nat} (w : Nat) (serves : RampFor) (he : e < 4) (hne : e ≠ d) :
    (s.setLevel d w serves).1.levelW e = s.levelW e := by
  have hat : PWR_DIE_LEVEL.at 0 e ≠ PWR_DIE_LEVEL.at 0 d := by simp only [Fld.at]; omega
  rw [levelW_of_ramped (frame_setLevel s d w serves).ofShown he]
  exact fld_setFld_reg s hat

theorem exec_lingerExpiry_due {d : Die} {s : State} (hramps : s.ramps d = true) (hlevel : 60 < s.levelW d)
    (hrun : s.runsOn d = false) (hts : s.restTs d + 1000 * max 100 (s.fld 0 PWR_CTRL_LINGER_US) ≤ s.ts) :
    exec (.lingerExpiry d) s = .next (s.setLevel d 60 .none).1 := by
  show execLingerExpiry d s = _
  simp [execLingerExpiry, p1Share, hramps, hrun, Nat.not_lt.mpr hts, Nat.not_le.mpr hlevel]

theorem exec_lingerExpiry_early {d : Die} {s : State} (hts : s.ts < s.restTs d + 1000 * max 100 (s.fld 0 PWR_CTRL_LINGER_US)) :
    exec (.lingerExpiry d) s = .next s := by
  show execLingerExpiry d s = _
  simp [execLingerExpiry, hts]

/-! ## RAMP_COMPLETE -/

/-- The state in which the ramp in progress has left the queue. -/
def rampTaken (s : State) (rest : List Ramp) : State := { s with power := { s.power with ramps := rest } }

/-- The draw of the die of a ramp reaches its effective level; a raise is counted. -/
def dieRamped (s : State) (d : Nat) : State :=
  let s := if s.drawW d < s.effW d then s.bump 0 PWR_CNT_GRANTS_V else s
  s.setFld 0 PWR_DIE_DRAW (s.effW d) d

/-- The draws of the dies reach the figures of a power state. -/
def moduleRamped (s : State) (p : Nat) : State := s.forAll allDies (fun s d => s.setFld 0 PWR_DIE_DRAW (s.figure d p) d)

theorem frame_countGrant (s : State) (d : Nat) :
    Frame powered shown s (if s.drawW d < s.effW d then s.bump 0 PWR_CNT_GRANTS_V else s) := by
  split
  · exact frame_setShown (shownFld_counter (by decide) 1) s _ Nat.one_pos
  · exact .refl s

theorem frame_dieRamped (s : State) {d : Nat} (hd : d < 4) : Frame powered ramped s (dieRamped s d) :=
  (frame_countGrant s d).ofShown.trans (frame_setDraw _ _ hd)

theorem drawW_dieRamped (s : State) {d : Nat} (hd : d < 4) : (dieRamped s d).drawW d = s.effW d := by
  simp only [dieRamped]
  rw [drawW_setDraw_same _ d (effW_lt _ d), effW_of_ramped (frame_countGrant s d).ofShown hd]

theorem exec_rampComplete_die (d : Die) {n : Nat} {rest : List Ramp} {s : State}
    (h : s.power.ramps = ⟨some d.val, 0, .none, n⟩ :: rest) :
    ∃ p, exec .rampComplete s =
      .next ((((dieRamped (rampTaken s rest) d).showLevels.trace 5 d 96 0).showInput p).rampBegins) := by
  refine ⟨?stateShown, ?meaning⟩
  case meaning =>
    show execRampComplete s = _
    rw [execRampComplete, h]
    rfl

/-- What follows the draw is display. -/
theorem frame_afterDieRamp (s : State) (d p : Nat) :
    Frame powered shown s ((((s.showLevels).trace 5 d 96 0).showInput p).rampBegins) :=
  (((frame_showLevels s).trans (frame_traced _ 5 d 96 0)).trans (frame_showInput _ p)).trans (frame_rampBegins _)

theorem figure_p1 (s : State) (d : Nat) : s.figure d 1 = if s.dieState d = 0 then s.effW d else 0 := by
  by_cases h : s.dieState d = 0 <;> simp [State.figure, h]

theorem figure_p1_lt (s : State) (d : Nat) : s.figure d 1 < 2 ^ 11 := by
  rw [figure_p1]
  split
  · exact effW_lt s d
  · decide

theorem figure_p1_of_ramped {β : Type} {v : State → β} {s t : State} {d : Nat} (h : Frame v ramped s t) (hd : d < 4) :
    t.figure d 1 = s.figure d 1 := by
  rw [figure_p1, figure_p1, dieState_of_ramped h hd, effW_of_ramped h hd]

theorem frame_setFigures {l : List Nat} (hl : ∀ d ∈ l, d < 4) (p : Nat) (s : State) :
    Frame powered ramped s (s.forAll l (fun s d => s.setFld 0 PWR_DIE_DRAW (s.figure d p) d)) :=
  frame_forAll (fun s d hd => frame_setDraw s _ (hl d hd)) s

/-- Each die listed draws its P1 figure, the others as before. -/
theorem drawW_setFigures_p1 {l : List Nat} (hl : ∀ d ∈ l, d < 4) (s : State) {e : Nat} (he : e < 4) :
    (s.forAll l (fun s d => s.setFld 0 PWR_DIE_DRAW (s.figure d 1) d)).drawW e = if e ∈ l then s.figure e 1 else s.drawW e := by
  induction l generalizing s with
  | nil => rfl
  | cons d l ih =>
    have hd := hl d List.mem_cons_self
    show (State.forAll (s.setFld 0 PWR_DIE_DRAW (s.figure d 1) d) l _).drawW e = _
    rw [ih (fun x hx => hl x (List.mem_cons_of_mem _ hx)), figure_p1_of_ramped (frame_setDraw s _ hd) he]
    by_cases hed : e = d
    · subst hed
      rw [drawW_setDraw_same s e (figure_p1_lt s e)]
      simp
    · rw [drawW_setDraw_other s _ hed]
      simp [hed]

theorem drawW_moduleRamped_p1 (s : State) {d : Nat} (hd : d < 4) :
    (moduleRamped s 1).drawW d = if s.dieState d = 0 then s.effW d else 0 := by
  rw [moduleRamped, drawW_setFigures_p1 (fun e => mem_allDies.mp) s hd, if_pos (mem_allDies.mpr hd), figure_p1]

/-- The banks wake next, for work that waits. -/
def bankWakeDue (s : State) : State := { s with power := { s.power with wakeBanks := some .wake } }

theorem exec_rampComplete_wake {n : Nat} {rest : List Ramp} {s : State} (h : s.power.ramps = ⟨none, 1, .wake, n⟩ :: rest) :
    ∃ p, exec .rampComplete s =
      .next (bankWakeDue ((moduleRamped (rampTaken s rest) 1).showLevels.showInput p)).rampBegins := by
  refine ⟨?stateShown, ?meaning⟩
  case meaning =>
    show execRampComplete s = _
    rw [execRampComplete, h]
    rfl

theorem frame_afterWakeRamp (s : State) (p : Nat) : Frame standing shown s (bankWakeDue (s.showLevels.showInput p)).rampBegins := by
  refine ((frame_showLevels s).trans (frame_showInput _ p)).toStanding.trans (Frame.trans ?_ (frame_rampBegins _).toStanding)
  exact frame_of_regs rfl rfl

theorem power_afterWakeRamp (s : State) (p : Nat) :
    (bankWakeDue (s.showLevels.showInput p)).rampBegins.power = { s.power with wakeBanks := some .wake } := by
  rw [(frame_rampBegins _).power, bankWakeDue, (frame_showInput _ _).power, (frame_showLevels _).power]

/-! ## BALLAST_ADJUST -/

theorem frame_showIsland (s : State) (d p : Nat) : Frame powered shown s (s.showIsland d p) := by
  have hvolt : Frame powered shown s (s.voltAt d p (s.freqNow d p)).1 := by
    rcases voltAt_state s d p (s.freqNow d p) with h | h <;> rw [h]
    · exact .refl s
    · exact frame_of_regs rfl rfl
  have hset : ∀ (f : Fld) (u : State) x, 0x300080 ≤ f.off → Frame powered shown u (u.setFld 0 f x (islOf d p)) :=
    fun f u x hf => frame_setShown (shownFld_counter hf (islOf d p + 1)) u x (Nat.lt_succ_self _)
  unfold State.showIsland
  dsimp only
  split
  · exact .refl s
  · exact (hvolt.trans (hset AGE_ISL_F_NOW _ _ (by decide))).trans (hset AGE_ISL_V_NOW _ _ (by decide))

theorem frame_modIsland (s : State) (d p : Nat) (f : Core → Core) : Frame working shown s (s.modIsland d p f) :=
  Frame.trans (t := s.modCore d p f) (frame_of_regs rfl rfl) (frame_showIsland _ d p).toStanding.toWorking

/-- What the work of a die asks of its islands changes no memory, pair or job, and no level or draw (R495). -/
theorem frame_fitWork (s : State) (d w : Nat) : Frame working shown s (s.fitWork d w) := by
  have hdie : ∀ u f, Frame working shown u (u.modDie d f) := fun u f => frame_of_regs rfl rfl
  unfold State.fitWork
  dsimp only
  refine (hdie s (fun x => { x with work := w })).trans ?_
  split
  · split
    · exact hdie _ _
    · exact frame_forAll (fun u p _ => frame_modIsland u d p _) _
  · split
    · exact hdie _ _
    · split
      · refine frame_forAll (fun u p _ => ?_) _
        split
        · exact .refl u
        · exact frame_modIsland u d p _
      · exact .refl _

theorem frame_showGaps (s : State) : Frame powered shown s s.showGaps :=
  (frame_setShown (shownFld_pwrStat rfl (by decide)) s _ Nat.one_pos).trans (frame_alertOn _ _ _ _)

/-- The work of every die whose draw the governor holds is fitted to its level. -/
def fitted (s : State) (w : List Nat) : State :=
  ((s.forAll (allDies.filter s.ramps) (fun s d => s.fitWork d (w.getD d 0)))).showGaps

theorem frame_fitted (s : State) (w : List Nat) : Frame working shown s (fitted s w) :=
  (frame_forAll (fun s d _ => frame_fitWork s d (w.getD d 0)) s).trans (frame_showGaps _).toStanding.toWorking

/-- What the ballast draws on the dies `ds` in W. -/
def ballastFill (s : State) (ds w : List Nat) : Nat := ds.foldl (fun n d => n + (s.drawW d - w.getD d 0)) 0

/-- A sum of numbers added to `n` is zero only where `n` and all of them are. -/
theorem foldl_add_ne_zero {ds : List Nat} {g : Nat → Nat} (n : Nat) :
    ds.foldl (fun n d => n + g d) n ≠ 0 ↔ n ≠ 0 ∨ ∃ d ∈ ds, 0 < g d := by
  induction ds generalizing n with
  | nil => simp only [List.foldl_nil, List.not_mem_nil, false_and, exists_false, or_false]
  | cons d ds ih =>
    have hadd : n + g d ≠ 0 ↔ n ≠ 0 ∨ 0 < g d := by omega
    simp only [List.foldl_cons, ih, hadd, List.mem_cons, or_and_right, exists_or, exists_eq_left, or_assoc]

theorem ballastFill_ne_zero {s : State} {ds w : List Nat} : ballastFill s ds w ≠ 0 ↔ ∃ d ∈ ds, w.getD d 0 < s.drawW d := by
  simp only [ballastFill, foldl_add_ne_zero, ne_eq, not_true_eq_false, false_or, Nat.sub_pos_iff_lt]

/-- The energy of a turn of the ballast loop is counted. -/
def ballastCounted (s : State) (fill : Nat) : State :=
  let e := s.power.ballastRem + fill
  { s with power := { s.power with ballastRem := e % 100 } }.bump 0 PWR_CNT_BALLAST_MJ_V (e / 100)

/-- The state in which a turn of the ballast loop has shown whether any die draws ballast. -/
def ballasted (s : State) (w : List Nat) : State :=
  let fill := ballastFill (fitted s w) (allDies.filter s.ramps) w
  (ballastCounted (fitted s w) fill).setFld 0 PWR_STAT_BALLAST (b2n (fill != 0))

theorem exec_ballastAdjust_powered {w : List Nat} {s : State} (hmain : s.power.main = true) (hp : s.pstate ≤ 1) :
    exec (.ballastAdjust w) s = .next (if (ballasted s w).bit 0 PWR_STAT_GAPS then (ballasted s w).bump 0 PWR_CNT_GAP_US_V 10
      else ballasted s w) := by
  show execBallastAdjust w s = _
  have hheld : ¬ (!s.power.main || decide (2 ≤ s.pstate)) = true := by
    simp only [hmain, Bool.not_true, Bool.false_or, decide_eq_true_eq]
    omega
  rw [execBallastAdjust, if_neg hheld]
  rfl

theorem frame_ballastCounted (s : State) (fill : Nat) : Frame standing shown s (ballastCounted s fill) := by
  unfold ballastCounted
  refine Frame.trans ?_ (frame_setShown (shownFld_counter (by decide) 1) _ _ Nat.one_pos).toStanding
  exact frame_of_regs rfl rfl

theorem frame_ballasted (s : State) (w : List Nat) : Frame working shown s (ballasted s w) :=
  (frame_fitted s w).trans ((frame_ballastCounted _ _).trans
    (frame_setShown (shownFld_pwrStat rfl (by decide)) _ _ Nat.one_pos).toStanding).toWorking

theorem frame_gapsCounted (s : State) :
    Frame powered (fun a _ => a = 0x300090) s (if s.bit 0 PWR_STAT_GAPS then s.bump 0 PWR_CNT_GAP_US_V 10 else s) := by
  split
  · exact frame_bump s 10 (fun _ _ _ => rfl)
  · exact .refl s

theorem ballastFill_fitted (s : State) (w : List Nat) {ds : List Nat} (hds : ∀ d ∈ ds, d < 4) :
    ballastFill (fitted s w) ds w ≠ 0 ↔ ∃ d ∈ ds, w.getD d 0 < s.drawW d := by
  rw [ballastFill_ne_zero]
  exact exists_congr fun d => and_congr_right fun hd => by rw [drawW_of_shown (frame_fitted s w) (hds d hd)]

theorem bit_ballasted (s : State) (w : List Nat) :
    (ballasted s w).bit 0 PWR_STAT_BALLAST = true ↔ ∃ d, d < 4 ∧ s.ramps d = true ∧ w.getD d 0 < s.drawW d := by
  have hfill := ballastFill_fitted s w (ds := allDies.filter s.ramps) (fun d hd => mem_allDies.mp (List.mem_filter.mp hd).1)
  simp only [List.mem_filter, mem_allDies, and_assoc] at hfill
  rw [← hfill, ballasted, State.bit, fld_setFld_same _ 0 PWR_STAT_BALLAST _ 0 (by decide)]
  by_cases h0 : ballastFill (fitted s w) (allDies.filter s.ramps) w = 0 <;> simp [h0, b2n]

end Sys2Proof.Laws
end

section
/-!
Changes between power states (R486 to R490): IDLE_TO_P1 and POWER_WAKE, the banks that wake and the owners that P2 took away; O13
from the lemmas of levels and of states.
-/
namespace Sys2Proof.Laws

open Sys2Proof Sys2Proof.Machine

/-! ## IDLE_TO_P1 -/

theorem exec_idleToP1_due {s : State} (hp : s.pstate = 0) (hready : s.ready = true) (hd2 : s.d2 = false) (hwork : s.atWork = false)
    (hwaking : s.power.waking = false) (hwait : s.sec.d2wait = none)
    (hts : s.restTs 4 + 1000 * max 10 (s.fld 0 PWR_CTRL_IDLE_US) ≤ s.ts) : exec .idleToP1 s = .next (s.setPstate 1) := by
  show execIdleToP1 s = _
  simp [execIdleToP1, hp, hready, hd2, hwork, hwaking, hwait, Nat.not_lt.mpr hts]

theorem exec_idleToP1_early {s : State} (hts : s.ts < s.restTs 4 + 1000 * max 10 (s.fld 0 PWR_CTRL_IDLE_US)) :
    exec .idleToP1 s = .next s := by
  show execIdleToP1 s = _
  simp [execIdleToP1, hts]

theorem pstate_setPstate (s : State) {p : Nat} (h : p < 4) : (s.setPstate p).pstate = p := by
  have hat : HUB_STATUS_PSTATE.at 0 0 ≠ PWR_STAT_PSTATE.at 0 0 := by decide
  rw [State.setPstate, State.pstate, fld_setFld_reg _ hat, fld_setFld_same s 0 HUB_STATUS_PSTATE p 0 (by decide)]
  exact Nat.mod_eq_of_lt h

theorem pwrStat_setPstate (s : State) {p : Nat} (h : p < 4) : (s.setPstate p).fld 0 PWR_STAT_PSTATE = p := by
  rw [State.setPstate, fld_setFld_same _ 0 PWR_STAT_PSTATE p 0 (by decide)]
  exact Nat.mod_eq_of_lt h

theorem sameButRegs_setPstate (s : State) (p : Nat) : SameButRegs s (s.setPstate p) :=
  (sameButRegs_setFld s 0 HUB_STATUS_PSTATE p 0).trans (sameButRegs_setFld _ 0 PWR_STAT_PSTATE p 0)

theorem reg_setPstate_other (s : State) (p : Nat) {a : Nat} (h : ¬ (a = 0 ∨ a = PWR_STAT_PSTATE.at 0 0)) :
    (s.setPstate p).reg a = s.reg a := by
  obtain ⟨hhub, hpwr⟩ := not_or.mp h
  rw [State.setPstate, reg_setFld_other _ 0 PWR_STAT_PSTATE p 0 hpwr, reg_setFld_other s 0 HUB_STATUS_PSTATE p 0 hhub]

/-! ## The queues that a job shows -/

/-- A register of a die's own block, below the store-room banks', or of a core's block, below the arrays'. -/
def queueReg (a : Nat) : Prop :=
  (∃ d o, a = dieAt d + o ∧ o < 0x80000) ∨ ∃ d p o, a = coreAt d p + o ∧ p < 128 ∧ o < 0xC00

theorem ctx_phys_lt {s : State} {j d l : Nat} {c : Ctx} (h : s.ctx j d l = some c) : c.phys < 128 := by
  unfold State.ctx at h
  split at h
  · split at h
    · cases h
    · obtain rfl := Option.some.inj h
      dsimp only
      split
      · exact Nat.mod_lt _ (by decide)
      · decide
  · cases h

theorem queueReg_die (d : Nat) {f : Fld} (h : f.off < 0x80000) : queueReg (f.at (dieAt d) 0) :=
  .inl ⟨d, f.off, by simp [Fld.at], h⟩

theorem queueReg_core (d : Nat) {p : Nat} {f : Fld} (hp : p < 128) (h : f.off < 0xC00) : queueReg (f.at (coreAt d p) 0) :=
  .inr ⟨d, p, f.off, by simp [Fld.at], hp, h⟩

theorem frame_showQueue (s : State) (lead die q : Nat) : Frame powered (fun a _ => queueReg a) s (s.showQueue lead die q) := by
  unfold State.showQueue
  split
  · exact .refl s
  · next c hc =>
    have hcore : ∀ (u : State) (f : Fld) x, f.off < 0xC00 →
        Frame powered (fun a _ => queueReg a) u (u.setFld (coreAt die c.phys) f x) :=
      fun u f x hf => frame_setFld u x (fun _ _ _ => queueReg_core die (ctx_phys_lt hc) hf)
    have hreg : ∀ (u : State) (f : Fld) x, f.off < 0xC00 →
        Frame powered (fun a _ => queueReg a) u (u.setReg (f.at (coreAt die c.phys) 0) x) :=
      fun u f x hf => frame_setReg u x (fun _ => queueReg_core die (ctx_phys_lt hc) hf)
    dsimp only
    split
    · exact (frame_setReg s _ (fun _ => queueReg_die die (by decide))).trans
        (frame_setReg _ _ (fun _ => queueReg_die die (by decide)))
    · have hstat : ∀ x y z, Frame powered (fun a _ => queueReg a) s (((s.setReg (SEQ_STAT_STATE.at (coreAt die c.phys) 0) x).setReg
          (SEQ_PC_INDEX.at (coreAt die c.phys) 0) y).setFld (coreAt die c.phys) CORE_CONV_STAT_TABLE_LOADING z) := fun x y z =>
        ((hreg s SEQ_STAT_STATE x (by decide)).trans (hreg _ SEQ_PC_INDEX y (by decide))).trans
          (hcore _ CORE_CONV_STAT_TABLE_LOADING z (by decide))
      split
      · refine Frame.trans ?_ (hcore _ SEQ_WAIT_COUNT _ (by decide))
        refine Frame.trans ?_ (hcore _ SEQ_WAIT_TOKEN _ (by decide))
        split
        · exact (hstat _ _ _).trans (hcore _ CORE_CONV_STAT_LOAD_SLOT _ (by decide))
        · exact hstat _ _ _
      · exact ((hstat _ _ _).trans (hcore _ SEQ_WAIT_TOKEN _ (by decide))).trans (hcore _ SEQ_WAIT_COUNT _ (by decide))

theorem frame_showAll (s : State) (lead : Nat) : Frame powered (fun a _ => queueReg a) s (s.showAll lead) := by
  unfold State.showAll
  split
  · exact frame_forAll (fun u pd _ => frame_forAll (fun w q _ => frame_showQueue w lead _ q) u) s
  · exact .refl s

theorem frame_showJobs (s : State) : Frame powered (fun a _ => queueReg a) s s.showJobs := by
  refine frame_forAll (fun u j _ => ?_) s
  split
  · split
    · exact .refl u
    · exact frame_showAll u j
  · exact .refl u

theorem queueReg_ge {a : Nat} (h : queueReg a) : 0x1000000 ≤ a := by
  rcases h with ⟨d, o, rfl, -⟩ | ⟨d, p, o, rfl, -⟩
  · simp only [dieAt]
    omega
  · simp only [coreAt, dieAt]
    omega

/-! ## Arrival in P0 -/

/-- The registers that tell of an arrival: HUB_STATUS, PWR_STAT, and those of the queues shown. -/
def arrivalReg (a : Nat) : Prop := a = 0 ∨ a = 0x300000 ∨ queueReg a

theorem arrive_p0 (s : State) : s.arrive 0 = ((s.setPstate 0).setFld 0 HUB_STATUS_TRANSITION 0).showJobs := by
  simp [State.arrive]

theorem frame_arrive_p0 (s : State) : Frame powered (fun a _ => arrivalReg a) s (s.arrive 0) := by
  have hset : ∀ (u : State) (f : Fld) x, f.at 0 0 = 0 ∨ f.at 0 0 = 0x300000 →
      Frame powered (fun a _ => arrivalReg a) u (u.setFld 0 f x) :=
    fun u f x hf => frame_setFld u x (fun _ _ _ => hf.imp_right .inl)
  rw [arrive_p0]
  exact (((hset s HUB_STATUS_PSTATE 0 (.inl rfl)).trans (hset _ PWR_STAT_PSTATE 0 (.inr rfl))).trans
    (hset _ HUB_STATUS_TRANSITION 0 (.inl rfl))).trans ((frame_showJobs _).mono (fun _ _ h => .inr (.inr h)))

/-- The module stands in P0, as both registers that report it show, and no transition is under way. -/
theorem arrived_p0 (s : State) :
    (s.arrive 0).pstate = 0 ∧ (s.arrive 0).fld 0 PWR_STAT_PSTATE = 0 ∧ (s.arrive 0).bit 0 HUB_STATUS_TRANSITION = false := by
  have hshow : ∀ (u : State) (f : Fld), f.at 0 0 < 0x1000000 → u.showJobs.fld 0 f = u.fld 0 f := fun u f hf =>
    (frame_showJobs u).fld (fun _ _ _ hq => absurd (queueReg_ge hq) (Nat.not_le.mpr hf))
  have hother : PWR_STAT_PSTATE.at 0 0 ≠ HUB_STATUS_TRANSITION.at 0 0 := by decide
  rw [arrive_p0]
  refine ⟨?_, ?_, ?_⟩
  · rw [State.pstate, hshow _ _ (by decide),
      fld_setFld_bits (f := HUB_STATUS_TRANSITION) (g := HUB_STATUS_PSTATE) _ rfl (.inr (by decide))]
    exact pstate_setPstate s (by decide)
  · rw [hshow _ _ (by decide), fld_setFld_reg _ hother]
    exact pwrStat_setPstate s (by decide)
  · rw [State.bit, hshow _ _ (by decide), fld_setFld_same _ 0 HUB_STATUS_TRANSITION 0 0 (by decide)]
    rfl

/-! ## POWER_WAKE -/

/-- Work does not wait for the module any more. -/
def wakingDone (s : State) : State := { s with power := { s.power with waking := false } }

theorem exec_powerWake_p1 {s : State} (hw : s.power.waking = true) (hb : s.power.wakeBanks = none) (hp : s.pstate = 1) :
    exec .powerWake s = .next ((wakingDone s).arrive 0) := by
  show execPowerWake s = _
  simp [execPowerWake, hw, hb, hp, wakingDone]

theorem exec_powerWake_p2 {s : State} (hw : s.power.waking = true) (hb : s.power.wakeBanks = none) (hp : s.pstate = 2)
    (hr : s.power.ramps.any (fun r => r.die.isNone) = false) :
    exec .powerWake s = .next ((s.setFld 0 HUB_STATUS_TRANSITION 1).addRamp none 1 .wake) := by
  show execPowerWake s = _
  rw [execPowerWake, if_neg (by simp [hb]), if_neg (by simp [hw]), if_neg (by simp [hp]), if_pos (by simp [hp, hr])]

theorem exec_powerWake_banks {s : State} (h : s.power.wakeBanks = some .wake) :
    exec .powerWake s = .next ((wakingDone s.leaveP2).arrive 0) := by
  show execPowerWake s = _
  rw [execPowerWake, if_pos (by simp [h]), State.woken, h]
  rfl

/-! ## Where a bank's registers stand -/

/-- A bank is bank k of its die's store room, or shelf k of core p, and its block lies among theirs (Tables 1-10 and 1-11). -/
theorem bankAt_cases (b : Nat) : ∃ e,
    (∃ k, k < 16 ∧ b = e * 816 + 800 + k ∧ bankAt b = 0x1080000 + e * 0x400000 + k * 0x100) ∨
    (∃ p k, p < 100 ∧ k < 8 ∧ b = e * 816 + p * 8 + k ∧ bankAt b = 0x1101000 + e * 0x400000 + p * 0x2000 + k * 0x100) := by
  refine ⟨b / 816, ?_⟩
  rcases Nat.lt_or_ge (b % 816) 800 with h | h
  · refine .inr ⟨b % 816 / 8, b % 816 % 8, by omega, by omega, by omega, ?_⟩
    rw [bankAt, if_neg (by simp [bankIsStore, h])]
    simp only [shelfAt, coreAt, dieAt, bankDie]
    omega
  · refine .inl ⟨b % 816 - 800, by omega, by omega, ?_⟩
    rw [bankAt, if_pos (by simp [bankIsStore, h])]
    simp only [storeAt, dieAt, bankDie]
    omega

theorem bankAt_mod (b : Nat) : bankAt b % 0x100 = 0 := by
  obtain ⟨e, ⟨k, -, -, hb⟩ | ⟨p, k, -, -, -, hb⟩⟩ := bankAt_cases b <;> omega

theorem bankAt_ge (b : Nat) : 0x1000000 ≤ bankAt b := by
  obtain ⟨e, ⟨k, -, -, hb⟩ | ⟨p, k, -, -, -, hb⟩⟩ := bankAt_cases b <;> omega

theorem bankAt_inj {b c : Nat} (h : bankAt b = bankAt c) : b = c := by
  obtain ⟨e, ⟨k, _, _, hb⟩ | ⟨p, k, _, _, _, hb⟩⟩ := bankAt_cases b <;>
    obtain ⟨e', ⟨k', _, _, hc⟩ | ⟨p', k', _, _, _, hc⟩⟩ := bankAt_cases c <;> omega

/-- Registers of two banks' blocks differ. -/
theorem bankReg_ne {b c : Nat} (h : b ≠ c) {o o' : Nat} (ho : o < 0x100) (ho' : o' < 0x100) : bankAt b + o ≠ bankAt c + o' := by
  have hb := bankAt_mod b
  have hc := bankAt_mod c
  have hne : bankAt b ≠ bankAt c := fun hbc => h (bankAt_inj hbc)
  omega

/-- No job's queue shows in a bank's block. -/
theorem not_queueReg_bank (b : Nat) {o : Nat} (ho : o < 0x100) : ¬ queueReg (bankAt b + o) := by
  rintro (⟨d, x, ha, hx⟩ | ⟨d, q, x, ha, hq, hx⟩) <;> simp only [coreAt, dieAt] at ha <;>
    obtain ⟨e, ⟨k, _, _, hb⟩ | ⟨p, k, _, _, _, hb⟩⟩ := bankAt_cases b <;> omega

/-! ## Banks in RETAIN wake -/

/-- The work of the module and the power supply, whatever the memories hold. -/
def busy (s : State) := (s.qps, s.jobs, s.dies, s.cores, s.prepared, s.attics, s.power)

theorem Frame.toBusy {p : Nat → Nat → Prop} {s t : State} (h : Frame powered p s t) : Frame busy p s t := by
  refine ⟨?_, h.bits⟩
  obtain ⟨hq, hj, hd, hc, hp, ha⟩ := h.toStanding.work
  simp only [busy, hq, hj, hd, hc, hp, ha, h.power]

theorem Frame.busyWork {p : Nat → Nat → Prop} {s t : State} (h : Frame busy p s t) : sameWork s t ∧ t.power = s.power := by
  have hview := h.view
  simp only [busy, Prod.mk.injEq] at hview
  obtain ⟨hq, hj, hd, hc, hp, ha, hpow⟩ := hview
  exact ⟨⟨hq, hj, hd, hc, hp, ha⟩, hpow⟩

/-- The registers of a bank that its waking writes: BANK_STAT and BANK_CTRL. -/
def wakeReg (b a : Nat) : Prop := a = bankAt b + 8 ∨ a = bankAt b + 0x10

/-- Does a bank wake from OFF, or from a transition between OFF and another state? -/
def wakesFromOff (s : State) (b : Nat) : Bool := match Tab.find s.bankTrans b with
  | some t => t / 4 == 2 || t % 4 == 2
  | none => s.bankPwr b == 2

/-- The state in which a bank's transition has ended and, where it was OFF, its memory reads zero (R273). -/
def bankRoused (s : State) (b : Nat) : State :=
  if wakesFromOff s b then { s with bankTrans := Tab.erase s.bankTrans b }.bankZero b
  else { s with bankTrans := Tab.erase s.bankTrans b }

theorem bankWake_eq (s : State) (b : Nat) : s.bankWake b =
    (((bankRoused s b).setFld (bankAt b) BANK_STAT_READY 1).setFld (bankAt b) BANK_STAT_PWR 0).setFld (bankAt b)
      BANK_CTRL_PWR_REQ 0 := rfl

theorem frame_bankZero {p : Nat → Nat → Prop} (s : State) (b : Nat) : Frame busy p s (s.bankZero b) := by
  unfold State.bankZero State.modBank
  split <;> exact frame_of_regs rfl rfl

theorem frame_bankRoused {p : Nat → Nat → Prop} (s : State) (b : Nat) : Frame busy p s (bankRoused s b) := by
  have htrans : Frame busy p s { s with bankTrans := Tab.erase s.bankTrans b } := frame_of_regs rfl rfl
  unfold bankRoused
  split
  · exact htrans.trans (frame_bankZero _ b)
  · exact htrans

theorem frame_bankFlags (s : State) (b : Nat) : Frame powered (fun a _ => wakeReg b a) s
    (((s.setFld (bankAt b) BANK_STAT_READY 1).setFld (bankAt b) BANK_STAT_PWR 0).setFld (bankAt b) BANK_CTRL_PWR_REQ 0) :=
  ((frame_setFld s 1 (fun _ _ _ => .inl rfl)).trans (frame_setFld _ 0 (fun _ _ _ => .inl rfl))).trans
    (frame_setFld _ 0 (fun _ _ _ => .inr rfl))

theorem frame_bankWake (s : State) (b : Nat) : Frame busy (fun a _ => wakeReg b a) s (s.bankWake b) :=
  (frame_bankRoused s b).trans (frame_bankFlags _ b).toBusy

/-- A bank is ON and READY. -/
def bankAwake (s : State) (b : Nat) : Prop := s.bankPwr b = 0 ∧ s.bit (bankAt b) BANK_STAT_READY = true

theorem bankAwake_bankWake (s : State) (b : Nat) : bankAwake (s.bankWake b) b := by
  have hctrl : BANK_STAT_PWR.at (bankAt b) 0 ≠ BANK_CTRL_PWR_REQ.at (bankAt b) 0 := by simp [Fld.at]
  have hctrl' : BANK_STAT_READY.at (bankAt b) 0 ≠ BANK_CTRL_PWR_REQ.at (bankAt b) 0 := hctrl
  rw [bankWake_eq]
  constructor
  · rw [State.bankPwr, fld_setFld_reg _ hctrl, fld_setFld_same _ _ BANK_STAT_PWR 0 0 (by decide)]
    rfl
  · rw [State.bit, fld_setFld_reg _ hctrl',
      fld_setFld_bits (f := BANK_STAT_PWR) (g := BANK_STAT_READY) _ rfl (.inr (by decide)), ← State.bit]
    exact bit_setFld_one _ _ BANK_STAT_READY 0 (by decide) (by decide)

/-- A bank in RETAIN wakes with its contents. -/
theorem memories_bankWake {s : State} {b : Nat} (hp : s.bankPwr b = 1) (ht : s.bankTrans = []) :
    (s.bankWake b).bankTrans = [] ∧ sameMemories s (s.bankWake b) := by
  have hoff : wakesFromOff s b = false := by simp [wakesFromOff, ht, Tab.find, hp]
  have hroused : bankRoused s b = { s with bankTrans := Tab.erase s.bankTrans b } := if_neg (by simp [hoff])
  rw [bankWake_eq, hroused, ht]
  exact ⟨rfl, (frame_bankFlags { s with bankTrans := [] } b).toStanding.toWorking.memories⟩

/-- A bank in RETAIN wakes, another stands. -/
def wakeRetained (s : State) (b : Nat) : State := if s.bankPwr b == 1 then s.bankWake b else s

theorem frame_wakeRetained (s : State) (b : Nat) : Frame busy (fun a _ => wakeReg b a) s (wakeRetained s b) := by
  unfold wakeRetained
  split
  · exact frame_bankWake s b
  · exact .refl s

theorem memories_wakeRetained {s : State} (b : Nat) (ht : s.bankTrans = []) :
    (wakeRetained s b).bankTrans = [] ∧ sameMemories s (wakeRetained s b) := by
  unfold wakeRetained
  split
  · next hp => exact memories_bankWake (beq_iff_eq.mp hp) ht
  · exact ⟨ht, rfl, rfl, rfl, rfl, rfl⟩

theorem memories_wakeAll (s : State) (bs : List Nat) (ht : s.bankTrans = []) : sameMemories s (s.forAll bs wakeRetained) := by
  have hfold := forAll_related (R := fun s t => s.bankTrans = [] → t.bankTrans = [] ∧ sameMemories s t) (l := bs)
    (fun s h => ⟨h, rfl, rfl, rfl, rfl, rfl⟩)
    (fun {s t u} h h' hs => by
      obtain ⟨ht, hst⟩ := h hs
      obtain ⟨hu, htu⟩ := h' ht
      exact ⟨hu, by simp_all [sameMemories]⟩)
    (fun s b _ => memories_wakeRetained b) s
  exact (hfold ht).2

/-- The status of a bank stands while nothing writes its BANK_STAT. -/
theorem bankAwake_of_reg {s t : State} {b : Nat} (h : t.reg (bankAt b + 8) = s.reg (bankAt b + 8)) (ha : bankAwake s b) :
    bankAwake t b := by
  obtain ⟨hpwr, hready⟩ := ha
  exact ⟨(fld_of_reg h).trans hpwr, (bit_of_reg h).trans hready⟩

theorem reg_wakeRetained_other (s : State) {b c : Nat} (h : b ≠ c) : (wakeRetained s c).reg (bankAt b + 8) = s.reg (bankAt b + 8) := by
  refine (frame_wakeRetained s c).reg (fun _ hw => ?_)
  rcases hw with hw | hw
  · exact bankReg_ne h (by decide) (by decide) hw
  · exact bankReg_ne h (by decide) (by decide) hw

theorem bankAwake_wakeRetained {s : State} {b : Nat} (c : Nat) (h : bankAwake s b) : bankAwake (wakeRetained s c) b := by
  by_cases hbc : b = c
  · subst hbc
    rw [wakeRetained, if_neg (by simp [h.1])]
    exact h
  · exact bankAwake_of_reg (reg_wakeRetained_other s hbc) h

theorem bankAwake_wakeAll {s : State} {b : Nat} (bs : List Nat) (h : bankAwake s b) : bankAwake (s.forAll bs wakeRetained) b := by
  induction bs generalizing s with
  | nil => exact h
  | cons c bs ih => exact ih (bankAwake_wakeRetained c h)

/-- Every bank listed that is in RETAIN ends ON and READY. -/
theorem bankAwake_of_mem {s : State} {b : Nat} {bs : List Nat} (hb : b ∈ bs) (hp : s.bankPwr b = 1) :
    bankAwake (s.forAll bs wakeRetained) b := by
  induction bs generalizing s with
  | nil => cases hb
  | cons c bs ih =>
    by_cases hbc : b = c
    · subst hbc
      have hstep : wakeRetained s b = s.bankWake b := if_pos (by simp [hp])
      refine bankAwake_wakeAll (s := wakeRetained s b) bs ?_
      rw [hstep]
      exact bankAwake_bankWake s b
    · exact ih (s := wakeRetained s c) ((List.mem_cons.mp hb).resolve_left hbc)
        ((fld_of_reg (reg_wakeRetained_other s hbc)).trans hp)

/-! ## Owners are written back -/

theorem frame_setOwner (s : State) (b code : Nat) (job : Option Nat) :
    Frame powered (fun a _ => a = bankAt b ∨ a = 0x200408) s (s.setOwner b code job) := by
  have hset : ∀ (u : State) (f : Fld) x, f.at (bankAt b) 0 = bankAt b →
      Frame powered (fun a _ => a = bankAt b ∨ a = 0x200408) u (u.setFld (bankAt b) f x) :=
    fun u f x hf => frame_setFld u x (fun _ _ _ => .inl hf)
  have hcode : ∀ core slot, Frame powered (fun a _ => a = bankAt b ∨ a = 0x200408) s
      ((s.setFld (bankAt b) BANK_OWN_OWNER code).trace 3 (bankDie b) core slot) := fun core slot =>
    (hset s BANK_OWN_OWNER code rfl).trans (frame_trace _ 3 _ core slot (fun _ => .inr rfl))
  cases job with
  | some j => exact ((hcode _ _).trans (hset _ BANK_OWN_JOB j rfl)).trans (hset _ BANK_OWN_JOB_VALID 1 rfl)
  | none => exact ((hcode _ _).trans (hset _ BANK_OWN_JOB 0 rfl)).trans (hset _ BANK_OWN_JOB_VALID 0 rfl)

theorem owner_setOwner (s : State) (b code : Nat) (job : Option Nat) :
    (s.setOwner b code job).fld (bankAt b) BANK_OWN_OWNER = code % 8 := by
  have htrace : ∀ (u : State) core slot,
      (u.trace 3 (bankDie b) core slot).fld (bankAt b) BANK_OWN_OWNER = u.fld (bankAt b) BANK_OWN_OWNER := fun u core slot =>
    (frame_trace (p := fun a _ => a = 0x200408) u 3 _ core slot (fun _ => rfl)).fld (fun _ _ _ ha => by
      have hge := bankAt_ge b
      simp only [Fld.at] at ha
      omega)
  have hjob : ∀ (u : State) (x y : Nat), ((u.setFld (bankAt b) BANK_OWN_JOB x).setFld (bankAt b) BANK_OWN_JOB_VALID y).fld (bankAt b)
      BANK_OWN_OWNER = u.fld (bankAt b) BANK_OWN_OWNER := fun u x y => by
    rw [fld_setFld_bits (f := BANK_OWN_JOB_VALID) (g := BANK_OWN_OWNER) _ rfl (.inr (by decide)),
      fld_setFld_bits (f := BANK_OWN_JOB) (g := BANK_OWN_OWNER) _ rfl (.inr (by decide))]
  have hcode := fld_setFld_same s (bankAt b) BANK_OWN_OWNER code 0 (by decide)
  cases job with
  | some j => exact (hjob _ _ _).trans ((htrace _ _ _).trans hcode)
  | none => exact (hjob _ _ _).trans ((htrace _ _ _).trans hcode)

/-- One owner that P2 took away is written back, on a die in service. -/
def restoreOwner (s : State) (e : Nat × Nat) : State :=
  if s.dieState (bankDie e.1) != 0 then s
  else s.setOwner e.1 (e.2 % 8) (if e.2 / 8 = 0 then none else some (e.2 / 8 - 65))

theorem frame_restoreOwner (s : State) (e : Nat × Nat) :
    Frame powered (fun a _ => a = bankAt e.1 ∨ a = 0x200408) s (restoreOwner s e) := by
  unfold restoreOwner
  split
  · exact .refl s
  · exact frame_setOwner s e.1 _ _

/-- The registers that the writing back of owners can reach. -/
def ownerReg (a : Nat) : Prop := a = 0x200408 ∨ ∃ b, a = bankAt b

theorem frame_restoreOwners (s : State) (es : Tab Nat) : Frame powered (fun a _ => ownerReg a) s (s.forAll es restoreOwner) :=
  frame_forAll (fun u e _ => (frame_restoreOwner u e).mono (fun _ _ h => h.elim (fun hb => .inr ⟨e.1, hb⟩) .inl)) s

theorem not_ownerReg_stat (b : Nat) : ¬ ownerReg (bankAt b + 8) := by
  have hge := bankAt_ge b
  have hmod := bankAt_mod b
  rintro (h | ⟨c, h⟩)
  · omega
  · have hc := bankAt_mod c
    omega

theorem dieState_restoreOwner (s : State) (e : Nat × Nat) {d : Nat} (hd : d < 4) : (restoreOwner s e).dieState d = s.dieState d := by
  refine (frame_restoreOwner s e).fld (fun _ _ _ h => ?_)
  have hge := bankAt_ge e.1
  simp only [Fld.at] at h
  omega

theorem owner_restoreOwner_other (s : State) {e : Nat × Nat} {b : Nat} (h : b ≠ e.1) :
    (restoreOwner s e).fld (bankAt b) BANK_OWN_OWNER = s.fld (bankAt b) BANK_OWN_OWNER := by
  refine (frame_restoreOwner s e).fld (fun _ _ _ ha => ?_)
  rcases ha with ha | ha
  · exact bankReg_ne h (o := 0) (o' := 0) (by decide) (by decide) ha
  · have hge := bankAt_ge b
    simp only [Fld.at] at ha
    omega

theorem owner_restoreOwners_other {b : Nat} (s : State) {es : Tab Nat} (h : ∀ e ∈ es, b ≠ e.1) :
    (s.forAll es restoreOwner).fld (bankAt b) BANK_OWN_OWNER = s.fld (bankAt b) BANK_OWN_OWNER :=
  forAll_related (R := fun s t => t.fld (bankAt b) BANK_OWN_OWNER = s.fld (bankAt b) BANK_OWN_OWNER) (fun _ => rfl)
    (fun h h' => h'.trans h) (fun s e he => owner_restoreOwner_other s (h e he)) s

/-- Every owner listed for a bank of a die in service is written back. -/
theorem owner_restoreOwners {s : State} {es : Tab Nat} {b v : Nat} (hsort : Tab.sorted es = true) (hd : bankDie b < 4)
    (hfind : Tab.find es b = some v) (h0 : s.dieState (bankDie b) = 0) :
    (s.forAll es restoreOwner).fld (bankAt b) BANK_OWN_OWNER = v % 8 := by
  induction es generalizing s with
  | nil => cases hfind
  | cons e es ih =>
    obtain ⟨c, w⟩ := e
    obtain ⟨hbelow, htail⟩ := sorted_cons.mp hsort
    by_cases hcb : c = b
    · subst hcb
      obtain rfl : w = v := by simpa [Tab.find] using hfind
      have hrest := owner_restoreOwners_other (restoreOwner s (c, w)) (es := es) (fun e he => Nat.ne_of_lt (hbelow e he))
      have hstep : restoreOwner s (c, w) = s.setOwner c (w % 8) (if w / 8 = 0 then none else some (w / 8 - 65)) :=
        if_neg (by simp [h0])
      refine hrest.trans ?_
      rw [hstep, owner_setOwner, Nat.mod_mod]
    · exact ih (s := restoreOwner s (c, w)) htail (by simpa [Tab.find, hcb] using hfind)
        ((dieState_restoreOwner s _ hd).trans h0)

/-! ## P2 is left -/

/-- The banks of the dies in service, in ascending order. -/
def servedBanks (s : State) : List Nat :=
  (allDies.filter (fun d => s.dieState d == 0)).flatMap (fun d => (List.range 816).map (fun k => d * 816 + k))

theorem mem_servedBanks {s : State} {b : Nat} (hb : b < 3264) (h0 : s.dieState (bankDie b) = 0) : b ∈ servedBanks s := by
  simp only [servedBanks, List.mem_flatMap, List.mem_filter, mem_allDies, beq_iff_eq, List.mem_map, List.mem_range]
  have hd : bankDie b = b / 816 := rfl
  exact ⟨bankDie b, ⟨by omega, h0⟩, b % 816, by omega, by omega⟩

/-- The state in which the banks are awake. -/
def banksWoken (s : State) : State := s.forAll (servedBanks s) wakeRetained

/-- What the waking of any banks can write. -/
def anyWakeReg (a : Nat) : Prop := ∃ b, wakeReg b a

theorem frame_banksWoken (s : State) : Frame busy (fun a _ => anyWakeReg a) s (banksWoken s) :=
  frame_forAll (fun u b _ => (frame_wakeRetained u b).mono (fun _ _ h => ⟨b, h⟩)) s

theorem dieState_banksWoken (s : State) {d : Nat} (hd : d < 4) : (banksWoken s).dieState d = s.dieState d := by
  refine (frame_banksWoken s).fld (fun _ _ _ ⟨b, h⟩ => ?_)
  have hge := bankAt_ge b
  simp only [wakeReg, Fld.at] at h
  omega

/-- The state in which every owner of P2's record is written back. -/
def ownersBack (s : State) : State := (banksWoken s).forAll (banksWoken s).power.p2owners restoreOwner

theorem leaveP2_eq (s : State) : s.leaveP2 =
    { ownersBack s with power := { (ownersBack s).power with p2owners := [], wakeBanks := none } } := rfl

theorem power_ownersBack (s : State) : (ownersBack s).power = s.power :=
  (frame_restoreOwners _ _).power.trans (frame_banksWoken s).busyWork.2

/-- The state that POWER_WAKE leaves in P0, once the banks are awake. -/
def wokenUp (s : State) : State := (wakingDone s.leaveP2).arrive 0

theorem frame_wokenUp (s : State) : Frame standing (fun a _ => arrivalReg a) (ownersBack s) (wokenUp s) := by
  rw [wokenUp, wakingDone, leaveP2_eq]
  refine Frame.trans ?_ (frame_arrive_p0 _).toStanding
  exact frame_of_regs rfl rfl

theorem power_wokenUp (s : State) :
    (wokenUp s).power = { s.power with waking := false, wakeBanks := none, p2owners := [] } := by
  rw [wokenUp, (frame_arrive_p0 _).power, wakingDone, leaveP2_eq, power_ownersBack]

theorem not_arrivalReg_bank (b : Nat) {o : Nat} (ho : o < 0x100) : ¬ arrivalReg (bankAt b + o) := by
  have hge := bankAt_ge b
  rintro (h | h | h)
  · omega
  · omega
  · exact not_queueReg_bank b ho h

theorem memories_wokenUp {s : State} (h : s.bankTrans = []) : sameMemories s (wokenUp s) := by
  have hbanks : sameMemories s (banksWoken s) := memories_wakeAll s (servedBanks s) h
  have howners : sameMemories (banksWoken s) (ownersBack s) := (frame_restoreOwners _ _).toStanding.toWorking.memories
  have hup := (frame_wokenUp s).toWorking.memories
  simp_all [sameMemories]

theorem work_wokenUp (s : State) : sameWork s (wokenUp s) := by
  have hbanks := (frame_banksWoken s).busyWork.1
  have howners : sameWork (banksWoken s) (ownersBack s) := (frame_restoreOwners _ _).toStanding.work
  have hup := (frame_wokenUp s).work
  simp_all [sameWork]

/-- Every bank in RETAIN of a die in service is ON and READY (R488, R490). -/
theorem bankAwake_wokenUp {s : State} {b : Nat} (hb : b < 3264) (h0 : s.dieState (bankDie b) = 0) (hp : s.bankPwr b = 1) :
    bankAwake (wokenUp s) b := by
  have hwoken : bankAwake (banksWoken s) b := bankAwake_of_mem (mem_servedBanks hb h0) hp
  have howners := bankAwake_of_reg (t := ownersBack s) ((frame_restoreOwners _ _).reg (fun _ => not_ownerReg_stat b)) hwoken
  exact bankAwake_of_reg ((frame_wokenUp s).reg (fun _ => not_arrivalReg_bank b (by decide))) howners

/-- Every owner that P2 took away, of a bank on a die in service, is back (R488, R490). -/
theorem owner_wokenUp {s : State} {b v : Nat} (hsort : Tab.sorted s.power.p2owners = true) (hd : bankDie b < 4)
    (hfind : Tab.find s.power.p2owners b = some v) (h0 : s.dieState (bankDie b) = 0) :
    (wokenUp s).fld (bankAt b) BANK_OWN_OWNER = v % 8 := by
  have hrecord : (banksWoken s).power.p2owners = s.power.p2owners := by rw [(frame_banksWoken s).busyWork.2]
  have howners : (ownersBack s).fld (bankAt b) BANK_OWN_OWNER = v % 8 := by
    rw [ownersBack, hrecord]
    exact owner_restoreOwners hsort hd hfind ((dieState_banksWoken s hd).trans h0)
  rw [← howners]
  exact (frame_wokenUp s).fld (fun _ _ _ => not_arrivalReg_bank b (o := 0) (by decide))

theorem mem_of_find {α : Type} {t : Tab α} {k : Nat} {v : α} (h : Tab.find t k = some v) : (k, v) ∈ t := by
  induction t with
  | nil => cases h
  | cons c t ih =>
    obtain ⟨j, w⟩ := c
    by_cases hjk : j = k
    · subst hjk
      obtain rfl : w = v := by simpa [Tab.find] using h
      exact List.mem_cons_self
    · exact List.mem_cons_of_mem _ (ih (by simpa [Tab.find, hjk] using h))

/-- Settles O13: the levels by what a change of level and a completed ramp leave in force, the states by the frame of an arrival,
P2's end by the banks woken and the owners written back, one after the other. -/
theorem levelsAndStates : Obligations.LevelsAndStates := by
  refine ⟨⟨fun d s hramps hlevel hrun hts => ?linger, fun d s hts => exec_lingerExpiry_early hts,
    fun d n rest s h => ?dieRamp, fun w s hmain hp => ?ballast⟩,
    fun s hp hready hd2 hwork hwaking hwait hts => ?idle, fun s hts => exec_idleToP1_early hts,
    fun s hw hb hp => ?fromP1, fun s hw hb hp hr => ?fromP2, fun n rest s h => ?wakeRamp, fun s h => ?banks⟩
  case linger =>
    have hframe := frame_setLevel s d 60 .none
    exact ⟨_, exec_lingerExpiry_due hramps hlevel hrun hts, levelW_setLevel_same s .none d.isLt (by decide),
      fun e he hne => levelW_setLevel_other s 60 .none he hne, hframe.toWorking.memories, hframe.work⟩
  case dieRamp =>
    obtain ⟨p, hexec⟩ := exec_rampComplete_die d h
    have hramp := frame_dieRamped (rampTaken s rest) d.isLt
    have hafter := frame_afterDieRamp (dieRamped (rampTaken s rest) d) d p
    have hall := hramp.trans hafter.ofShown
    refine ⟨_, hexec, ?_, congrArg Power.ramps hall.power, fun e he => (levelW_of_ramped hall he).trans rfl,
      hall.toStanding.toWorking.memories, hall.toStanding.work⟩
    rw [drawW_of_shown hafter d.isLt]
    exact drawW_dieRamped (rampTaken s rest) d.isLt
  case ballast =>
    have hcount := frame_gapsCounted (ballasted s w)
    have hwork := frame_ballasted s w
    have hmem := hcount.toStanding.toWorking.memories
    refine ⟨_, exec_ballastAdjust_powered hmain hp, ?_, ?_, ?_, ?_⟩
    · rw [State.bit, hcount.fld (f := PWR_STAT_BALLAST) (fun _ _ _ => by simp [Fld.at]), ← State.bit]
      exact bit_ballasted s w
    · have hfit := hwork.memories
      simp_all [sameMemories]
    · exact hcount.toStanding.toWorking.qps.trans hwork.qps
    · exact hcount.toStanding.toWorking.jobs.trans hwork.jobs
  case idle =>
    have hsame := sameButRegs_setPstate s 1
    exact ⟨_, exec_idleToP1_due hp hready hd2 hwork hwaking hwait hts, pstate_setPstate s (by decide),
      pwrStat_setPstate s (by decide), hsame.memories, hsame.work, hsame.hub, fun a => reg_setPstate_other s 1⟩
  case fromP1 =>
    have hframe := frame_arrive_p0 (wakingDone s)
    obtain ⟨hstate, hshown, htransition⟩ := arrived_p0 (wakingDone s)
    exact ⟨_, exec_powerWake_p1 hw hb hp, hstate, hshown, hframe.power, htransition, hframe.toStanding.toWorking.memories,
      hframe.toStanding.work⟩
  case fromP2 =>
    have hramp := frame_addRamp (s.setFld 0 HUB_STATUS_TRANSITION 1) none 1 .wake
    refine ⟨_, exec_powerWake_p2 hw hb hp hr, rfl, ?_, ?_, hramp.toWorking.memories, hramp.work⟩
    · rw [State.bit, hubStatus_of_shown hramp rfl, ← State.bit]
      exact bit_setFld_one s 0 HUB_STATUS_TRANSITION 0 (by decide) (by decide)
    · rw [State.pstate, hubStatus_of_shown hramp rfl, fld_setFld_bits (f := HUB_STATUS_TRANSITION) (g := HUB_STATUS_PSTATE) _ rfl
        (.inr (by decide))]
      exact hp
  case wakeRamp =>
    obtain ⟨p, hexec⟩ := exec_rampComplete_wake h
    have hramp := frame_setFigures (l := allDies) (fun d => mem_allDies.mp) 1 (rampTaken s rest)
    have hafter := frame_afterWakeRamp (moduleRamped (rampTaken s rest) 1) p
    have hall := hramp.toStanding.trans hafter.ofShown
    have hpower := power_afterWakeRamp (moduleRamped (rampTaken s rest) 1) p
    refine ⟨_, hexec, by rw [hpower], ?_, fun d hd => ?_, hall.toWorking.memories, hall.work⟩
    · rw [hpower]
      exact congrArg Power.ramps hramp.power
    · rw [drawW_of_shown hafter hd]
      exact drawW_moduleRamped_p1 (rampTaken s rest) hd
  case banks =>
    obtain ⟨hstate, -, htransition⟩ := arrived_p0 (wakingDone s.leaveP2)
    refine ⟨wokenUp s, exec_powerWake_banks h, hstate, power_wokenUp s, htransition,
      fun b hb h0 hp => bankAwake_wokenUp hb h0 hp, fun hsort hlt b v hfind h0 => ?_, memories_wokenUp, work_wokenUp s⟩
    have hb : b < 3264 := hlt (b, v) (mem_of_find hfind)
    have hd : bankDie b < 4 := by simp only [bankDie]; omega
    exact owner_wokenUp hsort hd hfind h0

end Sys2Proof.Laws
end

section
/-!
Levels of PWRGD and PERST# (R550): what the filter answers for how long a level lasts, and each of the four pin commands as its
effect behind the filter.
-/
namespace Sys2Proof.Laws

open Sys2Proof Sys2Proof.Machine

/-! ## The filter -/

theorem filter_long {ns : Nat} (s : State) (h : 10000 ≤ ns) : s.filter ns = (s, true) := by
  simp [State.filter, h, show ¬ ns < 1000 by omega]

theorem filter_short {ns : Nat} {s : State} (h : ns < 1000) (haux : s.power.aux = true) :
    s.filter ns = (s.bump 0 HUB_SB_CNT_GLITCH_V, false) := by
  simp [State.filter, h, haux]

/-- A level that lasts from 1 µs to 10 µs is taken or ignored, as a draw decides. -/
theorem filter_between {ns : Nat} {s : State} (hlo : 1000 ≤ ns) (hhi : ns < 10000) (haux : s.power.aux = true) :
    s.filter ns = ((s.bump 0 HUB_SB_CNT_GLITCH_V).drawn, false) ∨ s.filter ns = (s.drawn, true) := by
  by_cases hfree : bitN s.free.toNat 0 = true
  · exact .inr (by simp [State.filter, Nat.not_lt.mpr hlo, Nat.not_le.mpr hhi, hfree])
  · exact .inl (by simp [State.filter, Nat.not_lt.mpr hlo, Nat.not_le.mpr hhi, hfree, haux])

/-- The state after a level of a pin that lasts `ns`, where a taken level acts as `effect`. -/
def filtered (effect : State → State) (ns : Nat) (s : State) : State :=
  let (t, ok) := s.filter ns
  if !ok then t else effect t

theorem filtered_long {ns : Nat} (effect : State → State) (s : State) (h : 10000 ≤ ns) :
    filtered effect ns s = effect s := by
  simp [filtered, filter_long s h]

theorem filtered_short {ns : Nat} (effect : State → State) {s : State} (h : ns < 1000) (haux : s.power.aux = true) :
    filtered effect ns s = s.bump 0 HUB_SB_CNT_GLITCH_V := by
  simp [filtered, filter_short h haux]

theorem filtered_between {ns : Nat} (effect : State → State) {s : State} (hlo : 1000 ≤ ns) (hhi : ns < 10000)
    (haux : s.power.aux = true) : filtered effect ns s = (s.bump 0 HUB_SB_CNT_GLITCH_V).drawn ∨
      filtered effect ns s = filtered effect 10000 s.drawn := by
  rw [filtered_long effect s.drawn (Nat.le_refl _)]
  rcases filter_between hlo hhi haux with h | h
  · exact .inl (by simp [filtered, h])
  · exact .inr (by simp [filtered, h])

/-! ## What a level does once taken -/

def pwrgdHigh (s : State) : State := { s with pins := { s.pins with pwrgd := true } }

/-- PWRGD is high: where the auxiliary domain is powered it shows, and start-up may begin (R475). -/
def pwrgdRaised (s : State) : State :=
  if s.power.aux then ((pwrgdHigh s).setFld 0 HUB_SB_STAT_PWRGD 1).powerUp else pwrgdHigh s

def perstHigh (s : State) : State := { s with pins := { s.pins with perst := false, wake := false } }

/-- PERST# is released, and WAKE# with it: start-up may begin (R475). -/
def perstReleased (s : State) : State :=
  if s.power.aux then ((perstHigh s).setFld 0 HUB_SB_STAT_WAKE 0).powerUp else perstHigh s

/-- Fetching and start-up stop. -/
def workStopped (s : State) : State :=
  ((s.setFld 0 HUB_STATUS_READY 0).setFld 0 HUB_STATUS_STARTING 0).setFld 0 HUB_BRINGUP_CURRENT 0

def levelsZeroed (s : State) : State := s.forAll allDies (fun s d => s.setFld 0 PWR_DIE_LEVEL 0 d)

/-- No ramp is queued, and nothing wakes, leaves P3 or zeroes a larder. -/
def rampsDropped (s : State) : State :=
  { s with power := { s.power with ramps := [], waking := false, wakeBanks := none, leaving := none, zeroing := 0 } }

/-- The shutdown of R474 begins: every level is zero, and the one ramp in the queue leads to P4. -/
def shutdownBegun (s : State) : State := (rampsDropped (levelsZeroed (workStopped s)).showLevels).addRamp none 4 .off

def pwrgdLow (s : State) : State := { s with pins := { s.pins with pwrgd := false } }

@[simp] theorem pwrgdLow_power (s : State) : (pwrgdLow s).power = s.power := rfl

/-- PWRGD is low: a module that is powered or in P3 and has not tripped shuts down. -/
def pwrgdLowered (s : State) : State :=
  if !s.power.aux then pwrgdLow s else
  let t := (pwrgdLow s).setFld 0 HUB_SB_STAT_PWRGD 0
  if t.power.tripped || !(t.power.main || t.pstate == 3) then t else shutdownBegun t

def perstLow (s : State) : State := { s with pins := { s.pins with perst := true } }

/-- The module is reset as PERST# resets it (Table 13-2); its main domain is powered from then on. -/
def perstReset (s : State) : State := { s.fullReset with power := { s.fullReset.power with main := true } }

/-- PERST# is asserted: unless the module is unpowered, has tripped or shuts down, it is reset. -/
def perstAsserted (s : State) : State :=
  if !s.power.aux || s.power.tripped || s.shutting || !s.pins.pwrgd then perstLow s else perstReset (perstLow s)

/-! ## The pin commands -/

theorem exec_pwrgdAssert {s : State} (ns : Nat) (h : s.pins.pwrgd = false) :
    exec (.pwrgdAssert ns) s = .next (filtered pwrgdRaised ns s) := by
  show execPwrgdAssert ns s = _
  rw [execPwrgdAssert, if_neg (by simp [h])]
  rfl

theorem exec_pwrgdDeassert {s : State} (ns : Nat) (h : s.pins.pwrgd = true) :
    exec (.pwrgdDeassert ns) s = .next (filtered pwrgdLowered ns s) := by
  show execPwrgdDeassert ns s = _
  rw [execPwrgdDeassert, if_neg (by simp [h])]
  rfl

theorem exec_perstAssert {s : State} (ns : Nat) (h : s.pins.perst = false) :
    exec (.perstAssert ns) s = .next (filtered perstAsserted ns s) := by
  show execPerstAssert ns s = _
  rw [execPerstAssert, if_neg (by simp [h])]
  rfl

theorem exec_perstDeassert {s : State} (ns : Nat) (h : s.pins.perst = true) :
    exec (.perstDeassert ns) s = .next (filtered perstReleased ns s) := by
  show execPerstDeassert ns s = _
  rw [execPerstDeassert, if_neg (by simp [h])]
  rfl

/-- A pin that already stands at the level changes nothing. -/
theorem exec_pwrgdAssert_high {s : State} (ns : Nat) (h : s.pins.pwrgd = true) : exec (.pwrgdAssert ns) s = .next s := by
  show execPwrgdAssert ns s = _
  rw [execPwrgdAssert, if_pos h]

theorem exec_pwrgdDeassert_low {s : State} (ns : Nat) (h : s.pins.pwrgd = false) : exec (.pwrgdDeassert ns) s = .next s := by
  show execPwrgdDeassert ns s = _
  rw [execPwrgdDeassert, if_pos (by simp [h])]

theorem exec_perstAssert_asserted {s : State} (ns : Nat) (h : s.pins.perst = true) : exec (.perstAssert ns) s = .next s := by
  show execPerstAssert ns s = _
  rw [execPerstAssert, if_pos h]

theorem exec_perstDeassert_released {s : State} (ns : Nat) (h : s.pins.perst = false) :
    exec (.perstDeassert ns) s = .next s := by
  show execPerstDeassert ns s = _
  rw [execPerstDeassert, if_pos (by simp [h])]

end Sys2Proof.Laws
end

section
/-!
SUPPORT. The beginning of start-up (R475, R477): what it shows, and what of the module it leaves.
-/
namespace Sys2Proof.Laws

open Sys2Proof Sys2Proof.Machine

/-! ## A stage begins -/

theorem fld_beginStage_current (s : State) {n : Nat} (h : n ≤ 9) : (s.beginStage n).fld 0 HUB_BRINGUP_CURRENT = n := by
  have hapart : (stageCode n).hi < HUB_BRINGUP_CURRENT.lo := by
    show 4 * n - 1 < 36
    omega
  rw [State.beginStage, fld_setFld_bits (f := stageCode n) (g := HUB_BRINGUP_CURRENT) _ rfl (.inl hapart),
    fld_setFld_same s 0 HUB_BRINGUP_CURRENT n 0 (by decide)]
  exact Nat.mod_eq_of_lt (by show n < 16; omega)

theorem fld_beginStage_code (s : State) {n : Nat} (h1 : 1 ≤ n) (h : n ≤ 9) : (s.beginStage n).fld 0 (stageCode n) = 1 := by
  have hhi : (stageCode n).hi < 64 := by
    show 4 * n - 1 < 64
    omega
  have hwidth : (stageCode n).hi + 1 - (stageCode n).lo ≠ 0 := by
    show 4 * n - 1 + 1 - (4 * n - 4) ≠ 0
    omega
  exact (fld_setFld_same _ 0 (stageCode n) 1 0 hhi).trans (Nat.mod_eq_of_lt (Nat.one_lt_two_pow hwidth))

theorem sameButRegs_beginStage (s : State) (n : Nat) : SameButRegs s (s.beginStage n) :=
  (sameButRegs_setFld s 0 HUB_BRINGUP_CURRENT n 0).trans (sameButRegs_setFld _ 0 (stageCode n) 1 0)

/-! ## The ledger and the cellar's lock show -/

/-- What a change of registers alone leaves: the module's work and power, the pins and the time. -/
def besidesRegs (s : State) := (powered s, s.pins, s.ts)

/-- The grade in HUB_STATUS, and the registers of the ageing ledger and of the cellar. -/
def ledgerShown (a k : Nat) : Prop := (a = 0 ∧ 12 ≤ k) ∨ 0x310000 ≤ a

theorem frame_setFld_regs {p : Nat → Nat → Prop} (s : State) {base i : Nat} {f : Fld} (x : Nat)
    (h : ∀ k, f.lo ≤ k → k ≤ f.hi → p (f.at base i) k) : Frame besidesRegs p s (s.setFld base f x i) :=
  ⟨rfl, (frame_setFld s x h).bits⟩

/-- A field of a register of the ledger or of the cellar. -/
theorem frame_setLedger (s : State) {f : Fld} (x i : Nat) (h : 0x310000 ≤ f.off) :
    Frame besidesRegs ledgerShown s (s.setFld 0 f x i) :=
  frame_setFld_regs s x (fun k _ _ => .inr (by simp only [Fld.at]; omega))

theorem frame_showLock (s : State) : Frame besidesRegs ledgerShown s s.showLock := by
  unfold State.showLock
  split
  · exact frame_setLedger s _ _ (by decide)
  · exact ((frame_setLedger s (f := CLR_STAT_LOCKED) _ _ (by decide)).trans
      (frame_setLedger _ (f := CLR_STAT_READY) _ _ (by decide))).trans (frame_setLedger _ _ _ (by decide))

theorem frame_loadIslands (s : State) (d : Nat) : Frame besidesRegs ledgerShown s (s.loadIslands d) :=
  frame_forAll (fun s p _ => ((frame_setLedger s (f := AGE_ISL_F_MAX) _ (islOf d p) (by decide)).trans
    (frame_setLedger _ (f := AGE_ISL_V175) _ (islOf d p) (by decide))).trans (frame_setLedger _ _ _ (by decide))) s

theorem frame_loadAgeing (s : State) : Frame besidesRegs ledgerShown s s.loadAgeing := by
  have hislands : Frame besidesRegs ledgerShown s (s.forAll allDies State.loadIslands) :=
    frame_forAll (fun s d _ => frame_loadIslands s d) s
  unfold State.loadAgeing
  dsimp only
  split
  · exact hislands
  · exact ((hislands.trans (frame_setLedger _ (f := AGE_POWERED_S_V) _ _ (by decide))).trans
      (frame_setLedger _ (f := AGE_STAT_GRADE) _ _ (by decide))).trans
      (frame_setFld_regs _ (f := HUB_STATUS_GRADE) _ (fun k hk _ => .inl ⟨rfl, hk⟩))

/-! ## Start-up begins -/

/-- The main domain is powered and the time begins; HUB_RESET_CAUSE shows what NVM held, and NVM forgets it. -/
def mainPowered (s : State) : State :=
  let cause := if s.power.cold then 1 + 4 * b2n s.nvm.trip + 8 * b2n s.nvm.powerLoss else 2
  let t := { s with ts := 0, power := { s.power with main := true, cold := false } }
  let t := t.setReg (HUB_RESET_CAUSE_COLD.at 0 0) (BitVec.ofNat 64 cause)
  { t with nvm := { t.nvm with trip := false, powerLoss := false } }

@[simp] theorem besidesRegs_setFld (s : State) (base : Nat) (f : Fld) (v i : Nat) :
    besidesRegs (s.setFld base f v i) = besidesRegs s := rfl

/-- The module is starting and shows its input voltage; no stage runs yet. -/
def startShown (s : State) : State :=
  ((mainPowered s).setFld 0 HUB_STATUS_STARTING 1).setFld 0 PWR_STAT_INPUT_DV s.power.inputDv

theorem powerUp_due {s : State} (h : s.startDue = true) : s.powerUp = (startShown s).showLock.loadAgeing.beginStage 1 := by
  simp only [State.powerUp, h, Bool.not_true, Bool.false_eq_true, if_false]
  rfl

theorem powerUp_not_due {s : State} (h : s.startDue = false) : s.powerUp = s := by simp [State.powerUp, h]

theorem frame_showLoaded (s : State) : Frame besidesRegs ledgerShown s s.showLock.loadAgeing :=
  (frame_showLock s).trans (frame_loadAgeing _)

/-- The stage's registers apart, the module is as it was when the main domain was powered. -/
theorem besidesRegs_powerUp {s : State} (h : s.startDue = true) : besidesRegs s.powerUp = besidesRegs (startShown s) := by
  rw [powerUp_due h, State.beginStage, besidesRegs_setFld, besidesRegs_setFld]
  exact (frame_showLoaded (startShown s)).view

theorem bit_startShown_starting (s : State) : (startShown s).bit 0 HUB_STATUS_STARTING = true := by
  rw [startShown, State.bit, fld_setFld_reg _ (by decide), ← State.bit]
  exact bit_setFld_one _ 0 HUB_STATUS_STARTING 0 (by decide) (by decide)

theorem not_ledgerShown_starting {k : Nat} (hk : k ≤ HUB_STATUS_STARTING.hi) :
    ¬ ledgerShown (HUB_STATUS_STARTING.at 0 0) k := by
  simp only [ledgerShown, Fld.at] at hk ⊢
  omega

/-- STARTING stands while a stage begins and the ledger shows. -/
theorem bit_powerUp_starting {s : State} (h : s.startDue = true) : s.powerUp.bit 0 HUB_STATUS_STARTING = true := by
  have hledger : (startShown s).showLock.loadAgeing.bit 0 HUB_STATUS_STARTING = true := by
    rw [State.bit, (frame_showLoaded (startShown s)).fld (fun _ _ => not_ledgerShown_starting), ← State.bit]
    exact bit_startShown_starting s
  rw [powerUp_due h, State.beginStage, State.bit, fld_setFld_reg _ (by decide), fld_setFld_reg _ (by decide), ← State.bit]
  exact hledger

theorem started_powerUp {s : State} (h : s.startDue = true) : started s.powerUp := by
  have hview := besidesRegs_powerUp h
  refine ⟨congrArg (fun x => x.1.2.main) hview, congrArg (fun x => x.2.2) hview, bit_powerUp_starting h, ?_, ?_⟩
  · rw [powerUp_due h]
    exact fld_beginStage_current _ (by decide)
  · rw [powerUp_due h]
    exact fld_beginStage_code _ (by decide) (by decide)

/-- Whether or not start-up begins, memories, work and pins are as before. -/
theorem standing_pins_powerUp (s : State) : standing s.powerUp = standing s ∧ s.powerUp.pins = s.pins := by
  cases h : s.startDue with
  | true => exact ⟨congrArg (fun x => x.1.1) (besidesRegs_powerUp h), congrArg (fun x => x.2.1) (besidesRegs_powerUp h)⟩
  | false => rw [powerUp_not_due h]; exact ⟨rfl, rfl⟩

theorem startDue_iff {s : State} : s.startDue = true ↔ s.power.aux = true ∧ s.pins.pwrgd = true ∧ s.pins.perst = false ∧
    s.power.tripped = false ∧ s.shutting = false ∧ s.reg 0x10 = 0 := by
  simp [State.startDue, and_assoc]

end Sys2Proof.Laws
end

section
/-!
PWRGD and PERST# taken (R474, R475, R482): the start-up or shutdown that a level of PWRGD begins, the reset that PERST# is; O10
from the filter and these.
-/
namespace Sys2Proof.Laws

open Sys2Proof Sys2Proof.Machine

theorem standing_of_sameButRegs {s t : State} (h : SameButRegs s t) : standing t = standing s := by
  obtain ⟨hmem, hwork, -⟩ := h
  simp_all [standing, working, sameMemories, sameWork]

/-- Memories and work are as before where their view is. -/
theorem frame_of_standing {s t : State} (h : standing t = standing s) : Frame standing (fun _ _ => True) s t :=
  ⟨h, fun _ _ hk => absurd trivial hk⟩

/-! ## PWRGD high and PERST# released -/

theorem pins_pwrgdRaised (s : State) : (pwrgdRaised s).pins = { s.pins with pwrgd := true } := by
  unfold pwrgdRaised
  split
  · exact (standing_pins_powerUp _).2
  · rfl

theorem pins_perstReleased (s : State) : (perstReleased s).pins = { s.pins with perst := false, wake := false } := by
  unfold perstReleased
  split
  · exact (standing_pins_powerUp _).2
  · rfl

theorem standing_pwrgdRaised (s : State) : standing (pwrgdRaised s) = standing s := by
  unfold pwrgdRaised
  split
  · exact (standing_pins_powerUp _).1
  · rfl

theorem standing_perstReleased (s : State) : standing (perstReleased s) = standing s := by
  unfold perstReleased
  split
  · exact (standing_pins_powerUp _).1
  · rfl

theorem started_pwrgdRaised {s : State} (hperst : s.pins.perst = false) (haux : s.power.aux = true)
    (htrip : s.power.tripped = false) (hshut : s.shutting = false) (hup : s.reg 0x10 = 0) : started (pwrgdRaised s) := by
  rw [pwrgdRaised, if_pos haux]
  refine started_powerUp (startDue_iff.mpr ⟨haux, rfl, hperst, htrip, hshut, ?_⟩)
  rw [reg_setFld_other _ 0 _ 1 0 (by decide)]
  exact hup

theorem started_perstReleased {s : State} (hpwrgd : s.pins.pwrgd = true) (haux : s.power.aux = true)
    (htrip : s.power.tripped = false) (hshut : s.shutting = false) (hup : s.reg 0x10 = 0) : started (perstReleased s) := by
  rw [perstReleased, if_pos haux]
  refine started_powerUp (startDue_iff.mpr ⟨haux, hpwrgd, rfl, htrip, hshut, ?_⟩)
  rw [reg_setFld_other _ 0 _ 0 0 (by decide)]
  exact hup

/-! ## PWRGD low -/

theorem pwrgd_moduleAlert (s : State) : s.moduleAlert.pins.pwrgd = s.pins.pwrgd := by
  unfold State.moduleAlert
  dsimp only
  split <;> rfl

theorem pwrgd_pwrAlert (s : State) (b : Nat) : (s.pwrAlert b).pins.pwrgd = s.pins.pwrgd := by
  unfold State.pwrAlert
  dsimp only
  split
  · rfl
  · split
    · exact pwrgd_moduleAlert _
    · rfl

theorem pwrgd_alertOn (s : State) (b : Nat) (was now : Bool) : (s.alertOn b was now).pins.pwrgd = s.pins.pwrgd := by
  unfold State.alertOn
  split
  · exact pwrgd_pwrAlert s b
  · rfl

/-- What shows the levels may release or assert WAKE#, never PWRGD. -/
theorem pwrgd_showLevels (s : State) : s.showLevels.pins.pwrgd = s.pins.pwrgd := by
  have hshow : ∀ u : State, SameButRegs u (u.forAll allDies (fun s d =>
      (s.setFld 0 PWR_DIE_EFFECTIVE (s.effW d) d).setFld 0 PWR_DIE_GRANTED (b2n (decide (s.effW d ≤ s.drawW d))) d)) := fun u =>
    sameButRegs_forAll (fun s d => (sameButRegs_setFld s 0 PWR_DIE_EFFECTIVE _ d).trans (sameButRegs_setFld _ 0 _ _ d)) u _
  exact (congrArg Pins.pwrgd (hshow _).hub.1).trans (pwrgd_alertOn _ _ _ _)

theorem sameButRegs_workStopped (s : State) : SameButRegs s (workStopped s) :=
  ((sameButRegs_setFld s 0 HUB_STATUS_READY 0 0).trans (sameButRegs_setFld _ 0 HUB_STATUS_STARTING 0 0)).trans
    (sameButRegs_setFld _ 0 HUB_BRINGUP_CURRENT 0 0)

theorem sameButRegs_levelsZeroed (s : State) : SameButRegs s (levelsZeroed s) :=
  sameButRegs_forAll (fun s d => sameButRegs_setFld s 0 PWR_DIE_LEVEL 0 d) s allDies

theorem sameButRegs_zeroed (s : State) : SameButRegs s (levelsZeroed (workStopped s)) :=
  (sameButRegs_workStopped s).trans (sameButRegs_levelsZeroed _)

theorem ready_workStopped (s : State) : (workStopped s).ready = false := by
  have hready : (workStopped s).fld 0 HUB_STATUS_READY = 0 := by
    rw [workStopped, fld_setFld_reg _ (by decide),
      fld_setFld_bits (f := HUB_STATUS_STARTING) (g := HUB_STATUS_READY) _ rfl (.inr (by decide))]
    exact fld_setFld_same s 0 HUB_STATUS_READY 0 0 (by decide)
  simp [State.ready, State.bit, hready]

theorem ready_levelsZeroed (s : State) : (levelsZeroed s).ready = s.ready := by
  have hreg : (levelsZeroed s).reg 0 = s.reg 0 :=
    reg_forAll (fun s d => reg_setFld_other s 0 PWR_DIE_LEVEL 0 d (by simp only [Fld.at]; omega)) s allDies
  exact bit_of_reg hreg

/-- Each die listed has level 0, the others theirs. -/
theorem levelW_forAll_zero (l : List Nat) (s : State) (e : Nat) :
    (s.forAll l (fun s d => s.setFld 0 PWR_DIE_LEVEL 0 d)).levelW e = if e ∈ l then 0 else s.levelW e := by
  induction l generalizing s with
  | nil => rfl
  | cons d l ih =>
    show (State.forAll (s.setFld 0 PWR_DIE_LEVEL 0 d) l _).levelW e = _
    rw [ih]
    by_cases hed : e = d
    · subst hed
      have hzero : (s.setFld 0 PWR_DIE_LEVEL 0 e).levelW e = 0 := fld_setFld_same s 0 PWR_DIE_LEVEL 0 e (by decide)
      simp [hzero]
    · have hat : PWR_DIE_LEVEL.at 0 e ≠ PWR_DIE_LEVEL.at 0 d := by simp only [Fld.at]; omega
      have hother : (s.setFld 0 PWR_DIE_LEVEL 0 d).levelW e = s.levelW e := fld_setFld_reg s hat
      simp [hed, hother]

theorem frame_rampsDropped (s : State) : Frame standing shown s (rampsDropped s) := frame_of_regs rfl rfl

/-- Once the levels are zero, the shutdown changes displays and the queue of ramps. -/
theorem frame_shutdown (s : State) : Frame standing shown (levelsZeroed (workStopped s)) (shutdownBegun s) := by
  exact ((frame_showLevels _).toStanding.trans (frame_rampsDropped _)).trans (frame_addRamp _ none 4 .off)

theorem standing_shutdownBegun (s : State) : standing (shutdownBegun s) = standing s :=
  (frame_shutdown s).view.trans (standing_of_sameButRegs (sameButRegs_zeroed s))

theorem ready_shutdownBegun (s : State) : (shutdownBegun s).ready = false := by
  rw [State.ready, State.bit, hubStatus_of_shown (frame_shutdown s) rfl, ← State.bit, ← State.ready, ready_levelsZeroed]
  exact ready_workStopped s

theorem levelW_shutdownBegun (s : State) {d : Nat} (hd : d < 4) : (shutdownBegun s).levelW d = 0 := by
  rw [levelW_of_ramped (frame_shutdown s).ofShown hd, levelsZeroed, levelW_forAll_zero, if_pos (mem_allDies.mpr hd)]

theorem pins_offRamp (s : State) : ((rampsDropped s).addRamp none 4 .off).pins = s.pins := rfl

theorem serves_offRamp (s : State) : ((rampsDropped s).addRamp none 4 .off).power.ramps.map Ramp.serves = [.off] := rfl

theorem pwrgd_shutdownBegun (s : State) : (shutdownBegun s).pins.pwrgd = s.pins.pwrgd := by
  rw [shutdownBegun, pins_offRamp, pwrgd_showLevels, (sameButRegs_zeroed s).hub.1]

theorem pwrgd_pwrgdLowered (s : State) : (pwrgdLowered s).pins.pwrgd = false := by
  unfold pwrgdLowered
  split
  · rfl
  · dsimp only
    split
    · rfl
    · exact pwrgd_shutdownBegun _

theorem pwrgdLowered_powered {s : State} (haux : s.power.aux = true) (htrip : s.power.tripped = false)
    (hon : s.power.main = true ∨ s.pstate = 3) :
    pwrgdLowered s = shutdownBegun ((pwrgdLow s).setFld 0 HUB_SB_STAT_PWRGD 0) := by
  have hpstate : ((pwrgdLow s).setFld 0 HUB_SB_STAT_PWRGD 0).pstate = s.pstate := fld_setFld_reg (pwrgdLow s) (by decide)
  rcases hon with hmain | hp3
  · simp [pwrgdLowered, haux, htrip, hmain]
  · simp [pwrgdLowered, haux, htrip, hpstate, hp3]

/-! ## PERST# asserted -/

/-- What the end of captures leaves: the memories, NVM, the pins and the cellar. -/
def apartFromJobs (s : State) := ((s.host, s.larder, s.attic, s.shelf, s.store), s.nvm, s.pins, s.cellar)

/-- The captures of every job are over, and their registers show it. -/
def capturesOver (s : State) : State :=
  s.forAll (s.jobs.map Prod.fst) (fun s j =>
    (s.modJob j (fun x => { x with capture := none, restoring := [] })).setFld 0 CLR_JOB_TAKING 0 j)

theorem apartFromJobs_capturesOver (s : State) : apartFromJobs (capturesOver s) = apartFromJobs s :=
  by
  refine forAll_related (R := fun s t => apartFromJobs t = apartFromJobs s) (fun _ => rfl) (fun h h' => h'.trans h) ?_ s
  exact fun _ _ _ => rfl

theorem dropCaptures_eq (s : State) :
    ∃ n, s.dropCaptures = ((capturesOver s).modCellar (fun c => { c with lost := c.lost + n })).sweep := ⟨_, rfl⟩

/-- Captures that end without a commit record change no memory, pin or NVM. -/
theorem memories_dropCaptures (s : State) :
    sameMemories s s.dropCaptures ∧ s.dropCaptures.nvm = s.nvm ∧ s.dropCaptures.pins = s.pins := by
  obtain ⟨n, hdrop⟩ := dropCaptures_eq s
  have hview := apartFromJobs_capturesOver s
  simp only [apartFromJobs, Prod.mk.injEq] at hview
  obtain ⟨hmem, hnvm, hpins, -⟩ := hview
  rw [hdrop]
  exact ⟨hmem, hnvm, hpins⟩

/-- The sweep leaves every snapshot and every region that one references (R444). -/
theorem cellarKept_sweep (s : State) : cellarKept s s.sweep :=
  ⟨rfl, fun r hr href => List.mem_filter.mpr ⟨hr, by rw [href, Bool.or_true]⟩⟩

theorem cellarKept_dropCaptures (s : State) : cellarKept s s.dropCaptures := by
  obtain ⟨n, hdrop⟩ := dropCaptures_eq s
  have hcellar : (capturesOver s).cellar = s.cellar := congrArg (fun x => x.2.2.2) (apartFromJobs_capturesOver s)
  have hsweep := cellarKept_sweep ((capturesOver s).modCellar (fun c => { c with lost := c.lost + n }))
  rw [hdrop]
  simpa only [cellarKept, State.modCellar, hcellar] using hsweep

/-- PERST# leaves no register but the sideband ones at another value than its reset value (R482). -/
theorem reg_fullReset (s : State) {a : Nat} (h : isSideband a = false) : s.fullReset.reg a = regReset a := by
  have hstat : a ≠ HUB_SB_STAT_ALERT.at 0 0 := by
    rintro rfl
    exact absurd h (by decide)
  rw [State.fullReset, State.syncAlert, reg_setFld_other _ 0 _ _ 0 hstat]
  exact reg_resetRegs_in s.dropCaptures (fun a => !isSideband a) (by simp [h])

theorem perst_perstAsserted (s : State) : (perstAsserted s).pins.perst = true := by
  unfold perstAsserted
  split
  · rfl
  · exact congrArg Pins.perst (memories_dropCaptures (perstLow s)).2.2

theorem perstAsserted_powered {s : State} (hpwrgd : s.pins.pwrgd = true) (haux : s.power.aux = true)
    (htrip : s.power.tripped = false) (hshut : s.shutting = false) : perstAsserted s = perstReset (perstLow s) := by
  simp [perstAsserted, hpwrgd, haux, htrip, hshut]

/-! ## O10 -/

/-- A command that acts behind the filter, from 1 µs to 10 µs: ignored and counted, or as at 10 µs after the draw. -/
theorem exec_between {c : Nat → Instr} {effect : State → State} {ns : Nat} {s : State} (hlo : 1000 ≤ ns) (hhi : ns < 10000)
    (haux : s.power.aux = true) (hc : exec (c ns) s = .next (filtered effect ns s))
    (hdrawn : exec (c 10000) s.drawn = .next (filtered effect 10000 s.drawn)) :
    exec (c ns) s = .next (s.bump 0 HUB_SB_CNT_GLITCH_V).drawn ∨ exec (c ns) s = exec (c 10000) s.drawn := by
  rw [hc, hdrawn]
  exact (filtered_between effect hlo hhi haux).imp (congrArg _) (congrArg _)

/-- A level of 10 µs is taken, whatever else holds. -/
theorem pin_taken {ns : Nat} (s : State) (h : 10000 ≤ ns) :
    (∃ t, exec (.pwrgdAssert ns) s = .next t ∧ t.pins.pwrgd = true) ∧
    (∃ t, exec (.pwrgdDeassert ns) s = .next t ∧ t.pins.pwrgd = false) ∧
    (∃ t, exec (.perstAssert ns) s = .next t ∧ t.pins.perst = true) ∧
    (∃ t, exec (.perstDeassert ns) s = .next t ∧ t.pins.perst = false) := by
  refine ⟨?raised, ?lowered, ?asserted, ?released⟩
  case raised =>
    cases hp : s.pins.pwrgd with
    | true => exact ⟨s, exec_pwrgdAssert_high ns hp, hp⟩
    | false => exact ⟨_, exec_pwrgdAssert ns hp, by rw [filtered_long _ s h, pins_pwrgdRaised]⟩
  case lowered =>
    cases hp : s.pins.pwrgd with
    | true => exact ⟨_, exec_pwrgdDeassert ns hp, by rw [filtered_long _ s h]; exact pwrgd_pwrgdLowered s⟩
    | false => exact ⟨s, exec_pwrgdDeassert_low ns hp, hp⟩
  case asserted =>
    cases hp : s.pins.perst with
    | true => exact ⟨s, exec_perstAssert_asserted ns hp, hp⟩
    | false => exact ⟨_, exec_perstAssert ns hp, by rw [filtered_long _ s h]; exact perst_perstAsserted s⟩
  case released =>
    cases hp : s.pins.perst with
    | true => exact ⟨_, exec_perstDeassert ns hp, by rw [filtered_long _ s h, pins_perstReleased]⟩
    | false => exact ⟨s, exec_perstDeassert_released ns hp, hp⟩

/-- Settles O10: each command is its effect behind the filter; the effects are start-up, the beginning of the shutdown, and the
reset of Table 13-2. -/
theorem pinLevels : Obligations.PinLevels := by
  refine ⟨fun ns s h hpwrgd hperst haux htrip hshut hup => ?raised, fun ns s h hpwrgd hperst haux htrip hshut hup => ?released,
    fun ns s h hpwrgd haux htrip hon => ?lowered, fun ns s h hperst hpwrgd haux htrip hshut => ?asserted,
    fun ns s h haux => ⟨fun hp => ?_, fun hp => ?_, fun hp => ?_, fun hp => ?_⟩, fun ns s h => pin_taken s h,
    fun ns s c hlo hhi haux hpin => ?between⟩
  case raised =>
    have hframe := frame_of_standing (standing_pwrgdRaised s)
    exact ⟨_, (exec_pwrgdAssert ns hpwrgd).trans (congrArg _ (filtered_long _ s h)), pins_pwrgdRaised s,
      started_pwrgdRaised hperst haux htrip hshut hup, hframe.toWorking.memories, hframe.work⟩
  case released =>
    have hframe := frame_of_standing (standing_perstReleased s)
    exact ⟨_, (exec_perstDeassert ns hperst).trans (congrArg _ (filtered_long _ s h)), pins_perstReleased s,
      started_perstReleased hpwrgd haux htrip hshut hup, hframe.toWorking.memories, hframe.work⟩
  case lowered =>
    have heffect := (filtered_long pwrgdLowered s h).trans (pwrgdLowered_powered haux htrip hon)
    have hframe : Frame standing _ s _ :=
      frame_of_standing (standing_shutdownBegun ((pwrgdLow s).setFld 0 HUB_SB_STAT_PWRGD 0))
    exact ⟨_, (exec_pwrgdDeassert ns hpwrgd).trans (congrArg _ heffect), pwrgd_shutdownBegun _, ready_shutdownBegun _,
      fun d hd => levelW_shutdownBegun _ hd, serves_offRamp _, hframe.toWorking.memories, hframe.work⟩
  case asserted =>
    have heffect := (filtered_long perstAsserted s h).trans (perstAsserted_powered hpwrgd haux htrip hshut)
    obtain ⟨hmem, hnvm, hpins⟩ := memories_dropCaptures (perstLow s)
    exact ⟨_, (exec_perstAssert ns hperst).trans (congrArg _ heffect), congrArg Pins.perst hpins, rfl, rfl, rfl, rfl,
      congrArg (fun n => { n with deferred := [] }) hnvm, cellarKept_dropCaptures (perstLow s), hmem,
      fun a ha => reg_fullReset (perstLow s) ha⟩
  · exact (exec_pwrgdAssert ns hp).trans (congrArg _ (filtered_short _ h haux))
  · exact (exec_pwrgdDeassert ns hp).trans (congrArg _ (filtered_short _ h haux))
  · exact (exec_perstAssert ns hp).trans (congrArg _ (filtered_short _ h haux))
  · exact (exec_perstDeassert ns hp).trans (congrArg _ (filtered_short _ h haux))
  case between =>
    rcases hpin with ⟨hp, rfl⟩ | ⟨hp, rfl⟩ | ⟨hp, rfl⟩ | ⟨hp, rfl⟩
    · exact exec_between hlo hhi haux (exec_pwrgdAssert ns hp) (exec_pwrgdAssert (s := s.drawn) 10000 hp)
    · exact exec_between hlo hhi haux (exec_pwrgdDeassert ns hp) (exec_pwrgdDeassert (s := s.drawn) 10000 hp)
    · exact exec_between hlo hhi haux (exec_perstAssert ns hp) (exec_perstAssert (s := s.drawn) 10000 hp)
    · exact exec_between hlo hhi haux (exec_perstDeassert ns hp) (exec_perstDeassert (s := s.drawn) 10000 hp)

end Sys2Proof.Laws
end
